-- ==== Sys2Proof/Word.lean ====
section
/-! DEFINITION. The word types of the part and the sparse table that holds anything kept by number.
Bits are numbered as the manual numbers them: bit 0 is the least significant (spec 00_scope, Conventions). -/

namespace Sys2Proof

/-- A byte. -/
abbrev Byte := BitVec 8
/-- A fault code (R9) or any 16-bit field. -/
abbrev W16 := BitVec 16
/-- A 32-bit word (registers, Waggle words, control-port words). -/
abbrev W32 := BitVec 32
/-- A 64-bit word (link words, counters, global addresses, dictionary values). -/
abbrev W64 := BitVec 64

/-- A table kept by number, sparse: the keys rise strictly and no entry equals what an unlisted key reads as. -/
abbrev Tbl (α : Type) := List (Nat × α)

end Sys2Proof
end

