-- ==== Sys2Proof/Syntax.lean ====
section
/-! DEFINITION. The commands of the block: one constructor per row of the opcode table, in the table's order,
with the operands the row needs (who acts, and whatever comes from outside the module). -/

namespace Sys2Proof

/-- A slot of a Worker Cell: logical Comb (40 * cy + cx), local cell index (32 * r + c), slot 0-3 (R15, R161). -/
structure SlotRef where
  comb : Nat
  cell : Nat
  slot : Nat
  deriving DecidableEq, Repr

/-- The path of a dictionary access (R472): the Management Port, BAR0 of a host-link port (an operator ring
acts as the port it names), a ring of context n, or the JTAG port under a grant (R510). -/
inductive Path where
  | mgmt
  | hl (p : Nat)
  | tenant (n : Nat)
  | jtag
  deriving DecidableEq, Repr

/-- A master that issues accesses (R29, R240), as the `SRC_MASTER` field of R320 names it; the Engine slot,
whose accesses stay inside its Comb, is named beside them. -/
inductive Master where
  | worker (comb cell slot : Nat)
  | forager (comb f : Nat)
  | host (f : Nat)
  | keeper
  | service (comb : Nat)
  | engine (comb slot : Nat)
  deriving DecidableEq, Repr

/-- What a defect found by BIST or a pattern bundle is (R405, R453). -/
inductive DefectKind where
  | engine
  | comb
  | region
  deriving DecidableEq, Repr

/-- A defect a pattern bundle found, by logical Comb (R405). -/
structure Defect where
  comb : Nat
  kind : DefectKind
  deriving DecidableEq, Repr

/-- The rating BIST gives a physical slot that is not good, or the region beneath it (R453). -/
structure SlotRating where
  frame : Nat
  slot : Nat
  kind : DefectKind
  deriving DecidableEq, Repr

/-- A report a unit sends to the Keeper's intake queue (R406, R407). -/
structure Report where
  code : W16
  sev : Nat
  ctx : Option Nat
  unit : Nat
  comb : Nat
  sub : Nat
  epoch : W64
  addr : W64
  detail : W64
  deriving DecidableEq, Repr

/-- Activity of one millisecond that the energy model of R437 counts, for one context or (none) for nobody. -/
structure Activity where
  ctx : Option Nat
  macFp4 : Nat
  macFp6 : Nat
  cell : Nat
  cmLine : Nat
  mwLine : Nat
  flit : Nat
  combMs : Nat
  deriving DecidableEq, Repr

/-- What a peer Keeper sends in the neighbour check (R461); noPlan is the answer of R460. -/
structure Neighbour where
  noPlan : Bool
  coord : Nat
  sizes : Nat
  rclk : Nat
  port : Nat
  deriving DecidableEq, Repr

/-- The commands of the block, one per row of the opcode table. -/
inductive Instr where
  /-- CQ_TAIL_DOORBELL (R76): Engine of Comb c, slot s, new tail -/
  | cqTailDoorbell (c s : Nat) (v : W32)
  /-- SLOT_CTL_SKIP (R116): Engine of Comb c, slot s -/
  | slotCtlSkip (c s : Nat)
  /-- SLOT_CTL_RETRY (R116): Engine of Comb c, slot s -/
  | slotCtlRetry (c s : Nat)
  /-- GQ_CLOSE (R69): the two words of the close -/
  | gqClose (c : Nat) (w0 w1 : W32)
  /-- PAIR_CTL_WRITE (R80): the Keeper's write for the pair that holds c -/
  | pairCtlWrite (c : Nat) (v : W32)
  /-- REGISTER_WRITE (R72): control port index and its words -/
  | registerWrite (c idx : Nat) (ws : List W32)
  /-- GQ_OCC_PUBLISH (R71) -/
  | gqOccPublish (c : Nat)
  /-- CLAUSE_START (R111): the head Clause of slot s -/
  | clauseStart (c s : Nat)
  /-- TILE_START (R114) -/
  | tileStart (c : Nat)
  /-- SHADOW_LOAD_DONE (R60) -/
  | shadowLoadDone (c : Nat)
  /-- WEIGHT_SWAP (R59) -/
  | weightSwap (c : Nat)
  /-- ACTIVATION_READ (R63) -/
  | activationRead (c : Nat)
  /-- KMN_SEGMENT_START (R99) -/
  | kmnSegmentStart (c : Nat)
  /-- BANK_DRAIN_START (R63) -/
  | bankDrainStart (c : Nat)
  /-- OUTPUT_SEGMENT_EMIT (R74) -/
  | outputSegmentEmit (c : Nat)
  /-- PAIR_CHECK_ARRIVAL (R82): the partner's check value -/
  | pairCheckArrival (c : Nat) (crc : W32)
  /-- CLAUSE_COMPLETE (R103) -/
  | clauseComplete (c : Nat)
  /-- GATHER_FULL_RESOLVE (R108) -/
  | gatherFullResolve (c : Nat)
  /-- ENGINE_WATCHDOG_EXPIRE (R416) -/
  | engineWatchdogExpire (c : Nat)
  /-- ENGINE_FALLBACK_ENTRY (R87) -/
  | engineFallbackEntry (c : Nat)
  /-- SLOT_FREEZE (R376): the master, the violation's code, the refused address -/
  | slotFreeze (m : Master) (code : W16) (addr : W64)
  /-- NOP (R176) -/
  | cNop (u : SlotRef)
  /-- ADD (R176) -/
  | cAdd (u : SlotRef)
  /-- SUB (R176) -/
  | cSub (u : SlotRef)
  /-- AND (R176) -/
  | cAnd (u : SlotRef)
  /-- OR (R176) -/
  | cOr (u : SlotRef)
  /-- XOR (R176) -/
  | cXor (u : SlotRef)
  /-- SHL (R176) -/
  | cShl (u : SlotRef)
  /-- SHR (R176) -/
  | cShr (u : SlotRef)
  /-- SRA (R176) -/
  | cSra (u : SlotRef)
  /-- SLT (R176) -/
  | cSlt (u : SlotRef)
  /-- SLTU (R176) -/
  | cSltu (u : SlotRef)
  /-- MUL (R176) -/
  | cMul (u : SlotRef)
  /-- MULHU (R176) -/
  | cMulhu (u : SlotRef)
  /-- ADDI (R176) -/
  | cAddi (u : SlotRef)
  /-- ANDI (R176) -/
  | cAndi (u : SlotRef)
  /-- ORI (R176) -/
  | cOri (u : SlotRef)
  /-- XORI (R176) -/
  | cXori (u : SlotRef)
  /-- SHI (R176) -/
  | cShi (u : SlotRef)
  /-- LUI (R176) -/
  | cLui (u : SlotRef)
  /-- BEQ (R177) -/
  | cBeq (u : SlotRef)
  /-- BNE (R177) -/
  | cBne (u : SlotRef)
  /-- BLT (R177) -/
  | cBlt (u : SlotRef)
  /-- BGE (R177) -/
  | cBge (u : SlotRef)
  /-- BLTU (R177) -/
  | cBltu (u : SlotRef)
  /-- BGEU (R177) -/
  | cBgeu (u : SlotRef)
  /-- JAL (R177) -/
  | cJal (u : SlotRef)
  /-- JR (R177) -/
  | cJr (u : SlotRef)
  /-- LD (R178) -/
  | cLd (u : SlotRef)
  /-- ST (R178) -/
  | cSt (u : SlotRef)
  /-- VLD (R178) -/
  | cVld (u : SlotRef)
  /-- VST (R178) -/
  | cVst (u : SlotRef)
  /-- GLD (R249) -/
  | cGld (u : SlotRef)
  /-- GST (R176) -/
  | cGst (u : SlotRef)
  /-- FENCE_RELEASE (R245) -/
  | cFenceRelease (u : SlotRef)
  /-- FENCE_ACQUIRE (R249) -/
  | cFenceAcquire (u : SlotRef)
  /-- FENCE_RELEASE_ACQUIRE (R245) -/
  | cFenceReleaseAcquire (u : SlotRef)
  /-- VADD (R179) -/
  | cVadd (u : SlotRef)
  /-- VSUB (R179) -/
  | cVsub (u : SlotRef)
  /-- VMUL (R179) -/
  | cVmul (u : SlotRef)
  /-- VFMA (R179) -/
  | cVfma (u : SlotRef)
  /-- VMAX (R179) -/
  | cVmax (u : SlotRef)
  /-- VMIN (R179) -/
  | cVmin (u : SlotRef)
  /-- VEXP (R179) -/
  | cVexp (u : SlotRef)
  /-- VRCP (R179) -/
  | cVrcp (u : SlotRef)
  /-- VRSQ (R179) -/
  | cVrsq (u : SlotRef)
  /-- VCVT_FP32_TO_BF16 (R176) -/
  | cVcvtFp32ToBf16 (u : SlotRef)
  /-- VCVT_BF16_TO_FP32 (R176) -/
  | cVcvtBf16ToFp32 (u : SlotRef)
  /-- VIADD (R176) -/
  | cViadd (u : SlotRef)
  /-- VISUB (R176) -/
  | cVisub (u : SlotRef)
  /-- VIMUL (R176) -/
  | cVimul (u : SlotRef)
  /-- VAND (R176) -/
  | cVand (u : SlotRef)
  /-- VOR (R176) -/
  | cVor (u : SlotRef)
  /-- VXOR (R176) -/
  | cVxor (u : SlotRef)
  /-- VSHL (R176) -/
  | cVshl (u : SlotRef)
  /-- VSHR (R176) -/
  | cVshr (u : SlotRef)
  /-- VSRA (R176) -/
  | cVsra (u : SlotRef)
  /-- VILT (R176) -/
  | cVilt (u : SlotRef)
  /-- VRED_FP32_SUM (R180) -/
  | cVredFp32Sum (u : SlotRef)
  /-- VRED_FP32_MAX (R180) -/
  | cVredFp32Max (u : SlotRef)
  /-- VRED_INT32_SUM (R180) -/
  | cVredInt32Sum (u : SlotRef)
  /-- VRED_INT32_MAX (R180) -/
  | cVredInt32Max (u : SlotRef)
  /-- VBC (R176) -/
  | cVbc (u : SlotRef)
  /-- VGET (R176) -/
  | cVget (u : SlotRef)
  /-- VSET (R176) -/
  | cVset (u : SlotRef)
  /-- VMOV (R176) -/
  | cVmov (u : SlotRef)
  /-- QNT (R182) -/
  | cQnt (u : SlotRef)
  /-- QSL (R183) -/
  | cQsl (u : SlotRef)
  /-- DQT (R184) -/
  | cDqt (u : SlotRef)
  /-- SPX (R186) -/
  | cSpx (u : SlotRef)
  /-- MFS (R187) -/
  | cMfs (u : SlotRef)
  /-- MTS (R187) -/
  | cMts (u : SlotRef)
  /-- VPOP (R167) -/
  | cVpop (u : SlotRef)
  /-- WSND (R263) -/
  | cWsnd (u : SlotRef)
  /-- CADD (R271) -/
  | cCadd (u : SlotRef)
  /-- CADD_REMOTE (R275) -/
  | cCaddRemote (u : SlotRef)
  /-- CWAIT (R163) -/
  | cCwait (u : SlotRef)
  /-- CTEST (R271) -/
  | cCtest (u : SlotRef)
  /-- CRD (R271) -/
  | cCrd (u : SlotRef)
  /-- SRR (R194) -/
  | cSrr (u : SlotRef)
  /-- SRW (R194) -/
  | cSrw (u : SlotRef)
  /-- SPAWN (R188) -/
  | cSpawn (u : SlotRef)
  /-- LOCK (R190) -/
  | cLock (u : SlotRef)
  /-- UNLOCK (R192) -/
  | cUnlock (u : SlotRef)
  /-- END (R173) -/
  | cEnd (u : SlotRef)
  /-- SLOT_WAKE (R163) -/
  | slotWake (u : SlotRef)
  /-- LINK_WORD_ARRIVAL (R152): the word in transit toward inbound port d of the cell -/
  | linkWordArrival (c cell d : Nat)
  /-- LINK_CREDIT_RETURN (R152): the credit in transit toward outbound link d of the cell -/
  | linkCreditReturn (c cell d : Nat)
  /-- PASS_THROUGH_FORWARD (R153): the head word of inbound port d -/
  | passThroughForward (c cell d : Nat)
  /-- ERROR_COMPLETION (R189): master, request identifier, code -/
  | errorCompletion (m : Master) (id : Nat) (code : W16)
  /-- STORE_CELL_REG_WRITE_ARRIVAL (R194): the oldest posted write for that Store Cell -/
  | storeCellRegWriteArrival (c cell : Nat)
  /-- GEN_DESC_START (R149): generator g -/
  | genDescStart (c cell g : Nat)
  /-- GEN_ELEMENT_MOVE (R149): generator g -/
  | genElementMove (c cell g : Nat)
  /-- CTW_SIGNAL (R196): the head control word of slot s -/
  | ctwSignal (c cell s : Nat)
  /-- CTW_RELEASE (R196): the head control word of slot s -/
  | ctwRelease (c cell s : Nat)
  /-- EDGE_SLOT_WRITE (R159): the oldest segment waiting at the edge port -/
  | edgeSlotWrite (c cell : Nat)
  /-- SL_SEGMENT_ARRIVAL (R309): the segment in transit from direction d -/
  | slSegmentArrival (c d : Nat)
  /-- FALLBACK_ISSUE (R170) -/
  | fallbackIssue (c cell : Nat)
  /-- REDUCE_ON_ARRIVAL_ADD (R214): the next line of the operation unit's oldest reduce packet -/
  | reduceOnArrivalAdd (c : Nat)
  /-- OP_FILL (R212) -/
  | opFill (c : Nat)
  /-- OP_COPY (R212) -/
  | opCopy (c : Nat)
  /-- OP_UNIT_DONE (R213) -/
  | opUnitDone (c : Nat)
  /-- ECC_WRITEBACK (R208): 8-byte word number of Comb Memory -/
  | eccWriteback (c word : Nat)
  /-- SWITCH_BUFFER_DRAIN (R218) -/
  | switchBufferDrain (c : Nat)
  /-- OWNER_CHANGE_FILL (R219) -/
  | ownerChangeFill (c : Nat)
  /-- CM_DW_WRITE (R206): window n -/
  | cmDwWrite (p : Path) (n : Nat) (v : W64)
  /-- MW_FRAME (R224): channel, and (requester, lines queued): requester 0-15 a context, 16 unreserved -/
  | mwFrame (c ch : Nat) (demand : List (Nat × Nat))
  /-- MW_RES_WRITE (R228): context number n -/
  | mwResWrite (p : Path) (n : Nat) (v : W64)
  /-- MW_UNITS_INCREASE (R229) -/
  | mwUnitsIncrease (n : Nat)
  /-- MW_GRANULE_FILL_DONE (R229) -/
  | mwGranuleFillDone (n : Nat)
  /-- MW_ROW_SPARE (R232) -/
  | mwRowSpare (c ch bank row : Nat)
  /-- PARTITION_RESET (R234): the line of c's region found uncorrectable, and whether scrub found it -/
  | partitionReset (c line : Nat) (scrub : Bool)
  /-- PARTITION_RESET_DONE (R234) -/
  | partitionResetDone (n : Nat)
  /-- MW_LANE_RETRAIN (R237): whether the lane calibrates -/
  | mwLaneRetrain (c ch lane : Nat) (pass : Bool)
  /-- READ_BUFFER_EXPIRE (R249) -/
  | readBufferExpire (u : SlotRef) (way : Nat)
  /-- HC_COMMIT (R258): the oldest fence of context n -/
  | hcCommit (n : Nat)
  /-- COMMIT_COMPLETE (R258) -/
  | commitComplete (n : Nat)
  /-- COMMIT_FAIL (R259): the first code -/
  | commitFail (n : Nat) (code : W16)
  /-- EPOCH_REWIND (R259) -/
  | epochRewind (p : Path) (n : Nat) (v : W64)
  /-- MSG_DELIVER (R267): traffic class k -/
  | msgDeliver (c k : Nat)
  /-- SPILL_DELIVER (R269) -/
  | spillDeliver (c : Nat)
  /-- COUNTER_ADD (R272): the oldest counter operation passed to the counter unit -/
  | counterAdd (c : Nat)
  /-- WATCH_REGISTER (R274): the oldest registration in the landing buffer -/
  | watchRegister (c : Nat)
  /-- WATCH_WAKE (R274): watch k of the Comb's table -/
  | watchWake (c k : Nat)
  /-- WAKE_RESEND (R328) -/
  | wakeResend (c k : Nat)
  /-- WAKE_ACK (R328) -/
  | wakeAck (c k : Nat)
  /-- FG_RING_WRITE (R284) -/
  | fgRingWrite (p : Path) (f : Nat) (v : W64)
  /-- FG_TAKE (R285) -/
  | fgTake (c f : Nat)
  /-- FG_START (R287): command slot k -/
  | fgStart (c f k : Nat)
  /-- FG_PACKET_ISSUE (R288) -/
  | fgPacketIssue (c f : Nat)
  /-- DISPATCH_OCC_READ_RETURN (R300): mirror key (module and Comb), the word read -/
  | dispatchOccReadReturn (c f : Nat) (key : Nat) (v : W32)
  /-- FG_COMPLETE (R294) -/
  | fgComplete (c f k : Nat)
  /-- DIGEST_CHECK (R305) -/
  | digestCheck (c : Nat)
  /-- SL_RX_WRITE (R309): direction d -/
  | slRxWrite (p : Path) (d : Nat) (v : W64)
  /-- PKT_PARSE (R323): packet i in flight -/
  | pktParse (i : Nat)
  /-- PKT_HOP (R317): packet i in flight, and whether the hop finds an uncorrectable flit -/
  | pktHop (i : Nat) (bad : Bool)
  /-- PKT_ACCEPT (R325) -/
  | pktAccept (i : Nat)
  /-- ACK_RECEIVE (R325) -/
  | ackReceive (i : Nat)
  /-- NACK_RECEIVE (R327) -/
  | nackReceive (i : Nat)
  /-- BUSY_RECEIVE (R327) -/
  | busyReceive (i : Nat)
  /-- DATA_RECEIVE (R328) -/
  | dataReceive (i : Nat)
  /-- RETX_TIMEOUT (R327): send-table entry k -/
  | retxTimeout (k : Nat)
  /-- RX_ENTRY_EXPIRE (R324): receive-table entry k -/
  | rxEntryExpire (k : Nat)
  /-- FC_MODE_CHANGE (R319): 0 Request, 1 Reply wafer links; 2 + p port p -/
  | fcModeChange (l : Nat)
  /-- TY_FRAME_RECEIVE (R333): the frame as received -/
  | tyFrameReceive (p : Nat) (bytes : List Byte)
  /-- TY_REKEY (R332) -/
  | tyRekey (p : Nat)
  /-- TY_OLD_KEY_EXPIRE (R332) -/
  | tyOldKeyExpire (p : Nat)
  /-- PAUSE_EXPIRE (R335) -/
  | pauseExpire (p ch : Nat)
  /-- PAUSE_REPEAT (R334) -/
  | pauseRepeat (p ch : Nat)
  /-- LANE_RETRAIN_START (R336) -/
  | laneRetrainStart (p lane : Nat)
  /-- LANE_TRAIN_DONE (R337) -/
  | laneTrainDone (p lane : Nat) (pass : Bool)
  /-- LANE_REQUEST_RETRY (R338) -/
  | laneRequestRetry (p : Nat)
  /-- TY_CTL_WRITE (R336): port q -/
  | tyCtlWrite (p : Path) (q : Nat) (v : W64)
  /-- SQ_TAIL_DOORBELL (R346): host function f -/
  | sqTailDoorbell (f : Nat) (v : W32)
  /-- CQ_HEAD_DOORBELL (R346) -/
  | cqHeadDoorbell (f : Nat) (v : W32)
  /-- RING_CONFIG_WRITE (R345): 8-byte word w of the record of f -/
  | ringConfigWrite (f w : Nat) (v : W64)
  /-- HC_TAKE (R346): the 8 words of the submission entry, and the host-memory bytes its command names (module table or object value) -/
  | hcTake (f : Nat) (e : List W64) (ext : List Byte)
  /-- HC_SLICE_TIME (R355): the incoming context -/
  | hcSliceTime (n : Nat)
  /-- COMPLETION_POST (R349) -/
  | completionPost (f : Nat)
  /-- EVENT_POST (R350) -/
  | eventPost
  /-- CTX_FILL_DONE (R352) -/
  | ctxFillDone (n : Nat)
  /-- QUANTUM_EXPIRE (R355): the resident context whose quantum ends -/
  | quantumExpire (n : Nat)
  /-- CONTEXT_SWITCH_START (R356): outgoing and incoming context -/
  | contextSwitchStart (n m : Nat)
  /-- SWITCH_RESTORE_DONE (R356): incoming context -/
  | switchRestoreDone (m : Nat)
  /-- HL_PORT_DOWN (R343) -/
  | hlPortDown (p : Nat)
  /-- PERST_ASSERT (R523) -/
  | perstAssert (p : Nat)
  /-- PERST_RELEASE (R523) -/
  | perstRelease (p : Nat)
  /-- LINK_KEY_TIMEOUT (R365) -/
  | linkKeyTimeout (p : Nat)
  /-- LINK_KEY_RETRY (R365) -/
  | linkKeyRetry (p : Nat)
  /-- IDE_KEY_PROG (R366): key set, substream, key -/
  | ideKeyProg (p ks sub : Nat) (key : List Byte)
  /-- SPDM_REQUEST (R367): transport 0 HL0, 1 HL1, 2 Management Port -/
  | spdmRequest (t : Nat) (req : List Byte)
  /-- SPDM_COSIGN (R368) -/
  | spdmCosign (t : Nat)
  /-- CTX_NONCE_WRITE (R370) -/
  | ctxNonceWrite (n : Nat) (nonce : List Byte)
  /-- FREEZE_REQUEST (R375): requesting module -/
  | freezeRequest (src : Nat) (m : Master) (code : W16)
  /-- TENANT_KEY_WRITE (R378) -/
  | tenantKeyWrite (n : Nat) (key : List Byte)
  /-- CHALLENGE_READ (R378) -/
  | challengeRead (n : Nat)
  /-- CHALLENGE_LAPSE (R378) -/
  | challengeLapse (n : Nat)
  /-- TOKEN_OPEN_ENTRY (R380) -/
  | tokenOpenEntry (n : Nat) (tok : List Byte)
  /-- TOKEN_RELEASE_ENTRY (R381) -/
  | tokenReleaseEntry (n : Nat) (tok : List Byte)
  /-- TOKEN_RELEASE_ALL (R381) -/
  | tokenReleaseAll (n : Nat) (tok : List Byte)
  /-- TOKEN_TENANT_DEBUG_START (R388) -/
  | tokenTenantDebugStart (n : Nat) (tok : List Byte)
  /-- TOKEN_TENANT_DEBUG_END (R388) -/
  | tokenTenantDebugEnd (n : Nat) (tok : List Byte)
  /-- FRZ_DATA_READ (R380) -/
  | frzDataRead (n : Nat)
  /-- OP_FRZ_RELEASE (R381) -/
  | opFrzRelease (p : Path) (v : W64)
  /-- DBG_CHALLENGE_READ (R384) -/
  | dbgChallengeRead (p : Path)
  /-- DBG_GRANT (R385) -/
  | dbgGrant (p : Path) (g : List Byte)
  /-- DBG_GRANT_FILL_DONE (R385) -/
  | dbgGrantFillDone
  /-- DBG_END (R387) -/
  | dbgEnd (p : Path) (v : W64)
  /-- DBG_GRANT_EXPIRE (R387) -/
  | dbgGrantExpire
  /-- PB_IMAGE_WRITE (R403) -/
  | pbImageWrite (p : Path) (img : List Byte)
  /-- PB_RUN (R404) -/
  | pbRun (p : Path) (v : W64)
  /-- PB_RUN_DONE (R405): the defects found -/
  | pbRunDone (ds : List Defect)
  /-- ERROR_REPORT (R406) -/
  | errorReport (r : Report)
  /-- ELOG_INTAKE (R408) -/
  | elogIntake
  /-- ELOG_CLEAR (R409) -/
  | elogClear (p : Path) (v : W64)
  /-- CPER_NEXT_READ (R410) -/
  | cperNextRead (p : Path)
  /-- COMB_HEARTBEAT (R413) -/
  | combHeartbeat (c : Nat) (fatal : Bool)
  /-- HEARTBEAT_MISS (R413) -/
  | heartbeatMiss (c : Nat)
  /-- COMB_FAIL (R414) -/
  | combFail (c : Nat)
  /-- COMB_SPARE_JOIN_DONE (R414) -/
  | combSpareJoinDone (c : Nat)
  /-- INPUT_UNDERVOLTAGE (R420): input in 0.1 V and how long it has been there, in ms -/
  | inputUndervoltage (dv ms : Nat)
  /-- INPUT_OVERVOLTAGE (R420): input in 0.1 V and how long it has been there, in us -/
  | inputOvervoltage (dv us : Nat)
  /-- INPUT_RECOVER (R420) -/
  | inputRecover (dv ms : Nat)
  /-- CONVERTER_SHORT (R422): 0-7 IBC, 8-55 CORE, 56-103 MEM, 104-105 RIM, 106-111 OPT, 112 KEEP -/
  | converterShort (k : Nat)
  /-- CONVERTER_RETRY (R422) -/
  | converterRetry (k : Nat)
  /-- CONVERTER_RETRY_RESET (R422) -/
  | converterRetryReset (k : Nat)
  /-- LOCKOUT_CLEAR (R422) -/
  | lockoutClear
  /-- TRIP (R425) -/
  | trip (code : W16)
  /-- PWR_RESTART (R425) -/
  | pwrRestart (p : Path) (v : W64)
  /-- GOVERNOR_TICK (R426): mean input, baseline and the three classes' demands, in W -/
  | governorTick (inp base links mem comp : Nat)
  /-- PWR_CAP_WRITE (R426) -/
  | pwrCapWrite (p : Path) (v : W64)
  /-- PWR_ALERT_PIN (R429): how long the pin has been low; 0: it is high -/
  | pwrAlertPin (ns : Nat)
  /-- IBC_ALERT (R429) -/
  | ibcAlert (k : Nat) (on : Bool)
  /-- FLOOR_EXIT (R431) -/
  | floorExit
  /-- SLOPE_GRANT_TICK (R432): (Comb, true: one more step is wanted, false: one less), in round-robin order -/
  | slopeGrantTick (reqs : List (Nat × Bool))
  /-- THERMAL_TICK (R433): Tj of Frames 0-47, in 0.1 degrees C -/
  | thermalTick (tj : List Int)
  /-- THROTTLE_STEP (R433) -/
  | throttleStep (f : Nat)
  /-- COOLANT_TICK (R434): 0.1 degrees C, 0.1 L/min, mbar -/
  | coolantTick (tin tout : Int) (flow dp : Nat)
  /-- AVS_TICK (R435): Frame, and the lowest voltage in mV at which its monitors pass -/
  | avsTick (f need : Nat)
  /-- ENERGY_TICK (R437) -/
  | energyTick (acts : List Activity)
  /-- OSC_QUALIFY_WINDOW (R444): A against B in the window, 0.01 ppm -/
  | oscQualifyWindow (diff : Int)
  /-- OSC_ARBITRATION_DONE (R444): A and B against nominal, 0.01 ppm -/
  | oscArbitrationDone (a b : Int)
  /-- REF_EDGE_LOSS (R445) -/
  | refEdgeLoss
  /-- REF_SWITCH_START (R443) -/
  | refSwitchStart
  /-- REF_SWITCH_STOP (R443) -/
  | refSwitchStop
  /-- REF_SWITCH_RESTART (R443) -/
  | refSwitchRestart
  /-- REF_SEL_WRITE (R445) -/
  | refSelWrite (p : Path) (v : W64)
  /-- SSC_OUT_WRITE (R446) -/
  | sscOutWrite (p : Path) (v : W64)
  /-- POWER_GOOD (R449) -/
  | powerGood
  /-- FIRMWARE_BOOT (R450) -/
  | firmwareBoot
  /-- BIST_DONE (R453): ratings of the slots and regions that are not good -/
  | bistDone (rs : List SlotRating)
  /-- MW_CALIBRATE_DONE (R455): (Frame, slot) of regions found defective -/
  | mwCalibrateDone (bad : List (Nat × Nat))
  /-- SWARM_BROADCAST (R456) -/
  | swarmBroadcast (fw : List Byte)
  /-- SWARM_ANSWER (R456): pass = false: a mismatch or no answer within 10 ms -/
  | swarmAnswer (f slot : Nat) (pass : Bool)
  /-- MODULE_READY (R449) -/
  | moduleReady
  /-- RESET_N_ASSERT (R526): how long the pin has been low -/
  | resetNAssert (us : Nat)
  /-- FW_IMAGE_WRITE (R470) -/
  | fwImageWrite (p : Path) (img : List Byte)
  /-- FW_COMMIT (R470) -/
  | fwCommit (p : Path) (v : W64)
  /-- PORT_LIGHT_RECEIVED (R458): the lanes that pass training -/
  | portLightReceived (p : Nat) (lanes : List Nat)
  /-- PORT_UNCONNECTED (R458) -/
  | portUnconnected (p : Nat)
  /-- PORT_TRAIN_RETRY (R458) -/
  | portTrainRetry (p : Nat)
  /-- ROLL_PLAN_WRITE (R460) -/
  | rollPlanWrite (p : Path) (v : W64)
  /-- NEIGHBOUR_CHECK (R461) -/
  | neighbourCheck (p : Nat) (peer : Neighbour)
  /-- ROLL_TOKEN (R462): port, ms that remain -/
  | rollToken (p remain : Nat)
  /-- ROLL_REPORT (R462) -/
  | rollReport (p n : Nat)
  /-- ROLL_DEADLINE (R463) -/
  | rollDeadline
  /-- ROLL_COUNT (R463): the count, and the parent's TS plus the hop's delay -/
  | rollCount (n : Nat) (pts : W64)
  /-- ROLL_START (R463) -/
  | rollStart (p : Path) (v : W64)
  /-- TS_SYNC_TICK (R499): the parent's TS -/
  | tsSyncTick (pts : W64)
  /-- MAINT_REQ (R467) -/
  | maintReq (p : Path) (v : W64)
  /-- MAINT_ACTIVITY_END (R467): ticket -/
  | maintActivityEnd (t : Nat) (ok : Bool)
  /-- SPARE_REMAP (R469) -/
  | spareRemap (c : Nat) (region : Bool)
  /-- SPARE_REGION_COPY_DONE (R469) -/
  | spareRegionCopyDone (f : Nat)
  /-- SDO_REQUEST (R481) -/
  | sdoRequest (bus : Nat) (frame : List Byte)
  /-- SDO_TIMEOUT (R481) -/
  | sdoTimeout
  /-- NMT_COMMAND (R480) -/
  | nmtCommand (cs node : Nat)
  /-- LSS_COMMAND (R480) -/
  | lssCommand (frame : List Byte)
  /-- TPDO_TIMER_EXPIRE (R485) -/
  | tpdoTimerExpire (k : Nat)
  /-- HEARTBEAT_PRODUCE (R482) -/
  | heartbeatProduce
  /-- EMCY_SEND (R483) -/
  | emcySend
  /-- OBJECT_WRITE (R490) -/
  | objectWrite (p : Path) (idx sub : Nat) (v : W64)
  /-- PERSIST_STORE (R477) -/
  | persistStore (idx sub : Nat)
  /-- CTX_SEL_WRITE (R476) -/
  | ctxSelWrite (p : Path) (v : W64)
  /-- DW_SEL_WRITE (R488): host-link port h -/
  | dwSelWrite (h : Nat) (v : W64)
  /-- DW_GO_TRANSFER (R488): what `DW_LEN` and `DW_OFF` hold, and the bytes software put into the DOMAIN buffer -/
  | dwGoTransfer (h len off : Nat) (buf : List Byte)
  /-- DW_GO_COMMIT (R488) -/
  | dwGoCommit (h : Nat)
  /-- SNAP_LIST_WRITE (R493) -/
  | snapListWrite (p : Path) (l : List Byte)
  /-- SNAP_TAKE (R494) -/
  | snapTake (p : Path) (v : W64)
  /-- PC_LATCH (R503) -/
  | pcLatch (p : Path) (v : W64)
  /-- PC_SEL_WRITE (R502) -/
  | pcSelWrite (p : Path) (v : W64)
  /-- PC_VALUE_WRITE (R504) -/
  | pcValueWrite (p : Path) (v : W64)
  /-- PC_STICKY_CLEAR (R504) -/
  | pcStickyClear (p : Path) (v : W64)
  /-- TR_CFG_WRITE (R505): context, subindex 1 or 2 -/
  | trCfgWrite (n sub : Nat) (v : W64)
  /-- TRACE_RECORD_WRITE (R506) -/
  | traceRecordWrite (c : Nat)
  /-- UNIT_GATE (R509): counter kind and unit index -/
  | unitGate (c k ix : Nat)
  /-- UNIT_WAKE (R509) -/
  | unitWake (c k ix : Nat)
  /-- DBG_MEM_READ (R512) -/
  | dbgMemRead (p : Path)
  /-- DBG_MEM_WRITE (R512) -/
  | dbgMemWrite (p : Path) (v : W64)
  /-- DBG_REG_READ (R512) -/
  | dbgRegRead (p : Path)
  /-- DBG_REG_WRITE (R511) -/
  | dbgRegWrite (p : Path) (v : W64)
  /-- PEEK_TIMEOUT (R512) -/
  | peekTimeout (p : Path)
  /-- DBG_HALT (R513): the value written to DBG_RUN -/
  | dbgHalt (p : Path) (v : W64)
  /-- DBG_RESUME (R513) -/
  | dbgResume (p : Path) (v : W64)
  /-- DBG_STEP (R513) -/
  | dbgStep (p : Path) (v : W64)
  /-- JTAG_UPDATE_DR (R510) -/
  | jtagUpdateDr (dr : BitVec 73)
  /-- JTAG_TRST (R526) -/
  | jtagTrst
  /-- MFP_CFG_WRITE (R531) -/
  | mfpCfgWrite (p : Path) (n : Nat) (v : W64)
  /-- MFP_HANDOVER (R531) -/
  | mfpHandover (n : Nat)
  /-- STEP_SYNC_IN_EDGE (R530): pin, and how long it has stayed high -/
  | stepSyncInEdge (n ns : Nat)
  /-- STEP_SYNC_PULSE_END (R530) -/
  | stepSyncPulseEnd
  /-- UART_RECEIVE (R530) -/
  | uartReceive (b : Byte)
  /-- WAKE_RECEIVE (R274) -/
  | wakeReceive (i : Nat)
  /-- ACK_INTERVAL_EXPIRE (R325): receive-table entry k -/
  | ackIntervalExpire (k : Nat)
  /-- HL_LINK_TRAINED (R342) -/
  | hlLinkTrained (p rate lanes : Nat) (flit : Bool)
  /-- HL_DMA_COMPLETION (R358) -/
  | hlDmaCompletion (f : Nat) (ok : Bool) (data : List Byte)
  /-- VKEEP_OFF (R420) -/
  | vkeepOff
  /-- FRAME_RAISE (R449) -/
  | frameRaise
  /-- CONVERTER_RAMP_END (R422): stage and its output in percent of target -/
  | converterRampEnd (k pct : Nat)
  /-- CTX_DESTROY_DONE (R354) -/
  | ctxDestroyDone (n : Nat)
  /-- DBG_ENDING_DONE (R387): whether the reloaded firmware verifies -/
  | dbgEndingDone (ok : Bool)
  /-- CAN_BUS_OFF (R479) -/
  | canBusOff (b : Nat)
  /-- CAN_BUS_RECOVER (R479) -/
  | canBusRecover (b : Nat)
  deriving DecidableEq, Repr

end Sys2Proof
end

