-- ==== Sys2Proof/Decode.lean ====
section
/-! DEFINITION. The commands a word spells. The opcode table gives no row any bits, so no word spells a command
(log entry 7). The words of Worker Cell programs are read in Machine/Operands.lean. -/

namespace Sys2Proof

/-- The command that `nbits` bits `w` spell by the table's bits: none. -/
def decodeTableWord (_nbits _w : Nat) : Option Instr := none

end Sys2Proof
end

