-- ==== Sys2Proof/Config.lean ====
section
/-! DEFINITION. What an implementation or the manufacture of one module fixes, and the free values: values the
manual leaves open. A constant here has no body, so nothing can be proved of its value (assumption log, entries 2 to 4). -/

namespace Sys2Proof.Config

/-- The variant of the modelled module: 0 BRW-4060, 1 -M, 2 -L (R3, R459: fixed by fuses). -/
opaque variant : Fin 3
/-- A fresh free bit vector of 32 bits, by the number of the draw (a value the manual leaves open). -/
opaque freeWord : Nat → W32
/-- A fresh free choice, by the number of the draw (which of two outcomes the manual leaves open). -/
opaque freeBool : Nat → Bool
/-- A fresh free choice among `n` (draw number, `n`): only its residue is used. -/
opaque freeChoice : Nat → Nat → Nat
/-- The direction in which e^x, 1/x, 1/sqrt x are rounded, by operation and operand (R179: within 1 ulp). -/
opaque approx : Nat → W32 → Int
/-- CTR_DRBG output (R363): byte `i` of draw `n`. -/
opaque randomByte : Nat → Nat → Byte
/-- Device Serial Number (R343, R495). -/
opaque dsn : W64
/-- Hardware revision and date of manufacture (R482, R495). -/
opaque hwRevision : W16
opaque mfgDate : W32
/-- Sundausk section GUID (R418). -/
opaque cperGuid : List Byte
/-- Calibrated energy coefficients `E_FP4` .. `P_COMB` (R437), by subindex 1-7. -/
opaque energyCoeff : Nat → W32
/-- Fused minimum security version at manufacture and the two banks' images' security versions (R450, R471). -/
opaque fusedMin : Byte
/-- The Keeper's real-time clock, by TS, for CPER timestamps (R411). -/
opaque rtc : W64 → W64
/-- SHA-384 and SHA-256-family digests used by the Keeper (R369, R370). -/
opaque sha384 : List Byte → List Byte
/-- ECDSA P-384 verification: key, message digest input, signature (R362, R379). -/
opaque verifyP384 : List Byte → List Byte → List Byte → Bool
/-- Both vendor signatures (P-384 and ML-DSA-87) of an image or grant verify against the vendor roots (R362). -/
opaque vendorSigned : List Byte → Bool
/-- Signatures by DIK-E and DIK-Q over a message (R362, R370). -/
opaque signDikE : List Byte → List Byte
opaque signDikQ : List Byte → List Byte
/-- Version strings of the hardware and of the Keeper firmware of a bank's image, and the hardware revision (R482). -/
opaque hwVersionText : List Byte
opaque swVersionText : Option (List Byte) → List Byte
opaque revision : W32
/-- What no command measures: the value of a field of an object, by index, subindex and how much the module has put out (R447, R496,
R529): converter powers and currents, levels at input pins, reduced link width, CAN error counters. -/
opaque telemetry : Nat → Nat → Nat → W32
/-- Digest of measurement block 1 to 7 over the content it covers (R369). -/
opaque measure : Nat → List Byte → List Byte
/-- The vendor's stand-in for the part's boot ROM and as-manufactured firmware in measurements (R369). -/
opaque bootRom : List Byte
/-- Whether 97 bytes are 0x04 and a point of the P-384 curve (R378). -/
opaque onCurve : List Byte → Bool
/-- AES-256-GCM (R332): key, nonce, additional data, text. `gcmOpen` is none where the tag fails. -/
opaque gcmSeal : List Byte → List Byte → List Byte → List Byte → List Byte
opaque gcmOpen : List Byte → List Byte → List Byte → List Byte → Option (List Byte)
/-- The message of step 1, 2 or 3 of the link exchange of R364 that this module sends: step, draw, the messages so far. -/
opaque kxMessage : Nat → Nat → List Byte → List Byte
/-- Both signatures of the peer over the messages so far verify (R364). -/
opaque kxSigs : List Byte → Bool
/-- Device Serial Number in the certificate chains that a message names (R364, `PEER_LIST`). -/
opaque kxSerial : List Byte → W64
/-- 72 bytes of HKDF-SHA-384 output (R364 step 4), from the messages so far. -/
opaque kxKeys : List Byte → List Byte
/-- The certificate-chain and allow-list checks of R364 pass for the peer's message. -/
opaque kxChains : List Byte → Bool
/-- The SPDM responder's answer (R367), by draw, measurement blocks and request; the co-signature of R368 over the transcript of a
signed response, and the error UnexpectedRequest; whether a response is signed, and whether a request asks for the co-signature. -/
opaque spdmAnswer : Nat → List Byte → List Byte → List Byte
opaque spdmCosign : List Byte → List Byte
opaque spdmUnexpected : List Byte
opaque spdmSigned : List Byte → Bool
opaque spdmIsCosign : List Byte → Bool
/-- IDE_KM requests that start and stop a key set of a sub-stream (R366). -/
opaque ideGo : List Byte → Option (Nat × Nat)
opaque ideStop : List Byte → Option (Nat × Nat)
/-- Whether an SPDM request opens or closes a secured session on its transport (R366, R367). -/
opaque spdmOpens : List Byte → Bool
opaque spdmCloses : List Byte → Bool
/-- Version of a pattern bundle image, and security version of a firmware image (R403, R470). -/
opaque bundleVersion : List Byte → W32
opaque fwVersion : List Byte → Byte

end Sys2Proof.Config
end

