-- ==== Sys2Proof/Machine/State.lean ====
section
/-! DEFINITION. The state of one module as plain data, its reset value, and the reasons a step can stop.
Every field's default is its reset value; INVENTORY.md, under State, says which the spec gives and which a log
entry names. The stalls and cycle counts of a real part are outside the model (log entry 5). -/

namespace Sys2Proof.Machine

/-- A byte-addressed memory whose blocks carry check values (R199, R208, R209, R230, R231, R392).
`chk` holds, for a 1 KiB block, its stored check value XOR the CRC-32C of the bytes it now holds: 0 is agreement. -/
structure PMem where
  /-- bytes, by offset; an unlisted byte reads 0 -/
  bytes : List Host.Cell := []
  /-- stored check value XOR CRC-32C of the block's bytes, by block number -/
  chk : Tbl W32 := []
  /-- `EPOCH_LO` of the block's last write (R392), by block number -/
  ep : Tbl Bool := []
  /-- the mark bit of R392 and R397, by block number -/
  mark : Tbl Bool := []
  /-- poisoned lines and the code a read of one raises, by line number (R204, R208, R230) -/
  poison : Tbl W16 := []
  /-- latent errors of the stored code words: 8-byte word number in Comb Memory (1 corrected, 2 not), line number in
  the Memory Wafer (number of bad symbols); nature's, set by no command (log entry 6) -/
  ecc : Tbl Nat := []
  deriving DecidableEq, Repr

/-- A Waggle tuple in a Worker queue (R166, R167). -/
structure Tuple where
  tag : W16
  words : List W32
  popped : Nat := 0
  deriving DecidableEq, Repr

/-- The condition on which a slot is descheduled (R163). -/
inductive Wait where
  | ready
  | counter (i : Nat) (v : W64)
  | portIn (d : Nat)
  | queue
  | portOut (d : Nat)
  deriving DecidableEq, Repr

/-- What `LOCK` records and the lock buffer (R190-R193). -/
structure LockRec where
  sregs : Tbl W32 := []
  vregs : Tbl W32 := []
  rng : W64 := 0
  pc : Nat := 0
  count : Nat := 0
  buf : Tbl Byte := []
  lines : List Nat := []
  deriving DecidableEq, Repr

/-- A load whose result has not returned: destination register, width, the request's identifier, its address and the
instruction's address (R176, R189). -/
structure PendLoad where
  id : Nat
  reg : Nat
  wide : Bool
  addr : W64
  pc : Nat
  fills : Bool
  deriving DecidableEq, Repr

/-- A line of the global read buffer (R249): the line's global address and its 64 bytes. -/
structure RdLine where
  line : Nat
  data : List Byte
  deriving DecidableEq, Repr

/-- A context slot of a Worker Cell (R161, R172, R173, R187, R245, R249). `outst` and `outPc` are the accesses not yet
completed and the addresses of their instructions; `woke` is the condition on which the slot returned and has not issued
since (R164). -/
structure WSlot where
  running : Bool := false
  pc : Nat := 0
  sregs : Tbl W32 := []
  vregs : Tbl W32 := []
  rng : W64 := 0
  fault : W32 := 0
  fpc : W32 := 0
  wait : Wait := .ready
  since : Nat := 0
  frozen : Bool := false
  halted : Bool := false
  fetch : Option (Nat × List Byte) := none
  rb : List RdLine := []
  lock : Option LockRec := none
  outst : List Nat := []
  outPc : Tbl Nat := []
  woke : Wait := .ready
  pend : List PendLoad := []
  held : Bool := false
  deriving DecidableEq, Repr

/-- Inbound port queues, words and credits on the links, by direction 0 N, 1 E, 2 S, 3 W (R152). `used` is 8 minus
the credits the cell holds for the downstream queue. -/
structure Ports where
  inq : Tbl (List W64) := []
  wire : Tbl (List W64) := []
  used : Tbl Nat := []
  back : Tbl Nat := []
  deriving DecidableEq, Repr

/-- A Worker Cell (R144-R171). The service slot's registers, buffer and halt stand apart (R169). -/
structure Worker where
  mem : Tbl Byte := []
  slots : Tbl WSlot := []
  last : Nat := 3
  waits : Nat := 0
  ports : Ports := {}
  ptCfg : W32 := 0
  wq : List Tuple := []
  svcS : Tbl W32 := []
  svcV : Tbl W32 := []
  svcBuf : Tbl Byte := []
  svcHalt : Bool := false
  deriving DecidableEq, Repr

/-- An entry of a Store Cell slot's queue: a generator descriptor (10 words, R148) or a control word (4, R196). -/
inductive SEntry where
  | desc (ws : List W32)
  | ctw (ws : List W32)
  deriving DecidableEq, Repr

/-- A slot of a Store Cell (R150, R195, R197). -/
structure SSlot where
  headBad : Bool := false
  q : List SEntry := []
  part : Option (Bool × List W32) := none
  stopped : Bool := false
  fault : W16 := 0
  deriving DecidableEq, Repr

/-- An address generator (R149, R150): the slot it runs, how many elements have moved, the last slot served. -/
structure Gen where
  slot : Option Nat := none
  pos : Nat := 0
  last : Nat := 3
  halted : Bool := false
  deriving DecidableEq, Repr

/-- An output segment (R74, R133, R142): output row, segment, values, indices, form, trailer, TAG, check value. -/
structure Seg where
  row : Nat
  six : Nat
  vals : List W32
  idx : List Nat
  form : Nat
  trailer : List W32
  tag : W16
  crc : W32
  first : Bool
  mt : Nat
  nt : Nat
  src : Nat := 0
  deriving DecidableEq, Repr

/-- A Store Cell (R147-R159, R194-R197). `edgeQ` holds segments waiting at its edge port, `regQ` posted register
writes on the row bus with their writer's slot number and completion identifier. -/
structure StoreCell where
  mem : Tbl Byte := []
  slots : Tbl SSlot := []
  gens : Tbl Gen := []
  ports : Ports := {}
  ptCfg : W32 := 0
  edgeBase : W32 := 0
  edgeSlots : W32 := 0
  edgeWr : W32 := 0
  edgeRd : W32 := 0
  edgeQ : List Seg := []
  regQ : List (Nat × W32 × Nat × Nat × Nat) := []
  deriving DecidableEq, Repr

/-- A gather-port entry (R67, R68). -/
structure GEntry where
  group : Nat
  words : List W32
  deriving DecidableEq, Repr

/-- A stored weight of a tile: K position, N position (row of B), element code, scale code. -/
structure WElem where
  k : Nat
  n : Nat
  code : Nat
  scale : Nat
  deriving DecidableEq, Repr

/-- A weight tile in the shadow or active buffers (R59): N tile, K chunk, slice (true: low), and its elements. -/
structure WTile where
  group : Nat
  nt : Nat
  kc : Nat
  lo : Bool
  elems : List WElem
  deriving DecidableEq, Repr

/-- An exact product: mantissa times 2 to the exponent, or a term whose scale is NaN (R41). -/
inductive Prod where
  | val (m : Int) (e : Int)
  | nan
  deriving DecidableEq, Repr

/-- Where the running Clause stands. -/
inductive Phase where
  | nextTile
  | kWait
  | stream
  | drain
  | ending
  | stopped (status : Nat)
  deriving DecidableEq, Repr

/-- A Clause that has started: latched words and descriptors, the sequencer position (R78, R90, R98, R104, R107), the
bank groups it holds in wide use (R203), and whether a narrow access met one of its own (R204). -/
structure Run where
  cl : List W32 := []
  a : List W32 := []
  b : List W32 := []
  c : List W32 := []
  cin : List W32 := []
  alo : List W32 := []
  blo : List W32 := []
  phase : Phase := .nextTile
  unitOpen : Bool := false
  group : Nat := 0
  segment : Nat := 0
  aRow0 : Nat := 0
  row0 : Nat := 0
  rows : Nat := 0
  entries : List GEntry := []
  mt : Nat := 0
  nt : Nat := 0
  kc : Nat := 0
  tiles : Nat := 0
  kseg : Nat := 0
  pass : Nat := 0
  pos : Nat := 0
  bank : Nat := 0
  nextRow : Nat := 0
  lastGroup : Nat := 0
  computed : Tbl Nat := []
  emitted : Nat := 0
  skipSegs : Nat := 0
  segCount : Nat := 0
  forced : Option Nat := none
  xbias : W32 := 0
  wide : List Nat := []
  clash : Bool := false
  anyUnchecked : Bool := false
  anyFallback : Bool := false
  allPaired : Bool := true
  fault : W16 := 0
  deriving DecidableEq, Repr

/-- The Matrix Engine of a Comb (R55-R87): control-port registers by slot, gather port, buffers, accumulator banks,
and segments drained but not yet released. -/
structure Engine where
  cqTail : Tbl W32 := []
  cqHead : Tbl W32 := []
  cqBase : Tbl W32 := []
  cqSize : Tbl W32 := []
  xbias : Tbl W32 := []
  slotFault : Tbl W32 := []
  gqPub : W32 := 0
  gqFault : W32 := 0
  pairCtl : W32 := 0
  lastFault : W16 := 0
  fallback : Bool := false
  frozen : Tbl Bool := []
  halted : Bool := false
  lastServed : Nat := 3
  active : Option Nat := none
  runs : Tbl Run := []
  gq : List GEntry := []
  closes : Tbl (Option Nat) := []
  consumed : Tbl Nat := []
  shadow : Option WTile := none
  weights : Option WTile := none
  acc : Tbl W32 := []
  terms : Tbl (List Prod) := []
  scratch : Tbl W32 := []
  outQ : List Seg := []
  pairCrc : List W32 := []
  deriving DecidableEq, Repr

/-- Where a Forager command stands (R286-R288, R294). -/
inductive FgPhase where
  | waiting
  | watching (id : Nat)
  | ready
  | started
  | issued
  deriving DecidableEq, Repr

/-- A command in a Forager slot (R286-R302). `early`: its fault came before it started; `cur`: source and destination of the
unit in progress; `step`: 1 while the operation unit has the command, or 1 plus the mirror record chosen for a dispatch entry;
`occWait`: the read whose data it waits for; `buf`: source bytes read ahead. -/
structure FgCmd where
  desc : List W32 := []
  phase : FgPhase := .waiting
  seqNo : Nat := 0
  early : Bool := false
  unitIx : Nat := 0
  cur : Option (W64 × W64) := none
  off : Nat := 0
  step : Nat := 0
  outst : List Nat := []
  units : List (Nat × Nat × W64) := []
  fault : Option (W16 × Nat × W64) := none
  cursors : Tbl Nat := []
  occWait : Option Nat := none
  opDone : Bool := false
  epoch : W64 := 0
  crc64 : W64 := 0
  buf : List Byte := []
  deriving DecidableEq, Repr

/-- A Forager's estimate of one mirror's gather port (R300): key of the mirror Comb, value read (none: on its way),
rows sent to it since the read was issued, TS at which the read was issued. -/
structure Est where
  key : Nat
  val : Option Nat
  sent : Nat
  at_ : W64
  deriving DecidableEq, Repr

/-- A Forager (R283-R307). -/
structure Forager where
  taken : W64 := 0
  slots : Tbl FgCmd := []
  stuck : Bool := false
  last : Nat := 63
  takes : Nat := 0
  ended : Tbl Bool := []
  est : List Est := []
  frozen : Bool := false
  halted : Bool := false
  deriving DecidableEq, Repr

/-- A packet (R320-R322). `dst` and `src` are the 24-bit module and Comb fields; `clitics` the words of each clitic. -/
structure Pkt where
  dst : Nat := 0
  src : Nat := 0
  master : Nat := 0
  cls : Nat := 0
  ptype : Nat := 0
  vc : Nat := 0
  epochLo : Bool := false
  ctx : Nat := 0
  space : Nat := 0
  first : Bool := false
  off : Nat := 0
  len : Nat := 0
  opn : Bool := false
  seq : Nat := 0
  inc : Nat := 0
  clitics : List (List W64) := []
  arrCtr : Nat := 0
  arrEn : Bool := false
  arrAmt : Nat := 0
  reqId : Nat := 0
  status : W16 := 0
  rsvd : Bool := false
  clWords : Nat := 0
  clNext : Nat := 0
  e2e : W32 := 0
  payload : List Byte := []
  deriving DecidableEq, Repr

/-- Where a packet in flight inside the module is: not yet parsed, at a router of the mesh (column, row), at the Rim switch, or
arrived at its destination (R312-R317, R323). -/
inductive Place where
  | source
  | mesh (x y : Nat)
  | rim
  | arrived
  deriving DecidableEq, Repr

/-- A packet in flight; `ingress`: the Tyduem port and channel in whose buffer it still stands (R317). -/
structure Flight where
  pkt : Pkt
  place : Place
  ingress : Option (Nat × Nat) := none
  deriving DecidableEq, Repr

/-- A stream in a send table (R240, R324-R327): `src` is the logical Comb or 480 for the Rim masters. -/
structure TxStream where
  src : Nat
  master : Nat
  dst : Nat
  cls : Nat
  inc : Nat := 0
  next : Nat := 0
  unacc : List Pkt := []
  unperf : List Pkt := []
  resends : Nat := 0
  busy : Bool := false
  deriving DecidableEq, Repr

/-- A stream in a receive table (R324-R326). `performed`: the highest `SEQ` performed in order; `early`: those performed before their
turn; `half`: the first half of a block just written (R393). -/
structure RxStream where
  comb : Nat
  src : Nat
  master : Nat
  cls : Nat
  inc : Nat
  expect : Nat := 0
  performed : Option Nat := none
  held : List Pkt := []
  halt : Option (Nat × W16) := none
  sinceAck : Nat := 0
  half : Option (Nat × Nat) := none
  early : List Nat := []
  deriving DecidableEq, Repr

/-- A digested contribution that has claimed a stage (R304): its stream and request identifier, the stage's offset, how it
is applied (packet type of its data), and the bytes and CRC-64 received so far. -/
structure Claim where
  src : Nat
  master : Nat
  cls : Nat
  id : Nat
  stage : Nat
  red : Nat
  len : Nat := 0
  crc : W64 := 0
  deriving DecidableEq, Repr

/-- An operation of a Comb's operation unit (R211-R214). -/
inductive OpKind where
  | fill (d n : Nat) (pat : W32)
  | copy (a d n : Nat)
  | reduce (p : Pkt)
  deriving DecidableEq, Repr

/-- An operation in the unit: who asked (Forager and slot, or none for the Keeper or a packet), how far it is, code and offset of its
stop, whether that is a read of a copy's source, context, and the low bit of its writes' epoch. -/
structure Op where
  kind : OpKind
  who : Option (Nat × Nat) := none
  pos : Nat := 0
  fin : Bool := false
  fault : W16 := 0
  addr : Nat := 0
  atSrc : Bool := false
  ctx : Nat := 0
  ep : Bool := false
  deriving DecidableEq, Repr

/-- A counter operation passed to the counter unit (R272): index, amount, and who learns of a saturation. -/
structure CtrOp where
  ctx : Nat
  ix : Nat
  amt : Nat
  who : Option Master := none
  id : Nat := 0
  pkt : Option Pkt := none
  deriving DecidableEq, Repr

/-- A watch (R274): context, counter, value, the registering packet, whose source is the reply address, the status with
which it wakes, and whether the wake reply has been sent (R328). -/
structure Watch where
  ctx : Nat
  ctr : Nat
  val : W64
  pkt : Pkt
  woken : Option W16 := none
  sent : Bool := false
  deriving DecidableEq, Repr

/-- A performance counter and its sticky overflow bit (R500). -/
structure Perf where
  val : W64 := 0
  sticky : Bool := false
  deriving DecidableEq, Repr

/-- A trace record waiting in a Comb's trace writer (R506, R507). -/
structure TrRec where
  kind : Nat
  unit : Nat
  index : Nat
  arg : W32
  time : W64
  deriving DecidableEq, Repr

/-- Everything of a Comb that belongs to the context that owns it: live while the context is resident, kept in its save
area while it is swapped out (R165, R220, R276, R282, R306, R353, R390, R501). -/
structure Area where
  mem : PMem := {}
  workers : Tbl Worker := []
  stores : Tbl StoreCell := []
  eng : Engine := {}
  fg : Tbl Forager := []
  ctr : Tbl W64 := []
  pendSum : Tbl Nat := []
  spill : List Pkt := []
  slOut : Tbl (Option Seg) := []
  slK : Tbl Nat := []
  perf : Tbl Perf := []
  latch : Tbl Perf := []
  trQ : List TrRec := []
  trLost : Nat := 0
  trLostAll : Nat := 0
  trWritten : Nat := 0
  traceCnt : Nat := 0
  tracePkts : Nat := 0
  ops : List Op := []
  claims : List Claim := []
  trailers : List Pkt := []
  gated : Tbl (Option W64) := []
  deriving DecidableEq, Repr

/-- A message or packet in the landing buffer (R266-R269); `loc`: it came over a row access bus. -/
structure Land where
  cls : Nat
  pkt : Pkt
  loc : Bool := false
  deriving DecidableEq, Repr

/-- The Memory Wafer controller and region of a logical Comb (R221-R238). -/
structure MwRegion where
  mem : PMem := {}
  scrub : Tbl Nat := []
  rr : Tbl Nat := []
  grant : Tbl (List (Nat × Nat)) := []
  corrPasses : Tbl Nat := []
  spareRows : Tbl Nat := []
  laneSpare : Tbl (List Nat) := []
  deriving DecidableEq, Repr

/-- A logical Comb: the resident context's area, the images of swapped-out contexts, and what belongs to the module. -/
structure Comb where
  live : Area := {}
  saved : Tbl (Option Area) := []
  mw : MwRegion := {}
  landing : List Land := []
  ctrOps : List CtrOp := []
  watches : List Watch := []
  swBuf : List Pkt := []
  opLatch : Tbl Perf := []
  router : Tbl Perf := []
  lost : Bool := false
  failing : Bool := false
  refusing : Bool := false
  misses : Nat := 0
  engDead : Bool := false
  duty : Nat := 0
  deriving DecidableEq, Repr

/-- A Frame: the slot the spare Comb stands for, the slot the spare region stands for, whether either spare is defective, the slot a
copy under way is for (R14, R20-R24, R453, R454, R469); its greatest duty, Tj in 0.1 degrees C, VCORE in mV, seconds above nominal,
whether that is withdrawn, and Tj at the last calibration of its Memory Wafer channels (R237, R433, R435); whether a lost rail took its
Combs, and whether a pattern bundle over the whole Frame has found no defect since (R423, R469). -/
structure Frame where
  combFor : Option Nat := none
  regionFor : Option Nat := none
  spareBad : Bool := false
  regionBad : Bool := false
  copyTo : Option Nat := none
  duty : Nat := 16
  tj : Int := 0
  vcore : Nat := 0
  wear : Nat := 0
  spent : Bool := false
  calTj : Option Int := none
  railLost : Bool := false
  pbPass : Bool := false
  deriving DecidableEq, Repr

/-- A commit fence (R258): epoch, the host function whose command waits for it and the command's request identifier, and
whether it has been accepted. -/
structure Fence where
  epoch : W64
  fn : Nat
  id : Nat
  accepted : Bool := false
  deriving DecidableEq, Repr

/-- An entry of a freeze table (R377). -/
structure Frz where
  code : W16 := 0
  master : Option Master := none
  st : Nat := 0
  comb : Nat := 0
  epoch : W64 := 0
  time : W64 := 0
  addr : W64 := 0
  deriving DecidableEq, Repr

/-- A context (R257, R259, R351-R356, R377-R380). `failed` holds, by uncommitted epoch, the first code that fails its
fence. -/
structure Ctx where
  st : Nat := 0
  resident : Bool := false
  wasReset : Bool := false
  x0 : Nat := 0
  y0 : Nat := 0
  wM1 : Nat := 0
  hM1 : Nat := 0
  paired : Bool := false
  mods : List W32 := []
  moving : Nat := 0
  saveBase : Tbl (Option Nat) := []
  unitsNow : Nat := 0
  fills : List Nat := []
  epOpen : W64 := 1
  epDone : W64 := 0
  cstat : W32 := 0
  failed : Tbl W16 := []
  fences : List Fence := []
  outst : Tbl Nat := []
  sliceAt : Option W64 := none
  switchTo : Option Nat := none
  frz : Tbl Frz := []
  frzOver : W32 := 0
  frzMore : List Master := []
  tkey : List Byte := []
  chal : Option (List Byte) := none
  report : List Byte := []
  tdbg : Bool := false
  refuse : Bool := false
  deriving DecidableEq, Repr

/-- A host command taken from a ring (R346-R349). `words` are the entry's; `ext` the host bytes it names; `got` and `buf` the
bytes of a copy received from the host and those not yet sent; `done` the bytes issued; `outst` its requests; `offs` the place of
each read's data; `watch` the wake it waits for; `hold`: something else must end first; `status` and `comb`, `epoch`, `result` for
its completion entry. -/
structure HCmd where
  words : List W64
  ext : List Byte := []
  got : Nat := 0
  buf : List Byte := []
  done : Nat := 0
  outst : List Nat := []
  offs : Tbl Nat := []
  watch : Option Nat := none
  hold : Bool := false
  status : Option (Nat × W16) := none
  result : W64 := 0
  comb : Nat := 0
  epoch : W64 := 0
  deriving DecidableEq, Repr

/-- A ring of a host function (R345, R346), with the commands taken and not yet retired. -/
structure Ring where
  sqBase : W64 := 0
  cqBase : W64 := 0
  cfg : W64 := 0
  cfgErr : Bool := false
  sqHead : W32 := 0
  cqTail : W32 := 0
  sqTail : W32 := 0
  cqHead : W32 := 0
  lost : Nat := 0
  cmds : List HCmd := []
  frozen : Bool := false
  deriving DecidableEq, Repr

/-- An event on its way to the event rings (R350). -/
structure Event where
  ctx : Option Nat
  code : W16
  comb : Nat
  master : Nat
  result : W64
  epoch : W64
  deriving DecidableEq, Repr

/-- A link key: 32 bytes of key, 4 of salt (R332, R362). -/
structure LinkKey where
  key : List Byte
  salt : List Byte
  deriving DecidableEq, Repr

/-- The state of a port's key exchange (R364, R365): whether one runs, whether this end leads, the next message it waits for
(1 to 3; 0: none), the whole messages so far and the part of the next one, whether a key is in force already, whether a failed
exchange is to start again. -/
structure Kx where
  running : Bool := false
  leads : Bool := false
  await : Nat := 0
  msgs : List Byte := []
  part : List Byte := []
  waiting : Bool := false
  deriving DecidableEq, Repr

/-- A Tyduem port (R329-R340, R364, R458-R461). `st`: 0 unconnected, 1 training, 2 keying, 3 up, 4 down; `lanes`: 0 down,
1 training, 2 active, 3 dropped by width; `badAt`: times of tag failures in the last second; `kph` and `rxKph`: phases sent and
received; `paused`: channels stopped by the peer and for how many quanta; `pausing`: channels whose pause this end keeps up;
`req`: own lane request not yet answered (lane, 2 retrain, 3 drop by width, 4 add); `again`: one to be sent again; `training`:
the lane being retrained, and whether this end leads. -/
structure TyPort where
  st : Nat := 0
  lanes : Tbl Nat := []
  corr : Tbl Nat := []
  bad : W64 := 0
  badAt : List W64 := []
  kph : Bool := false
  rxKph : Bool := false
  txKey : Option LinkKey := none
  rxKey : Option LinkKey := none
  nextTx : Option LinkKey := none
  nextRx : Option LinkKey := none
  oldKey : Option LinkKey := none
  txCtr : W64 := 0
  rxCtr : W64 := 0
  kx : Kx := {}
  paused : Tbl Nat := []
  pausing : Tbl Bool := []
  onOff : Bool := false
  width : Nat := 96
  gov : Nat := 96
  req : Option (Nat × Nat) := none
  again : Option (Nat × Nat) := none
  training : Option (Nat × Bool) := none
  light : Bool := false
  checked : Bool := false
  failed : Bool := false
  deriving DecidableEq, Repr

/-- A host-link port (R342, R366, R496, R523). -/
structure HlPort where
  st : Nat := 0
  rate : Nat := 0
  lanes : Nat := 0
  perst : Bool := false
  ideReq : Bool := false
  refSrc : Bool := false
  ideKeys : Tbl (List Byte) := []
  ideOn : Bool := false
  corr : W64 := 0
  uncorr : W64 := 0
  replay : W64 := 0
  bytesIn : W64 := 0
  bytesOut : W64 := 0
  dwSel : W32 := 0
  dwLen : Nat := 0
  dwOff : Nat := 0
  dwStat : W32 := 0
  dwBuf : List Byte := []
  dwStage : List Byte := []
  dwParts : List (Nat × Nat) := []
  deriving DecidableEq, Repr

/-- An SPDM transport (R366-R368): session open, and the response a co-sign request may follow. -/
structure Spdm where
  session : Bool := false
  signed : Option (List Byte) := none
  rsp : List Byte := []
  count : Nat := 0
  deriving DecidableEq, Repr

/-- An entry of the error log (R407). -/
structure ELog where
  rep : Report
  count : W32
  first : W64
  last : W64
  deriving DecidableEq, Repr

/-- A CPER record (R410-R412). -/
structure Cper where
  id : Nat
  entry : ELog
  frame : Nat
  phase : Nat
  action : Nat
  spares : W64
  sev : Nat
  boot : Bool
  stamp : W64
  deriving DecidableEq, Repr

/-- A maintenance activity in the arbiter's queue (R465-R467): its scope as `MAINT_ENTRY` [35:16] shows it, whether the
device started it itself, and the context of a reservation change. -/
structure Maint where
  ticket : Nat
  cls : Nat
  deferred : Bool
  scope : Nat
  own : Bool := false
  ctx : Option Nat := none
  deriving DecidableEq, Repr

/-- A debug grant (R383-R387). -/
structure Grant where
  kind : Nat
  expiry : Nat
  pending : Bool := false
  deriving DecidableEq, Repr

/-- A converter stage (R422, R447): 0 off, 1 ramping, 2 on, 3 locked out; retries used; alert; latched off since a short. -/
structure Conv where
  st : Nat := 0
  retries : Nat := 0
  alert : Bool := false
  latched : Bool := false
  deriving DecidableEq, Repr

/-- What the governor keeps besides the objects of R447 (R426-R437). `tick` counts 10 us samples and `aboveAt` names those above the
cap in the last 2 s; `causes` is `FLOOR_CAUSE`; `floorCode` the code of the Floor in force; `stuck` samples with every class at its
lowest level and input above the limit; `hot` samples in a row at 95 degrees or more, by Frame; `inp` the last sample; `inpSum`, `inpN`, `baseSum` input and
baseline since the last millisecond; `slopeUs` microseconds under slope limit since the last sample; `enFrac` energy in fJ not yet
counted, by context, 16 for others and 17 for input; `wearMs` milliseconds above nominal, by Frame. -/
structure Power where
  tick : Nat := 0
  aboveAt : List Nat := []
  peakOff : Bool := false
  causes : Nat := 0
  floorCode : W16 := 0
  tripCauses : List W16 := []
  stuck : Nat := 0
  hot : Tbl Nat := []
  inp : Nat := 0
  memThr : Bool := false
  compDuty : Nat := 16
  linkWant : Nat := 96
  limit : Nat := 0
  pcool : Nat := 34000
  alertLow : Bool := false
  alertPin : Bool := false
  slopeUs : Nat := 0
  inpSum : Nat := 0
  inpN : Nat := 0
  baseSum : Nat := 0
  enFrac : Tbl Nat := []
  wearMs : Tbl Nat := []
  deriving DecidableEq, Repr

/-- The reference oscillators and the switch between them (R443-R445). `inUse`: B; `stA`, `stB`: 0 unqualified, 1 qualified,
2 failed; `goodWins` windows in a row within limits, `wins` windows since power-on; `switching`: 0 none, 1 decided, 2 ramping down,
3 stopped. -/
structure Refs where
  inUse : Bool := false
  stA : Nat := 0
  stB : Nat := 0
  goodWins : Nat := 0
  wins : Nat := 0
  arb : Bool := false
  switching : Nat := 0
  stopped : Bool := false
  rclkNow : Nat := 0
  deriving DecidableEq, Repr

/-- Start-up, firmware and roll call (R449-R464, R470). `fw`: the Keeper's firmware runs; `imgA`, `imgB`: the banks of the boot
flash (none: as manufactured); `bank`, `nextBank`: B; `fusedRaise`: what `FW_COMMIT` raised the minimum to; `answered`, `retried`:
slots by Frame and slot; `dead`: slots whose firmware failed twice; `parent` the port of the parent, `kids` the ports of children
that took the token and have not reported, `asked` ports whose answer is not known, `remain` ms left; `slewAt`: TS of the last correction of
TS, `tsHold`: the next count is held (R499); `faultMap`: the ratings of the last
start, as flash keeps them (R453). -/
structure Boot where
  powerGood : Bool := false
  fw : Bool := false
  imgA : Option (List Byte) := none
  imgB : Option (List Byte) := none
  bank : Bool := false
  nextBank : Bool := false
  fusedRaise : Byte := 0
  framesUp : Nat := 0
  ratings : List SlotRating := []
  badRegions : List (Nat × Nat) := []
  swarm : List Byte := []
  answered : List (Nat × Nat) := []
  retried : List (Nat × Nat) := []
  dead : List (Nat × Nat) := []
  held : Option (Nat × Nat) := none
  parent : Option Nat := none
  isRoot : Bool := false
  running : Bool := false
  remain : Nat := 0
  kids : List Nat := []
  asked : List Nat := []
  counted : Nat := 0
  reported : Bool := false
  rolled : Bool := false
  slewAt : Option W64 := none
  tsHold : Bool := false
  faultMap : List SlotRating := []
  deriving DecidableEq, Repr

/-- An open SDO transfer (R480, R481): the bus; `kind` 0 segmented download, 1 segmented upload, 2 block download, 3 block upload; the
object; the bytes so far, or those to send; bytes sent and acknowledged; the toggle expected next; the size announced; CRC in use;
segments per block and those of this block taken; the last segment taken; `phase` of a block transfer: 0 to be started, 1 moving,
2 its end awaited. -/
structure Sdo where
  bus : Nat
  kind : Nat
  idx : Nat
  sub : Nat
  data : List Byte := []
  pos : Nat := 0
  toggle : Bool := false
  size : Option Nat := none
  crc : Bool := false
  blkSize : Nat := 0
  seq : Nat := 0
  last : Bool := false
  phase : Nat := 0
  deriving DecidableEq, Repr

/-- The Management Port (R479-R485): NMT state (CiA 301: 0 initialising, 4 stopped, 5 operational, 127 pre-operational), the
node-ID, enables and rates in force, the open SDO transfer and the bus of a held peek, LSS state and values matched, the EMCY queue,
buses that are off. -/
structure Mgmt where
  nmt : Nat := 0
  node : Nat := 127
  lss : Nat := 0
  lssMatch : Nat := 0
  sdo : Option Sdo := none
  peekBus : Option Nat := none
  emcy : List (W16 × Nat × Nat × Nat) := []
  offA : Bool := false
  offB : Bool := false
  busEn : Nat := 3
  nomRate : Nat := 1
  dataRate : Nat := 1
  deriving DecidableEq, Repr

/-- A multi-function pin (R527-R532): function now, function waited for, parked, level driven. -/
structure Pin where
  func : Nat := 0
  next : Option Nat := none
  parked : Bool := false
  level : Bool := false
  hiZ : Bool := true
  deriving DecidableEq, Repr

/-- The debug state of one path or context (R510, R511). -/
structure Dbg where
  last : W64 := 0
  refused : Bool := false
  status : W32 := 0
  sub : Nat := 0
  wait : Bool := false
  halts : List (Nat × Nat × Nat) := []
  deriving DecidableEq, Repr

/-- What the module puts out: answers to dictionary accesses, writes to host memory, interrupts, requests for host
memory, Tyduem frames, CAN frames, SPDM and DOE responses, levels on pins, UART text, Keeper messages. -/
inductive OutMsg where
  | answer (p : Path) (idx sub : Nat) (code : W16) (val : W64)
  | answerBytes (p : Path) (idx sub : Nat) (code : W16) (val : List Byte)
  | hostWrite (port : Nat) (addr : W64) (bytes : List Byte)
  | hostRead (port : Nat) (addr : W64) (len : Nat)
  | irq (port vec : Nat)
  | frame (p : Nat) (bytes : List Byte)
  | can (bus cob : Nat) (bytes : List Byte)
  | spdm (t : Nat) (bytes : List Byte)
  | pin (n : Nat) (level : Bool)
  | keeper (p : Nat) (kind : Nat) (bytes : List Byte)
  | uart (code : W16)
  deriving DecidableEq, Repr

/-- The state of one module. -/
structure State where
  /-- commands waiting, first in, first out -/
  pending : List Instr := []
  /-- TS, the SCLK timestamp (R498) -/
  ts : W64 := 0
  /-- the model's own: the number of the next free value (log entry 2) -/
  fresh : Nat := 0
  /-- the model's own: the next request identifier and the next sequence number of a wait -/
  nextId : Nat := 1
  /-- scalar dictionary objects, by instance, index and subindex (R472-R497); unlisted: the table's default -/
  objs : Tbl (Option W64) := []
  /-- DOMAIN objects, by instance, index and subindex -/
  doms : Tbl (List Byte) := []
  /-- persistent objects as the boot flash holds them (R477) -/
  flash : Tbl (Option W64) := []
  /-- persistent DOMAIN objects as the boot flash holds them (R477) -/
  flashDoms : Tbl (List Byte) := []
  combs : Tbl Comb := []
  frames : Tbl Frame := []
  ctxs : Tbl Ctx := []
  rings : Tbl Ring := []
  /-- packets in flight inside the module -/
  net : List Flight := []
  tx : List TxStream := []
  rx : List RxStream := []
  /-- the next incarnation of a stream, by stream (R324) -/
  incs : Tbl Nat := []
  /-- flow-control mode in force on the wafer links, bit 0 Request, bit 1 Reply (R318, R319) -/
  fcMode : Tbl Bool := []
  ports : Tbl TyPort := []
  hl : Tbl HlPort := []
  events : List Event := []
  /-- freeze table of the operator's host functions (R377) -/
  opFrz : Tbl Frz := []
  opFrzOver : W32 := 0
  opFrzMore : List Master := []
  spdm : Tbl Spdm := []
  dbgChal : Option (List Byte) := none
  grant : Option Grant := none
  dbgEnding : Bool := false
  dbg : Tbl Dbg := []
  intake : List Report := []
  elog : List ELog := []
  cper : List Cper := []
  cperNext : Nat := 0
  bundle : Option (Nat × Nat × Nat × Nat) := none
  maint : List Maint := []
  ticket : Nat := 0
  convs : Tbl Conv := []
  power : Power := {}
  refs : Refs := {}
  boot : Boot := {}
  mgmt : Mgmt := {}
  pins : Tbl Pin := []
  pulse : Bool := false
  /-- characters the UART console took under a vendor grant (R530) -/
  uartIn : List Byte := []
  /-- the TAP's instruction is `DBG_ACCESS`; else `IDCODE` (R510) -/
  tapDbg : Bool := false
  /-- BAR4 of both host-link ports: MSI-X table from 0x0, pending bits from 0x8000 (R344); no command of the table reaches it (log entry 102) -/
  bar4 : List Host.Cell := []
  /-- what the module has put out, newest first -/
  outs : List OutMsg := []
  deriving DecidableEq, Repr

/-- The state right after reset: every field at its default. -/
def State.reset : State := {}

/-- Why the machine stops with a fault. -/
inductive Fault where
  /-- raised by a command whose operand names a unit the part does not have (a Comb above 479, a Worker Cell in a Store
  Cell column, a port above 5, a context above 15): safe, the spec gives no such unit (R4, R15, R28) -/
  | noSuchUnit
  deriving DecidableEq, Repr

/-- Why a command has no meaning. -/
inductive Refusal where
  /-- raised by exec's arm of a command that has no meaning yet; safe -/
  | notModelled (mnemonic : String)
  deriving DecidableEq, Repr

/-- The outcome of a command. -/
abbrev Res := Host.Outcome State Fault Refusal

end Sys2Proof.Machine
end

