-- ==== Sys2Proof/WellFormed.lean ====
section
/-! DEFINITION. Which commands name units the part has: a command is well formed when every operand does
(R4, R11-R15, R28, R161, R221, R283, R329, R342, R344, R420, R527). -/

namespace Sys2Proof

/-- A logical Comb (R4). -/
def isComb (c : Nat) : Bool := decide (c < 480)
/-- A cell of a Comb, and its kind (R15). -/
def isCell (c k : Nat) : Bool := decide (c < 480 ∧ k < 640)
def isStoreCol (k : Nat) : Bool := k % 4 = 3
def isStoreCell (c k : Nat) : Bool := isCell c k && isStoreCol k
def isWorkerCell (c k : Nat) : Bool := isCell c k && !isStoreCol k
/-- A Store Cell with an edge port (R156). -/
def isEdgeCol (k : Nat) : Bool := k % 32 = 7 || k % 32 = 23
def isEdgePort (c k : Nat) : Bool := isCell c k && isEdgeCol k
/-- A slot of a Worker Cell (R161). -/
def isSlot (u : SlotRef) : Bool := isWorkerCell u.comb u.cell && decide (u.slot < 4)
/-- A context number (R344). -/
def isCtx (n : Nat) : Bool := decide (n < 16)
/-- A Tyduem port (R12), a host-link port (R342), a host function (R344), a Frame (R11), a converter stage (R422), a
multi-function pin (R527). -/
def isTyPort (p : Nat) : Bool := decide (p < 6)
def isHl (p : Nat) : Bool := decide (p < 2)
def isHostFn (f : Nat) : Bool := decide (f < 1088)
def isFrame (f : Nat) : Bool := decide (f < 48)
def isConv (k : Nat) : Bool := decide (k < 113)
def isPin (n : Nat) : Bool := decide (n < 8)
/-- A path of the dictionary (R472). -/
def isPath : Path → Bool
  | .mgmt => true
  | .hl p => isHl p
  | .tenant n => isCtx n
  | .jtag => true
/-- A master (R240). -/
def isMaster : Master → Bool
  | .worker c k sl => isSlot ⟨c, k, sl⟩
  | .forager c f => isComb c && decide (f < 4)
  | .host f => isHostFn f
  | .keeper => true
  | .service c => isComb c
  | .engine c s => isComb c && decide (s < 4)

/-- Every operand of the command names a unit of the part. -/
def Instr.wf : Instr → Bool
  | .cqTailDoorbell c s _ => isComb c && decide (s < 4)
  | .slotCtlSkip c s => isComb c && decide (s < 4)
  | .slotCtlRetry c s => isComb c && decide (s < 4)
  | .gqClose c _ _ => isComb c
  | .pairCtlWrite c _ => isComb c
  | .registerWrite c _ _ => isComb c
  | .gqOccPublish c => isComb c
  | .clauseStart c s => isComb c && decide (s < 4)
  | .tileStart c => isComb c
  | .shadowLoadDone c => isComb c
  | .weightSwap c => isComb c
  | .activationRead c => isComb c
  | .kmnSegmentStart c => isComb c
  | .bankDrainStart c => isComb c
  | .outputSegmentEmit c => isComb c
  | .pairCheckArrival c _ => isComb c
  | .clauseComplete c => isComb c
  | .gatherFullResolve c => isComb c
  | .engineWatchdogExpire c => isComb c
  | .engineFallbackEntry c => isComb c
  | .slotFreeze m _ _ => isMaster m
  | .cNop u => isSlot u
  | .cAdd u => isSlot u
  | .cSub u => isSlot u
  | .cAnd u => isSlot u
  | .cOr u => isSlot u
  | .cXor u => isSlot u
  | .cShl u => isSlot u
  | .cShr u => isSlot u
  | .cSra u => isSlot u
  | .cSlt u => isSlot u
  | .cSltu u => isSlot u
  | .cMul u => isSlot u
  | .cMulhu u => isSlot u
  | .cAddi u => isSlot u
  | .cAndi u => isSlot u
  | .cOri u => isSlot u
  | .cXori u => isSlot u
  | .cShi u => isSlot u
  | .cLui u => isSlot u
  | .cBeq u => isSlot u
  | .cBne u => isSlot u
  | .cBlt u => isSlot u
  | .cBge u => isSlot u
  | .cBltu u => isSlot u
  | .cBgeu u => isSlot u
  | .cJal u => isSlot u
  | .cJr u => isSlot u
  | .cLd u => isSlot u
  | .cSt u => isSlot u
  | .cVld u => isSlot u
  | .cVst u => isSlot u
  | .cGld u => isSlot u
  | .cGst u => isSlot u
  | .cFenceRelease u => isSlot u
  | .cFenceAcquire u => isSlot u
  | .cFenceReleaseAcquire u => isSlot u
  | .cVadd u => isSlot u
  | .cVsub u => isSlot u
  | .cVmul u => isSlot u
  | .cVfma u => isSlot u
  | .cVmax u => isSlot u
  | .cVmin u => isSlot u
  | .cVexp u => isSlot u
  | .cVrcp u => isSlot u
  | .cVrsq u => isSlot u
  | .cVcvtFp32ToBf16 u => isSlot u
  | .cVcvtBf16ToFp32 u => isSlot u
  | .cViadd u => isSlot u
  | .cVisub u => isSlot u
  | .cVimul u => isSlot u
  | .cVand u => isSlot u
  | .cVor u => isSlot u
  | .cVxor u => isSlot u
  | .cVshl u => isSlot u
  | .cVshr u => isSlot u
  | .cVsra u => isSlot u
  | .cVilt u => isSlot u
  | .cVredFp32Sum u => isSlot u
  | .cVredFp32Max u => isSlot u
  | .cVredInt32Sum u => isSlot u
  | .cVredInt32Max u => isSlot u
  | .cVbc u => isSlot u
  | .cVget u => isSlot u
  | .cVset u => isSlot u
  | .cVmov u => isSlot u
  | .cQnt u => isSlot u
  | .cQsl u => isSlot u
  | .cDqt u => isSlot u
  | .cSpx u => isSlot u
  | .cMfs u => isSlot u
  | .cMts u => isSlot u
  | .cVpop u => isSlot u
  | .cWsnd u => isSlot u
  | .cCadd u => isSlot u
  | .cCaddRemote u => isSlot u
  | .cCwait u => isSlot u
  | .cCtest u => isSlot u
  | .cCrd u => isSlot u
  | .cSrr u => isSlot u
  | .cSrw u => isSlot u
  | .cSpawn u => isSlot u
  | .cLock u => isSlot u
  | .cUnlock u => isSlot u
  | .cEnd u => isSlot u
  | .slotWake u => isSlot u
  | .linkWordArrival c cell d => isCell c cell && decide (d < 4)
  | .linkCreditReturn c cell d => isCell c cell && decide (d < 4)
  | .passThroughForward c cell d => isCell c cell && decide (d < 4)
  | .errorCompletion m _ _ => isMaster m
  | .storeCellRegWriteArrival c cell => isStoreCell c cell
  | .genDescStart c cell g => isStoreCell c cell && decide (g < 2)
  | .genElementMove c cell g => isStoreCell c cell && decide (g < 2)
  | .ctwSignal c cell s => isStoreCell c cell && decide (s < 4)
  | .ctwRelease c cell s => isStoreCell c cell && decide (s < 4)
  | .edgeSlotWrite c cell => isEdgePort c cell
  | .slSegmentArrival c d => isComb c && decide (d < 4)
  | .fallbackIssue c cell => isWorkerCell c cell
  | .reduceOnArrivalAdd c => isComb c
  | .opFill c => isComb c
  | .opCopy c => isComb c
  | .opUnitDone c => isComb c
  | .eccWriteback c word => isComb c && decide (word < 0x600000)
  | .switchBufferDrain c => isComb c
  | .ownerChangeFill c => isComb c
  | .cmDwWrite p n _ => isPath p && decide (n < 8)
  | .mwFrame c ch _ => isComb c && decide (ch < 16)
  | .mwResWrite p n _ => isPath p && decide (n < 16)
  | .mwUnitsIncrease n => isCtx n
  | .mwGranuleFillDone n => isCtx n
  | .mwRowSpare c ch bank row => isComb c && decide (ch < 16 ∧ bank < 32 ∧ row < 5120)
  | .partitionReset c line _ => isComb c && decide (line < 0x5000000)
  | .partitionResetDone n => isCtx n
  | .mwLaneRetrain c ch lane _ => isComb c && decide (ch < 16 ∧ lane < 146)
  | .readBufferExpire u way => isSlot u && decide (way < 2)
  | .hcCommit n => isCtx n
  | .commitComplete n => isCtx n
  | .commitFail n _ => isCtx n
  | .epochRewind p n _ => isPath p && isCtx n
  | .msgDeliver c k => isComb c && decide (k < 4)
  | .spillDeliver c => isComb c
  | .counterAdd c => isComb c
  | .watchRegister c => isComb c
  | .watchWake c _ => isComb c
  | .wakeResend c _ => isComb c
  | .wakeAck c _ => isComb c
  | .fgRingWrite p f _ => isPath p && decide (f < 4)
  | .fgTake c f => isComb c && decide (f < 4)
  | .fgStart c f k => isComb c && decide (f < 4 ∧ k < 64)
  | .fgPacketIssue c f => isComb c && decide (f < 4)
  | .dispatchOccReadReturn c f _ _ => isComb c && decide (f < 4)
  | .fgComplete c f k => isComb c && decide (f < 4 ∧ k < 64)
  | .digestCheck c => isComb c
  | .slRxWrite p d _ => isPath p && decide (d < 4)
  | .pktParse _ => true
  | .pktHop _ _ => true
  | .pktAccept _ => true
  | .ackReceive _ => true
  | .nackReceive _ => true
  | .busyReceive _ => true
  | .dataReceive _ => true
  | .retxTimeout _ => true
  | .rxEntryExpire _ => true
  | .fcModeChange l => decide (l < 8)
  | .tyFrameReceive p _ => isTyPort p
  | .tyRekey p => isTyPort p
  | .tyOldKeyExpire p => isTyPort p
  | .pauseExpire p ch => isTyPort p && decide (ch < 18)
  | .pauseRepeat p ch => isTyPort p && decide (ch < 18)
  | .laneRetrainStart p lane => isTyPort p && decide (lane < 96)
  | .laneTrainDone p lane _ => isTyPort p && decide (lane < 96)
  | .laneRequestRetry p => isTyPort p
  | .tyCtlWrite p q _ => isPath p && isTyPort q
  | .sqTailDoorbell f _ => decide (f < 2048)
  | .cqHeadDoorbell f _ => decide (f < 2048)
  | .ringConfigWrite f w _ => decide (f < 2048 ∧ w < 4)
  | .hcTake f e _ => isHostFn f && decide (e.length = 8)
  | .hcSliceTime n => isCtx n
  | .completionPost f => isHostFn f
  | .eventPost => true
  | .ctxFillDone n => isCtx n
  | .quantumExpire n => isCtx n
  | .contextSwitchStart n m => isCtx n && isCtx m
  | .switchRestoreDone m => isCtx m
  | .hlPortDown p => isHl p
  | .perstAssert p => isHl p
  | .perstRelease p => isHl p
  | .linkKeyTimeout p => isTyPort p
  | .linkKeyRetry p => isTyPort p
  | .ideKeyProg p ks sub _ => isHl p && decide (ks < 2 ∧ sub < 3)
  | .spdmRequest t _ => decide (t < 3)
  | .spdmCosign t => decide (t < 3)
  | .ctxNonceWrite n _ => isCtx n
  | .freezeRequest _ m _ => isMaster m
  | .tenantKeyWrite n _ => isCtx n
  | .challengeRead n => isCtx n
  | .challengeLapse n => decide (n < 17)
  | .tokenOpenEntry n _ => isCtx n
  | .tokenReleaseEntry n _ => isCtx n
  | .tokenReleaseAll n _ => isCtx n
  | .tokenTenantDebugStart n _ => isCtx n
  | .tokenTenantDebugEnd n _ => isCtx n
  | .frzDataRead n => isCtx n
  | .opFrzRelease p _ => isPath p
  | .dbgChallengeRead p => isPath p
  | .dbgGrant p _ => isPath p
  | .dbgGrantFillDone => true
  | .dbgEnd p _ => isPath p
  | .dbgGrantExpire => true
  | .pbImageWrite p _ => isPath p
  | .pbRun p _ => isPath p
  | .pbRunDone ds => ds.all (fun d => isComb d.comb)
  | .errorReport r => decide (r.comb < 480)
  | .elogIntake => true
  | .elogClear p _ => isPath p
  | .cperNextRead p => isPath p
  | .combHeartbeat c _ => isComb c
  | .heartbeatMiss c => isComb c
  | .combFail c => isComb c
  | .combSpareJoinDone c => isComb c
  | .inputUndervoltage _ _ => true
  | .inputOvervoltage _ _ => true
  | .inputRecover _ _ => true
  | .converterShort k => isConv k
  | .converterRetry k => isConv k
  | .converterRetryReset k => isConv k
  | .lockoutClear => true
  | .trip _ => true
  | .pwrRestart p _ => isPath p
  | .governorTick _ _ _ _ _ => true
  | .pwrCapWrite p _ => isPath p
  | .pwrAlertPin _ => true
  | .ibcAlert k _ => decide (k < 8)
  | .floorExit => true
  | .slopeGrantTick reqs => reqs.all (fun r => isComb r.1)
  | .thermalTick tj => decide (tj.length = 48)
  | .throttleStep f => isFrame f
  | .coolantTick _ _ _ _ => true
  | .avsTick f _ => isFrame f
  | .energyTick _ => true
  | .oscQualifyWindow _ => true
  | .oscArbitrationDone _ _ => true
  | .refEdgeLoss => true
  | .refSwitchStart => true
  | .refSwitchStop => true
  | .refSwitchRestart => true
  | .refSelWrite p _ => isPath p
  | .sscOutWrite p _ => isPath p
  | .powerGood => true
  | .firmwareBoot => true
  | .bistDone rs => rs.all (fun r => isFrame r.frame && decide (r.slot < 11))
  | .mwCalibrateDone bad => bad.all (fun r => isFrame r.1 && decide (r.2 < 11))
  | .swarmBroadcast _ => true
  | .swarmAnswer f slot _ => isFrame f && decide (slot < 11)
  | .moduleReady => true
  | .resetNAssert _ => true
  | .fwImageWrite p _ => isPath p
  | .fwCommit p _ => isPath p
  | .portLightReceived p _ => isTyPort p
  | .portUnconnected p => isTyPort p
  | .portTrainRetry p => isTyPort p
  | .rollPlanWrite p _ => isPath p
  | .neighbourCheck p _ => isTyPort p
  | .rollToken p _ => isTyPort p
  | .rollReport p _ => isTyPort p
  | .rollDeadline => true
  | .rollCount _ _ => true
  | .rollStart p _ => isPath p
  | .tsSyncTick _ => true
  | .maintReq p _ => isPath p
  | .maintActivityEnd _ _ => true
  | .spareRemap c _ => isComb c
  | .spareRegionCopyDone f => isFrame f
  | .sdoRequest bus _ => decide (bus < 2)
  | .sdoTimeout => true
  | .nmtCommand _ _ => true
  | .lssCommand _ => true
  | .tpdoTimerExpire k => decide (k < 4)
  | .heartbeatProduce => true
  | .emcySend => true
  | .objectWrite p _ _ _ => isPath p
  | .persistStore _ _ => true
  | .ctxSelWrite p _ => isPath p
  | .dwSelWrite h _ => isHl h
  | .dwGoTransfer h _ _ _ => isHl h
  | .dwGoCommit h => isHl h
  | .snapListWrite p _ => isPath p
  | .snapTake p _ => isPath p
  | .pcLatch p _ => isPath p
  | .pcSelWrite p _ => isPath p
  | .pcValueWrite p _ => isPath p
  | .pcStickyClear p _ => isPath p
  | .trCfgWrite n _ _ => isCtx n
  | .traceRecordWrite c => isComb c
  | .unitGate c _ _ => isComb c
  | .unitWake c _ _ => isComb c
  | .dbgMemRead p => isPath p
  | .dbgMemWrite p _ => isPath p
  | .dbgRegRead p => isPath p
  | .dbgRegWrite p _ => isPath p
  | .peekTimeout p => isPath p
  | .dbgHalt p _ => isPath p
  | .dbgResume p _ => isPath p
  | .dbgStep p _ => isPath p
  | .jtagUpdateDr _ => true
  | .jtagTrst => true
  | .mfpCfgWrite p n _ => isPath p && isPin n
  | .mfpHandover n => isPin n
  | .stepSyncInEdge n _ => isPin n
  | .stepSyncPulseEnd => true
  | .uartReceive _ => true
  | .wakeReceive _ => true
  | .ackIntervalExpire _ => true
  | .hlLinkTrained p rate lanes _ => isHl p && decide (rate < 6) && [1, 2, 4, 8, 16].contains lanes
  | .hlDmaCompletion f _ _ => isHostFn f
  | .vkeepOff => true
  | .frameRaise => true
  | .converterRampEnd k _ => isConv k
  | .ctxDestroyDone n => isCtx n
  | .dbgEndingDone _ => true
  | .canBusOff b => decide (b < 2)
  | .canBusRecover b => decide (b < 2)

end Sys2Proof
end

