-- ==== Sys2Proof/Machine/Ops.lean ====
section
/-! DEFINITION. Named operations over tables, bytes, memories and the parts of the state, which every meaning uses. -/

namespace Sys2Proof.Machine

open Sys2Proof

variable {α : Type}

/-! Tables -/

/-- The entry of key `k`, or `d`. -/
def tget (d : α) : Tbl α → Nat → α
  | [], _ => d
  | (k', v) :: t, k => if k' = k then v else tget d t k

/-- Insert before the first larger key. -/
def tins (k : Nat) (v : α) : Tbl α → Tbl α
  | [] => [(k, v)]
  | (k', v') :: t => if k < k' then (k, v) :: (k', v') :: t else (k', v') :: tins k v t

/-- Take every entry of key `k` out. -/
def tdel (t : Tbl α) (k : Nat) : Tbl α := t.filter (fun e => e.1 != k)

/-- Set the entry of key `k` of a table of structures. -/
def tput (t : Tbl α) (k : Nat) (v : α) : Tbl α := tins k v (tdel t k)

/-- Set the entry of key `k`; an entry equal to `d`, what an unlisted key reads as, is taken out. -/
def tset [DecidableEq α] (d : α) (t : Tbl α) (k : Nat) (v : α) : Tbl α :=
  if v = d then tdel t k else tput t k v

/-- The canonical form: keys strictly rising, no entry equal to `d`. -/
def twf [DecidableEq α] (d : α) : Tbl α → Bool
  | [] => true
  | [(_, v)] => v != d
  | (k, v) :: (k', v') :: t => decide (k < k') && v != d && twf d ((k', v') :: t)

/-- Replace entry `i` of a list. -/
def lset : List α → Nat → α → List α
  | [], _, _ => []
  | _ :: t, 0, v => v :: t
  | h :: t, i + 1, v => h :: lset t i v

/-- Take entry `i` out of a list. -/
def ldel : List α → Nat → List α
  | [], _ => []
  | _ :: t, 0 => t
  | h :: t, i + 1 => h :: ldel t i

/-- The index of the first entry that satisfies `p`. -/
def lfind (p : α → Bool) : List α → Option Nat
  | [] => none
  | h :: t => if p h then some 0 else (lfind p t).map (· + 1)

/-- Entry `i` of a list, or `d`. -/
def lget (d : α) (l : List α) (i : Nat) : α := (l[i]?).getD d

/-- Pad or cut a list to `n` entries. -/
def lfit (d : α) (n : Nat) (l : List α) : List α := (l ++ List.replicate (n - l.length) d).take n

/-- Cut a list into pieces of `n`, at most `fuel` of them. -/
def chunks (n : Nat) : Nat → List α → List (List α)
  | 0, _ => []
  | f + 1, l => if l.isEmpty then [] else l.take n :: chunks n f (l.drop n)

/-! Numbers and bytes -/

/-- Field [lo + w - 1 : lo] of a number. -/
def fld (v lo w : Nat) : Nat := v / 2 ^ lo % 2 ^ w

/-- Bit `i` of a number. -/
def bit (v i : Nat) : Bool := v / 2 ^ i % 2 = 1

/-- A flag as a number. -/
def b2n (b : Bool) : Nat := if b then 1 else 0

/-- Two's complement: the signed value of the low `w` bits. -/
def sgn (w v : Nat) : Int :=
  let u := v % 2 ^ w
  if u < 2 ^ (w - 1) then (u : Int) else (u : Int) - (2 ^ w : Nat)

/-- The `n` bytes of a number, least significant first (all words of the part are little-endian, R89, R148, R172). -/
def leBytes : Nat → Nat → List Byte
  | 0, _ => []
  | n + 1, v => BitVec.ofNat 8 v :: leBytes n (v / 256)

/-- The number whose bytes these are, least significant first. -/
def leNat : List Byte → Nat
  | [] => 0
  | b :: t => b.toNat + 256 * leNat t

/-- 32-bit words of a byte string. -/
def words32 (l : List Byte) : List W32 := (chunks 4 l.length l).map (fun b => BitVec.ofNat 32 (leNat b))

/-- 64-bit words of a byte string. -/
def words64 (l : List Byte) : List W64 := (chunks 8 l.length l).map (fun b => BitVec.ofNat 64 (leNat b))

/-- Bytes of 32-bit words. -/
def bytes32 (l : List W32) : List Byte := l.flatMap (fun w => leBytes 4 w.toNat)

/-- Bytes of 64-bit words. -/
def bytes64 (l : List W64) : List Byte := l.flatMap (fun w => leBytes 8 w.toNat)

/-- A descriptor's words as one number: bit b lies in word b / 32 (R89, R148, R196, R286, R320). -/
def wnum (l : List W32) : Nat := leNat (bytes32 l)

/-- One byte into a CRC-32C register, reflected polynomial 0x82F63B78. -/
def crcStep : Nat → W32 → W32
  | 0, c => c
  | n + 1, c => crcStep n (if c.getLsbD 0 then (c >>> 1) ^^^ 0x82F63B78#32 else c >>> 1)

/-- CRC-32C register after a byte string. -/
def crcFrom (c : W32) : List Byte → W32
  | [] => c
  | b :: t => crcFrom (crcStep 8 (c ^^^ b.setWidth 32)) t

/-- CRC-32C (R320, R390). -/
def crc32c (l : List Byte) : W32 := ~~~ (crcFrom (0xFFFFFFFF#32) l)

/-! Byte memories -/

/-- The byte at `a`; an unlisted byte reads 0 (log entry 9). -/
def PMem.byte (m : PMem) (a : Nat) : Byte := tget 0 m.bytes a

/-- `n` bytes of a cell list from `a`. -/
def cellsRead (m : List Host.Cell) (a n : Nat) : List Byte := (List.range n).map (fun i => tget 0 m (a + i))

/-- Write bytes from `a` into a cell list. -/
def cellsWrite (m : List Host.Cell) (a : Nat) : List Byte → List Host.Cell
  | [] => m
  | b :: t => cellsWrite (tset 0 m a b) (a + 1) t

/-- The canonical form of a memory. -/
def Memory.wf (m : List Host.Cell) : Bool := twf 0 m

/-- What a read of a byte range gives: the bytes, or the code and offset of the first line that faults. -/
inductive RdRes where
  | ok (bytes : List Byte)
  | bad (code : W16) (line : Nat)
  deriving DecidableEq, Repr

/-- Line numbers a range of `n` bytes from `a` touches. -/
def linesOf (a n : Nat) : List Nat :=
  if n = 0 then [] else (List.range ((a + n - 1) / 64 - a / 64 + 1)).map (· + a / 64)

/-- Block numbers (1 KiB) a range touches. -/
def blocksOf (a n : Nat) : List Nat :=
  if n = 0 then [] else (List.range ((a + n - 1) / 1024 - a / 1024 + 1)).map (· + a / 1024)

/-- The first poisoned line of a range and the code its readers get (R204, R208, R230). -/
def PMem.poisoned (m : PMem) (a n : Nat) : Option (W16 × Nat) :=
  (linesOf a n).findSome? (fun l => let c := tget 0 m.poison l; if c = 0 then none else some (c, l))

/-- Read `n` bytes from `a`: a poisoned line faults its reader. -/
def PMem.read (m : PMem) (a n : Nat) : RdRes :=
  match m.poisoned a n with
  | some (c, l) => .bad c l
  | none => .ok (cellsRead m.bytes a n)

/-- Put bytes down. Check values are held XOR the CRC of the bytes, so the linear update of R209 leaves them. The
epoch bit of each block touched is recorded (R392). -/
def PMem.put (m : PMem) (a : Nat) (bs : List Byte) (ep : Bool) : PMem :=
  { m with bytes := cellsWrite m.bytes a bs
           ep := (blocksOf a bs.length).foldl (fun t b => tset false t b ep) m.ep }

/-- Clear the poison of whole lines that are replaced, and compute afresh the check values of the blocks in which one
was (R209, R230). -/
def PMem.clearPoison (m : PMem) (ls : List Nat) : PMem :=
  ls.foldl (fun m l => if tget 0 m.poison l = 0 then m else
    { m with poison := tset 0 m.poison l 0, chk := tset 0 m.chk (l / 16) 0, mark := tset false m.mark (l / 16) false }) m

/-- The part of a write that falls in line `l`. -/
def linePart (a : Nat) (bs : List Byte) (l : Nat) : Nat × List Byte :=
  let lo := max a (64 * l)
  let hi := min (a + bs.length) (64 * l + 64)
  (lo, (bs.drop (lo - a)).take (hi - lo))

/-- Write line by line, ascending. A part of a line that is poisoned is not written, the lines after it are not
written, and the writer learns the code and line (R209, R230). -/
def PMem.writeLines (m : PMem) (a : Nat) (bs : List Byte) (ep : Bool) : List Nat → PMem × Option (W16 × Nat)
  | [] => (m, none)
  | l :: t =>
    let p := linePart a bs l
    let c := tget 0 m.poison l
    if c ≠ 0 ∧ p.2.length < 64 then (m, some (c, l))
    else ((m.put p.1 p.2 ep).clearPoison [l]).writeLines a bs ep t

/-- A narrow write of bytes at `a` (R209). -/
def PMem.write (m : PMem) (a : Nat) (bs : List Byte) (ep : Bool) : PMem × Option (W16 × Nat) :=
  m.writeLines a bs ep (linesOf a bs.length)

/-- The 1,024 bytes of block `b`. -/
def PMem.block (m : PMem) (b : Nat) : List Byte := cellsRead m.bytes (1024 * b) 1024

/-- A write of a whole block together with its check value (R209): the value is installed, the poison and the mark
cleared. -/
def PMem.writeBlock (m : PMem) (b : Nat) (bs : List Byte) (chk : W32) (ep : Bool) : PMem :=
  let m1 := (m.put (1024 * b) bs ep).clearPoison ((List.range 16).map (· + 16 * b))
  { m1 with chk := tset 0 m1.chk b (chk ^^^ crc32c bs), mark := tset false m1.mark b false }

/-- Whether the bytes of block `b` agree with its check value (R395). -/
def PMem.agrees (m : PMem) (b : Nat) : Bool := tget 0 m.chk b = 0

/-- The stored check value of block `b`. -/
def PMem.chkOf (m : PMem) (b : Nat) : W32 := tget 0 m.chk b ^^^ crc32c (m.block b)

/-! Parts of the state -/

def State.comb (s : State) (c : Nat) : Comb := tget {} s.combs c
def State.setComb (s : State) (c : Nat) (v : Comb) : State := { s with combs := tput s.combs c v }
def State.area (s : State) (c : Nat) : Area := (s.comb c).live
def State.setArea (s : State) (c : Nat) (v : Area) : State := s.setComb c { s.comb c with live := v }
def Area.worker (a : Area) (k : Nat) : Worker := tget {} a.workers k
def Area.setWorker (a : Area) (k : Nat) (w : Worker) : Area := { a with workers := tput a.workers k w }
def Area.store (a : Area) (k : Nat) : StoreCell := tget {} a.stores k
def Area.setStore (a : Area) (k : Nat) (w : StoreCell) : Area := { a with stores := tput a.stores k w }
def Area.forager (a : Area) (f : Nat) : Forager := tget {} a.fg f
def Area.setForager (a : Area) (f : Nat) (v : Forager) : Area := { a with fg := tput a.fg f v }
def State.worker (s : State) (c k : Nat) : Worker := (s.area c).worker k
def State.setWorker (s : State) (c k : Nat) (w : Worker) : State := s.setArea c ((s.area c).setWorker k w)
def State.store (s : State) (c k : Nat) : StoreCell := (s.area c).store k
def State.setStore (s : State) (c k : Nat) (w : StoreCell) : State := s.setArea c ((s.area c).setStore k w)
def State.eng (s : State) (c : Nat) : Engine := (s.area c).eng
def State.setEng (s : State) (c : Nat) (e : Engine) : State := s.setArea c { s.area c with eng := e }
def State.forager (s : State) (c f : Nat) : Forager := (s.area c).forager f
def State.setForager (s : State) (c f : Nat) (v : Forager) : State := s.setArea c ((s.area c).setForager f v)
def Worker.slot (w : Worker) (i : Nat) : WSlot := tget {} w.slots i
def Worker.setSlot (w : Worker) (i : Nat) (v : WSlot) : Worker := { w with slots := tput w.slots i v }
def State.slot (s : State) (u : SlotRef) : WSlot := (s.worker u.comb u.cell).slot u.slot
def State.setSlot (s : State) (u : SlotRef) (v : WSlot) : State :=
  s.setWorker u.comb u.cell ((s.worker u.comb u.cell).setSlot u.slot v)
def State.ctx (s : State) (n : Nat) : Ctx := tget {} s.ctxs n
def State.setCtx (s : State) (n : Nat) (v : Ctx) : State := { s with ctxs := tput s.ctxs n v }
def State.ring (s : State) (f : Nat) : Ring := tget {} s.rings f
def State.setRing (s : State) (f : Nat) (v : Ring) : State := { s with rings := tput s.rings f v }
def State.port (s : State) (p : Nat) : TyPort := tget {} s.ports p
def State.setPort (s : State) (p : Nat) (v : TyPort) : State := { s with ports := tput s.ports p v }
def State.hlp (s : State) (p : Nat) : HlPort := tget {} s.hl p
def State.setHlp (s : State) (p : Nat) (v : HlPort) : State := { s with hl := tput s.hl p v }
def State.frame (s : State) (f : Nat) : Frame := tget {} s.frames f
def State.setFrame (s : State) (f : Nat) (v : Frame) : State := { s with frames := tput s.frames f v }
def State.conv (s : State) (k : Nat) : Conv := tget {} s.convs k
def State.setConv (s : State) (k : Nat) (v : Conv) : State := { s with convs := tput s.convs k v }
def State.pinOf (s : State) (n : Nat) : Pin := tget {} s.pins n
def State.setPin (s : State) (n : Nat) (v : Pin) : State := { s with pins := tput s.pins n v }

/-- What the module puts out is appended in front. -/
def State.out (s : State) (o : OutMsg) : State := { s with outs := o :: s.outs }

/-- Draw the next free word (log entry 2). -/
def State.draw (s : State) : W32 × State := (Config.freeWord s.fresh, { s with fresh := s.fresh + 1 })

/-- Draw the next free choice of two (log entry 2). -/
def State.drawBool (s : State) : Bool × State := (Config.freeBool s.fresh, { s with fresh := s.fresh + 1 })

/-- Draw a free choice among `n` (log entry 2). -/
def State.drawChoice (s : State) (n : Nat) : Nat × State :=
  (Config.freeChoice s.fresh n % max n 1, { s with fresh := s.fresh + 1 })

/-- A fresh request identifier. -/
def State.newId (s : State) : Nat × State := (s.nextId, { s with nextId := s.nextId + 1 })

/-! Places -/

/-- Column and row of a logical Comb. -/
def cxOf (c : Nat) : Nat := c % 40
def cyOf (c : Nat) : Nat := c / 40
/-- The 10-bit Comb field cx6 cy4 of headers and entries (R320, R349). -/
def combField (c : Nat) : Nat := cxOf c * 16 + cyOf c
/-- The logical Comb of a 10-bit field, if it lies in the grid. -/
def combOfField (v : Nat) : Option Nat := if v / 16 % 64 < 40 ∧ v % 16 < 12 then some (v % 16 * 40 + v / 16 % 64) else none
/-- Frame and slot of a logical Comb with no remap (R11, R14). -/
def frameOf (c : Nat) : Nat := cyOf c / 2 * 8 + cxOf c / 5
def slotOf (c : Nat) : Nat := 5 * (cyOf c % 2) + cxOf c % 5
/-- The logical Comb of slot `s` of Frame `f` (R6, R14). -/
def combAt (f sl : Nat) : Nat := (2 * (f / 8) + sl / 5) * 40 + 5 * (f % 8) + sl % 5

/-- A cell of the array is a Store Cell (R15). -/
def isStore (k : Nat) : Bool := isStoreCol k
/-- A Store Cell with an edge port (R156). -/
def isEdge (k : Nat) : Bool := isEdgeCol k

/-- Run an effect where the operands name a unit of the part. -/
def onUnit (ok : Bool) (s : State) : Res := if ok then .next s else .fault .noSuchUnit

end Sys2Proof.Machine
end

