-- ==== Sys2Proof/Machine/Access.lean ====
section
/-! DEFINITION. What every master shares: who owns a Comb, translation and its checks (R29-R31, R226, R263), epochs
and completions (R257), reports and events (R350, R406), performing a read or write at its target (R209, R215-R218),
and the streams of packets (R240, R320-R326). -/

namespace Sys2Proof.Machine

open Sys2Proof

/-! Dictionary values by index and subindex (R472) -/

/-- Key of an object of instance `i` (0: the one instance; else a path or a context). -/
def okey (i idx sub : Nat) : Nat := i * 2 ^ 24 + idx * 256 + sub
/-- The value of an object, `d` where nothing was written. -/
def State.obj (s : State) (i idx sub d : Nat) : Nat :=
  match tget none s.objs (okey i idx sub) with
  | some v => v.toNat
  | none => d
def State.setObj (s : State) (i idx sub : Nat) (v : Nat) : State :=
  { s with objs := tput s.objs (okey i idx sub) (some (BitVec.ofNat 64 v)) }
/-- Add to a counter object of `w` bits that saturates. -/
def State.incObj (s : State) (idx sub w n : Nat) : State :=
  s.setObj 0 idx sub (min (s.obj 0 idx sub 0 + n) (2 ^ w - 1))
def State.dom (s : State) (i idx sub : Nat) : List Byte := tget [] s.doms (okey i idx sub)
def State.setDom (s : State) (i idx sub : Nat) (b : List Byte) : State := { s with doms := tput s.doms (okey i idx sub) b }

/-! Modules and owners -/

/-- The module's own x5 y5 z4: those of a valid `ROLL_PLAN` (R460), else 0. -/
def State.ownModule (s : State) : Nat := let v := s.obj 0 0x2C10 1 0; if bit v 31 then v % 2 ^ 14 else 0
/-- `TORUS_SIZE` (R340): sizes less 1. -/
def State.torus (s : State) : Nat := s.obj 0 0x2500 4 0
/-- Fields of a module number x5 y5 z4. -/
def modX (m : Nat) : Nat := fld m 9 5
def modY (m : Nat) : Nat := fld m 4 5
def modZ (m : Nat) : Nat := fld m 0 4
/-- The module lies in the torus recorded at roll call (R30). -/
def State.inTorus (s : State) (m : Nat) : Bool :=
  decide (modX m ≤ fld s.torus 0 5 ∧ modY m ≤ fld s.torus 5 5 ∧ modZ m ≤ fld s.torus 10 4)

/-- Comb `c` lies in the partition of a context (R29, R351). -/
def Ctx.covers (x : Ctx) (c : Nat) : Bool :=
  decide (x.x0 ≤ cxOf c ∧ cxOf c ≤ x.x0 + x.wM1 ∧ x.y0 ≤ cyOf c ∧ cyOf c ≤ x.y0 + x.hM1)
/-- Context `n` exists and owns Comb `c` (R268). -/
def State.owns (s : State) (n c : Nat) : Bool := decide (n < 16) && (s.ctx n).st != 0 && (s.ctx n).covers c
/-- The context resident on Comb `c`. -/
def State.residentAt (s : State) (c : Nat) : Option Nat :=
  (List.range 16).find? (fun n => s.owns n c && (s.ctx n).resident)
/-- The resident context of a Comb is ready or running, and not being switched: its generators, Engine and Foragers start work only then
(log entry 32). -/
def State.ctxRuns (s : State) (c : Nat) : Bool :=
  match s.residentAt c with
  | some n => decide ((s.ctx n).st = 2 ∨ (s.ctx n).st = 3) && (s.ctx n).moving = 0
  | none => false

/-- `PWR_STATE` (R424). -/
def State.pwrState (s : State) : Nat := s.obj 0 0x2100 8 0
/-- Activity stands at the Floor level: in Floor, or in the ramp-down of a reference switch (R429, R443). -/
def State.floorLevel (s : State) : Bool := s.pwrState = 3 || decide (2 ≤ s.refs.switching)
/-- The clock of a Comb's Engine is gated by Floor; Clauses in Fallback continue (R429, R430). -/
def State.engGated (s : State) (c : Nat) : Bool := s.floorLevel && !(s.eng c).fallback
/-- Nothing moves on the Fabric: its clock is stopped (R443), or its rails are off (R424). -/
def State.fabricOff (s : State) : Bool := s.refs.stopped || s.pwrState = 0 || s.pwrState = 4

/-- The compute of a Comb stands still: the Comb is lost (R24) or fenced (R414), or a reference switch has stopped the
compute clocks (R443). -/
def State.dead (s : State) (c : Nat) : Bool := (s.comb c).lost || (s.comb c).failing || s.refs.stopped
/-- Neighbour Comb in direction 0 +X, 1 -X, 2 +Y, 3 -Y (R18, R89). -/
def slNeighbour (c d : Nat) : Option Nat :=
  if d = 0 then (if cxOf c < 39 then some (c + 1) else none)
  else if d = 1 then (if 0 < cxOf c then some (c - 1) else none)
  else if d = 2 then (if cyOf c < 11 then some (c + 40) else none)
  else (if 0 < cyOf c then some (c - 40) else none)
/-- Scheduled Links to the Comb carry nothing: it has failed, or its spare still waits for its owner's next launch (R414). -/
def State.linkCut (s : State) (c : Nat) : Bool := (s.comb c).lost || (s.comb c).failing || (s.comb c).refusing
/-- Segments in flight to a failed Comb are lost (R414). -/
def State.loseSegments (s : State) (c : Nat) : State :=
  (List.range 4).foldl (fun s d =>
    match slNeighbour c d with
    | some c' => let a := s.area c'; s.setArea c' { a with slOut := tdel a.slOut (if d % 2 = 0 then d + 1 else d - 1) }
    | none => s) s
/-- Some context owns Comb `c`. -/
def State.ownedByAny (s : State) (c : Nat) : Bool := (List.range 16).any (fun n => s.owns n c)
/-- The Combs of a context's partition, in ascending order. -/
def Ctx.combs (x : Ctx) : List Nat := (List.range 480).filter (fun c => x.covers c)

/-- The `SRC_MASTER` field of a master (R320). An Engine slot, which sends no packet, shows as the service unit. -/
def masterField : Master → Nat
  | .worker _ k sl => k * 4 + sl
  | .forager _ f => 4096 + f
  | .host f => 8192 + f
  | .keeper => 8192 + 0xFFF
  | .service _ => 12288
  | .engine _ _ => 12288
/-- The Comb a master sits in; 480 for the Rim. -/
def masterComb : Master → Nat
  | .worker c _ _ => c
  | .forager c _ => c
  | .host _ => 480
  | .keeper => 480
  | .service c => c
  | .engine c _ => c
/-- The master of a `SRC_MASTER` field and a Comb (R320). -/
def masterOf (c f : Nat) : Master :=
  if f < 4096 then .worker c (f / 4) (f % 4) else if f < 8192 then .forager c (f % 4)
  else if f = 8192 + 0xFFF then .keeper else if f < 12288 then .host (f - 8192) else .service c
/-- The context a master acts for (R344, R371). -/
def State.masterCtx (s : State) : Master → Option Nat
  | .host f => if f < 1024 then some (f / 64) else none
  | .keeper => none
  | m => s.residentAt (masterComb m)

/-- The epoch a fault of context `n` names: the committed epoch plus 1 (R260). -/
def State.faultEpoch (s : State) (n : Option Nat) : W64 :=
  match n with
  | some n => (s.ctx n).epDone + 1
  | none => 0

/-! Reports and events -/

/-- A unit's report enters the Keeper's intake queue of 1,024, or is lost and counted (R406). -/
def State.report (s : State) (r : Report) : State :=
  if s.intake.length < 1024 then { s with intake := s.intake ++ [r] } else s.incObj 0x2900 3 32 1

/-- A Frame's spare Comb or spare region is free (R20, R454). -/
def State.spareFree (s : State) (f : Nat) : Bool := (s.frame f).combFor.isNone && !(s.frame f).spareBad
def State.regionFree (s : State) (f : Nat) : Bool := (s.frame f).regionFor.isNone && !(s.frame f).regionBad && (s.frame f).copyTo.isNone
/-- A CPER record of a happening (R410-R412): the store holds 256. -/
def State.cperAdd (s : State) (r : Report) (phase action sev : Nat) (boot : Bool) : State :=
  let id := s.cperNext
  let s1 := { s with cperNext := id + 1 }
  if 256 ≤ s.cper.length then s1.incObj 0x2920 4 32 1 else
  let sp := ((List.range 48).map (fun f => b2n (s.spareFree f) * 2 ^ f)).foldl (· + ·) 0
  { s1 with cper := s.cper ++ [⟨id, ⟨r, 1, s.ts, s.ts⟩, frameOf r.comb, phase, action, BitVec.ofNat 64 sp, sev, boot, s.ts⟩] }

/-- A report of a Comb's unit in the context resident there. -/
def State.combReport (s : State) (code : W16) (sev unit c sub : Nat) (addr : W64) : State :=
  let n := s.residentAt c
  s.report ⟨code, sev, n, unit, c, sub, s.faultEpoch n, addr, 0⟩

/-- An event for the event rings (R350). -/
def State.event (s : State) (n : Option Nat) (code : W16) (c m : Nat) (res : W64) : State :=
  { s with events := s.events ++ [⟨n, code, c, m, res, s.faultEpoch n⟩] }

/-- Epochs of a context that are not committed (R257). -/
def Ctx.uncommitted (x : Ctx) : List Nat := (List.range (x.epOpen.toNat - x.epDone.toNat)).map (fun i => x.epDone.toNat + 1 + i)
/-- Record a code as the first that fails the fences of some uncommitted epochs (R259). -/
def State.failEpochs (s : State) (n : Option Nat) (es : Nat → Bool) (code : W16) : State :=
  match n with
  | none => s
  | some n =>
    let x := s.ctx n
    s.setCtx n { x with failed := (x.uncommitted.filter es).foldl (fun t e => if tget 0 t e = 0 then tset 0 t e code else t) x.failed }
/-- A fault in a write or block whose epoch has the low bit `b` (R259, R398). -/
def State.failParity (s : State) (n : Option Nat) (b : Bool) (code : W16) : State := s.failEpochs n (fun e => bit e 0 == b) code

/-! Performance counters (R500): key of kind, unit index and counter -/

def perfKey (kind unit ix : Nat) : Nat := (kind * 8192 + unit) * 16 + ix
/-- Add to a counter, with its wrap and sticky bit (R500). -/
def perfBump (t : Tbl Perf) (k n : Nat) : Tbl Perf :=
  let p := tget {} t k
  tput t k ⟨p.val + BitVec.ofNat 64 n, p.sticky || decide (p.val.toNat + n ≥ 2 ^ 64)⟩
def Area.count (a : Area) (kind unit ix n : Nat) : Area := { a with perf := perfBump a.perf (perfKey kind unit ix) n }

/-- Queue a trace record of a unit of a Comb, where the resident context's configuration traces that kind and unit
(R505-R507). `unit` is the counter kind of the source; 6, a router or the Comb itself, is gated by the kind alone. -/
def State.trace (s : State) (c kind unit index arg : Nat) : State :=
  match s.residentAt c with
  | none => s
  | some n =>
    let cfg := s.obj (n + 1) 0x2B00 1 0
    if bit cfg 43 && bit cfg (48 + kind) && (decide (6 ≤ unit) || bit (s.obj (n + 1) 0x2B00 2 0) unit) then
      let a := s.area c
      s.setArea c (if a.trQ.length < 64 then { a with trQ := a.trQ ++ [⟨kind, unit, index, BitVec.ofNat 32 arg, s.ts⟩] }
                   else { a with trLost := a.trLost + 1, trLostAll := a.trLostAll + 1 })
    else s

/-! The area of a context on a Comb: live while it is resident, else its saved image -/

def State.areaOf (s : State) (n c : Nat) : Area :=
  if (s.ctx n).resident then s.area c else ((tget none (s.comb c).saved n).getD {})
def State.setAreaOf (s : State) (n c : Nat) (a : Area) : State :=
  if (s.ctx n).resident then s.setArea c a else s.setComb c { s.comb c with saved := tput (s.comb c).saved n (some a) }

/-! Translation -/

/-- What a translated access names: another module or this one, the context number there, Comb, space and offset. -/
structure Tgt where
  rem : Option Nat
  ctx : Nat
  c : Nat
  space : Nat
  off : Nat
  deriving DecidableEq, Repr

/-- A space's extent test for an access of `len` bytes (R28, R30 order 5). -/
def offOk (space off len : Nat) : Bool :=
  let last := off + len - 1
  if space = 0 then decide (last ≤ 0x2FFFFFF)
  else if space = 1 then
    let k := fld off 18 10
    let lim := if isStore k then 0x2FFFF else 0x3FFF
    decide (off < 2 ^ 28 ∧ k < 640 ∧ off % 2 ^ 18 + len - 1 ≤ lim)
  else if space = 2 then decide (last ≤ 0x13FFFFFFF)
  else if space = 3 then decide (off ≤ 0x7FF8 ∧ off % 8 = 0 ∧ last ≤ 0x7FFF)
  else decide (off < 2 ^ 14 ∧ off % 4 = 0 ∧ last < 2 ^ 14)

/-- Entry of a context's module table at virtual module coordinates x5 y5 z4 (R351). -/
def Ctx.modEntry (x : Ctx) (vm : Nat) : Nat := (lget 0 x.mods (modX vm + 32 * modY vm + 1024 * modZ vm)).toNat

/-- The module and context number an address reaches (R29, R30 order 2, R31). -/
def State.toModule (s : State) (n : Option Nat) (isLocal : Bool) (vm : Nat) : Except W16 (Option Nat × Nat) :=
  match n with
  | none =>
    if isLocal then .ok (none, 0) else if s.inTorus vm then .ok (if vm = s.ownModule then none else some vm, 0)
    else .error 0x3005#16
  | some n =>
    if isLocal then .ok (none, n) else
    let e := (s.ctx n).modEntry vm
    if bit e 31 then .ok (if e % 2 ^ 14 = s.ownModule then none else some (e % 2 ^ 14), fld e 14 4) else .error 0x3005#16

/-- The logical Comb an address reaches (R29, R30 order 3). -/
def State.toComb (s : State) (n : Option Nat) (vx vy : Nat) : Except W16 Nat :=
  match n with
  | none => if vx < 40 ∧ vy < 12 then .ok (vy * 40 + vx) else .error 0x3003#16
  | some n =>
    let x := s.ctx n
    if vx ≤ x.wM1 ∧ vy ≤ x.hM1 ∧ x.x0 + vx < 40 ∧ x.y0 + vy < 12 then .ok ((x.y0 + vy) * 40 + x.x0 + vx) else .error 0x3003#16

/-- `CAP_BASE` and `CAP_SIZE` of a context (R227). -/
def State.capBase (s : State) (n : Nat) : Nat := fld (s.obj 0 0x2610 (n + 1) 0) 8 7
def State.capSize (s : State) (n : Nat) : Nat :=
  let v := s.obj 0 0x2610 (n + 1) 0
  if bit v 31 then fld v 16 7 else 0

/-- The two granules of a context's save area on a Comb, held as one number (R353). -/
def saveGranules : Option Nat → List Nat
  | some v => [v / 128, v % 128]
  | none => []
/-- The save area of a context on a Comb holds an image: it is not resident, and something of it has been saved or applied there
(R218, R219, R353; log entry 42). -/
def State.imageAt (s : State) (k c : Nat) : Bool :=
  !(s.ctx k).resident && (match tget none (s.comb c).saved k with | some a => decide (a ≠ { eng := { pairCtl := a.eng.pairCtl } }) | none => false)
/-- A context holds granule `g` of Comb `c`: in its reservation, or in its save area while that holds an image (R226,
R353). -/
def State.holds (s : State) (n c g : Nat) : Bool :=
  s.owns n c && (decide (s.capBase n ≤ g ∧ g < s.capBase n + s.capSize n)
    || (s.imageAt n c && (saveGranules (tget none (s.ctx n).saveBase c)).contains g))
def State.heldGranule (s : State) (c g : Nat) : Bool := (List.range 16).any (fun n => s.holds n c g)

/-- Translation of a global address for an access of `len` bytes by a master of context `n` (none: the operator), with
the checks of R30 in their order and then R226. -/
def State.translate (s : State) (n : Option Nat) (addr : W64) (len : Nat) : Except W16 Tgt :=
  let a := addr.toNat
  let space := fld a 36 3
  if space ≥ 5 then .error 0x3001#16 else
  match s.toModule n (bit a 63) (fld a 49 14) with
  | .error e => .error e
  | .ok (rem, cn) =>
    match s.toComb n (fld a 43 6) (fld a 39 4) with
    | .error e => .error e
    | .ok c =>
      if rem = none ∧ (s.comb c).lost then .error 0x3004#16 else
      let off := a % 2 ^ 36
      if !offOk space off len then .error 0x3002#16 else
      match n with
      | none => .ok ⟨rem, cn, c, space, off⟩
      | some n =>
        if space = 2 then
          if off + len ≤ s.capSize n * 0x4000000 then .ok ⟨rem, cn, c, space, off + s.capBase n * 0x4000000⟩
          else .error 0x300B#16
        else .ok ⟨rem, cn, c, space, off⟩

/-- The owner check of an operator's access (R215, R372). -/
def State.ownerOk (s : State) (t : Tgt) : Bool :=
  t.rem.isSome || (if t.space = 2 then !(s.heldGranule t.c (t.off / 0x4000000)) && !(s.ownedByAny t.c) else !(s.ownedByAny t.c))

/-! Bank groups (R199, R203, R204) -/

def bankGroup (off : Nat) : Nat := off / 0x180000
/-- The bank group is in wide use by a running Clause of the area. -/
def Area.inWide (a : Area) (g : Nat) : Bool := a.eng.runs.any (fun r => r.2.wide.contains g)
/-- A clash on the bank group: counted, the first one recorded, and the wide traffic of the Clause may meet it. -/
def Area.clashed (a : Area) (g : Nat) (ts : W64) : Area :=
  let a1 := a.count 5 0 0 1
  let f := tget {} a1.perf (perfKey 5 0 1)
  let a2 := if bit f.val.toNat 63 then a1 else
    { a1 with perf := tput a1.perf (perfKey 5 0 1) ⟨BitVec.ofNat 64 (2 ^ 63 + g * 2 ^ 58 + ts.toNat % 2 ^ 58), f.sticky⟩ }
  { a2 with eng := { a2.eng with runs := a2.eng.runs.map (fun r => (r.1, if r.2.wide.contains g then { r.2 with clash := true } else r.2)) } }

/-- Whether a narrow access to a range clashes on the resident Comb: a free choice wherever the bank group is in wide
use (R204, log entry 10). -/
def State.narrowClash (s : State) (n c off : Nat) : Bool × State :=
  if (s.ctx n).resident && (s.area c).inWide (bankGroup off) then
    let d := s.drawBool
    if d.1 then (true, d.2.setArea c ((d.2.area c).clashed (bankGroup off) s.ts)) else (false, d.2)
  else (false, s)

/-! Performing an access at its target -/

/-- A locked sequence is open in the cell: accesses from outside wait (R192). -/
def Worker.locked (w : Worker) : Bool := w.slots.any (fun e => e.2.lock.isSome)

/-- Bytes of a cell's memory. -/
def Area.cellMem (a : Area) (k : Nat) : Tbl Byte := if isStore k then (a.store k).mem else (a.worker k).mem
def Area.setCellMem (a : Area) (k : Nat) (m : Tbl Byte) : Area :=
  if isStore k then a.setStore k { a.store k with mem := m } else a.setWorker k { a.worker k with mem := m }

/-- Find latent errors of Comb Memory in a read (R208): single-bit errors are counted, uncorrectable words poison their
lines. Answers the corrected words. -/
def PMem.scanWords (m : PMem) (a n : Nat) : PMem × List Nat :=
  let ws := if n = 0 then [] else (List.range ((a + n - 1) / 8 - a / 8 + 1)).map (· + a / 8)
  ws.foldl (fun acc w =>
    let e := tget 0 acc.1.ecc w
    if e = 0 then acc
    else if e = 1 then (acc.1, acc.2 ++ [w])
    else ({ acc.1 with ecc := tset 0 acc.1.ecc w 0, poison := tset 0 acc.1.poison (w / 8) 0x3007#16 }, acc.2)) (m, [])

/-- The operator's access to an unowned Comb acts on the live area. -/
def State.areaAt (s : State) (n : Option Nat) (c : Nat) : Area := match n with | some n => s.areaOf n c | none => s.area c
def State.setAreaAt (s : State) (n : Option Nat) (c : Nat) (a : Area) : State :=
  match n with | some n => s.setAreaOf n c a | none => s.setArea c a

/-- What an access to the lines `ls` of space 0 has found (R208): corrected words are counted and logged, lines newly poisoned are
logged and fail the epoch of their last write. -/
def State.found0 (s : State) (n : Option Nat) (c : Nat) (ls : List Nat) (sc : PMem × List Nat) : State :=
  let a := s.areaAt n c
  let a1 := { a with mem := sc.1 }
  let s1 := s.setAreaAt n c (if sc.2.isEmpty then a1 else a1.count 5 0 2 sc.2.length)
  let s2 := sc.2.foldl (fun s w => s.combReport 0x300D#16 0 1 c 0 (BitVec.ofNat 64 (8 * w))) s1
  (ls.filter (fun l => tget 0 a.mem.poison l = 0 && tget 0 sc.1.poison l = 0x3007#16)).foldl (fun s l =>
    (s.combReport 0x3007#16 1 1 c 0 (BitVec.ofNat 64 (64 * l))).failParity n (tget false a.mem.ep (l / 16)) 0x3007#16) s2

/-- A narrow read of `len` bytes of space 0 at `off` (R204, R208). -/
def State.readSpace0 (s : State) (n : Option Nat) (c off len : Nat) : RdRes × State :=
  let cl := match n with | some n => s.narrowClash n c off | none => (false, s)
  let s := cl.2
  if cl.1 then (.bad 0x300A#16 (off / 64), s) else
  let sc := (s.areaAt n c).mem.scanWords off len
  (sc.1.read off len, s.found0 n c (linesOf off len) sc)

/-- The bytes whose old values a write reads first (R209): of each line it changes, up to a line that it would change in part and
that is bad. -/
def PMem.oldRange (m : PMem) (off len : Nat) : Nat × Nat :=
  let l := off / 64
  let bad := tget 0 m.poison l != 0 || (List.range 8).any (fun i => decide (2 ≤ tget 0 m.ecc (8 * l + i)))
  let last := if (decide (off % 64 ≠ 0) || decide (len < 64)) && bad then l else (off + len - 1) / 64
  (64 * l, 64 * (last + 1 - l))
/-- A write through a narrow or wide port that delivers no check value (R208, R209): the code and line at which it stopped. -/
def State.store0 (s : State) (n : Option Nat) (c off : Nat) (bs : List Byte) (ep : Bool) : State × Option (W16 × Nat) :=
  if bs.isEmpty then (s, none) else
  let g := (s.areaAt n c).mem.oldRange off bs.length
  let s1 := s.found0 n c (linesOf g.1 g.2) ((s.areaAt n c).mem.scanWords g.1 g.2)
  let a := s1.areaAt n c
  let w := a.mem.write off bs ep
  let stop := match w.2 with | some (_, l) => 64 * l | none => off + bs.length
  -- whole words written anew hold no latent error any more
  let ecc := w.1.ecc.filter (fun e => !(decide (off ≤ 8 * e.1 ∧ 8 * e.1 + 8 ≤ stop)))
  (s1.setAreaAt n c { a with mem := { w.1 with ecc := ecc } }, w.2)
/-- A narrow write, which may meet wide traffic: a clash leaves the lines written poisoned (R204). -/
def State.narrow0 (s : State) (n : Option Nat) (c off : Nat) (bs : List Byte) (ep : Bool) : State × Option (W16 × Nat) :=
  let cl := match n with | some n => s.narrowClash n c off | none => (false, s)
  let w := cl.2.store0 n c off bs ep
  if cl.1 then
    let a := w.1.areaAt n c
    let stop := match w.2 with | some (_, l) => l | none => (off + bs.length + 63) / 64
    let m := ((linesOf off bs.length).filter (fun l => decide (l < stop))).foldl (fun m l => { m with poison := tset 0 m.poison l 0x300A#16 }) a.mem
    (w.1.setAreaAt n c { a with mem := m }, w.2)
  else w

/-- Find latent errors of the Memory Wafer in a read of lines (R230): up to 3 bad symbols are corrected and counted, more
poison the line. Answers corrected lines and newly poisoned ones. -/
def PMem.scanLines (m : PMem) (ls : List Nat) : PMem × List Nat × List Nat :=
  ls.foldl (fun acc l =>
    let e := tget 0 acc.1.ecc l
    if e = 0 then acc
    else if e ≤ 3 then (acc.1, acc.2.1 ++ [l], acc.2.2)
    else ({ acc.1 with ecc := tset 0 acc.1.ecc l 0, poison := tset 0 acc.1.poison l 0x7002#16 }, acc.2.1, acc.2.2 ++ [l])) (m, [], [])

/-- What an access to lines of the Memory Wafer has found (R230): corrected lines are counted and logged, uncorrectable ones logged. -/
def State.found2 (s : State) (c : Nat) (sc : PMem × List Nat × List Nat) : State :=
  let cm := s.comb c
  let s1 := s.setComb c { cm with mw := { cm.mw with mem := sc.1 } }
  let sub (l : Nat) : Nat := l % 16 * 32 + l / 16 % 32
  let s2 := sc.2.1.foldl (fun s l => (s.incObj 0x2600 3 64 1).combReport 0x7007#16 0 2 c (sub l) (BitVec.ofNat 64 (64 * l))) s1
  sc.2.2.foldl (fun s l => s.combReport 0x7001#16 1 2 c (sub l) (BitVec.ofNat 64 (64 * l))) s2
/-- A read of `len` bytes of space 2 at region offset `off`: a line found uncorrectable now raises 0x7001, a poisoned
one 0x7002 (R230, R233). -/
def State.readSpace2 (s : State) (c off len : Nat) : RdRes × State :=
  let sc := (s.comb c).mw.mem.scanLines (linesOf off len)
  (match sc.2.2 with | l :: _ => .bad 0x7001#16 l | [] => sc.1.read off len, s.found2 c sc)

/-- A line of a range lies in a marked block: its reads fault with 0xB002 (R397). -/
def PMem.marked (m : PMem) (a n : Nat) : Bool := (blocksOf a n).any (fun b => tget false m.mark b)

/-- Verify block `b` for a reader (R395, R397): on a mismatch the block is marked. Answers whether it agreed. -/
def PMem.verify (m : PMem) (b : Nat) : Bool × PMem :=
  if m.agrees b then (true, m) else (false, { m with mark := tset false m.mark b true })

/-- The whole aligned blocks inside a range. -/
def wholeBlocks (a n : Nat) : List Nat := (blocksOf a n).filter (fun b => decide (a ≤ 1024 * b ∧ 1024 * b + 1024 ≤ a + n))

/-- The PMem of space 0 or 2 of a Comb, for a context. -/
def State.pmem (s : State) (n : Option Nat) (c space : Nat) : PMem := if space = 2 then (s.comb c).mw.mem else (s.areaAt n c).mem
def State.setPmem (s : State) (n : Option Nat) (c space : Nat) (m : PMem) : State :=
  if space = 2 then s.setComb c { s.comb c with mw := { (s.comb c).mw with mem := m } }
  else s.setAreaAt n c { s.areaAt n c with mem := m }

/-- Perform a read at its target: bytes or the fault's code. `vs` are the blocks the reader verifies (R395). -/
def State.performRead (s : State) (n : Option Nat) (c space off len : Nat) (vs : List Nat) : Except W16 (List Byte) × State :=
  if space = 1 then
    let k := fld off 18 10
    (.ok (cellsRead ((s.areaAt n c).cellMem k) (off % 2 ^ 18) len), s)
  else
    -- every line of a block to be verified is read
    let lo := vs.foldl (fun x v => min x (1024 * v)) off
    let hi := vs.foldl (fun x v => max x (1024 * v + 1024)) (off + len)
    let r := if space = 2 then s.readSpace2 c lo (hi - lo) else s.readSpace0 n c lo (hi - lo)
    match r.1 with
    | .bad code _ => (.error code, r.2)
    | .ok got =>
      let b := (got.drop (off - lo)).take len
      let m := r.2.pmem n c space
      if m.marked off len then (.error 0xB002#16, r.2) else
      match vs.find? (fun v => !(m.agrees v)) with
      | none => (.ok b, r.2)
      | some v =>
        let s1 := r.2.setPmem n c space (m.verify v).2
        (.error 0xB001#16, (s1.report ⟨0xB001#16, 1, n, if space = 2 then 2 else 1, c, 0, s.faultEpoch n,
          BitVec.ofNat 64 (1024 * v), BitVec.ofNat 64 ((m.chkOf v).toNat + 2 ^ 32 * (crc32c (m.block v)).toNat)⟩).failParity n
          (tget false m.ep v) 0xB001#16)

/-- A write of the Memory Wafer (R230, R231): the old bytes of a line that it changes in part are read first; a line found uncorrectable
by that read raises 0x7001. -/
def State.store2 (s : State) (c off : Nat) (bs : List Byte) (ep : Bool) : State × Option W16 :=
  let ls := linesOf off bs.length
  let part := ls.filter (fun l => !(decide (off ≤ 64 * l ∧ 64 * l + 64 ≤ off + bs.length)))
  let go := match part.find? (fun l => tget 0 (s.comb c).mw.mem.poison l != 0 || decide (4 ≤ tget 0 (s.comb c).mw.mem.ecc l)) with
    | some l => part.filter (fun k => decide (k ≤ l))
    | none => part
  let sc := (s.comb c).mw.mem.scanLines go
  let s1 := s.found2 c sc
  let w := sc.1.write off bs ep
  let stop := match w.2 with | some (_, l) => l | none => (off + bs.length + 63) / 64
  (s1.setPmem none c 2 { w.1 with ecc := w.1.ecc.filter (fun e => !(ls.contains e.1 && decide (e.1 < stop))) },
   w.2.map (fun e => if sc.2.2.contains e.2 then 0x7001#16 else e.1))

/-- Perform a write at its target: the state and the fault the writer learns of, if any. -/
def State.performWrite (s : State) (n : Option Nat) (c space off : Nat) (bs : List Byte) (ep : Bool) : State × Option W16 :=
  if space = 1 then
    let a := s.areaAt n c
    let k := fld off 18 10
    (s.setAreaAt n c (a.setCellMem k (cellsWrite (a.cellMem k) (off % 2 ^ 18) bs)), none)
  else if space = 2 then
    s.store2 c off bs ep
  else
    let w := s.narrow0 n c off bs ep
    (w.1, w.2.map (·.1))

/-! Outstanding writes by epoch (R257) -/

def State.openEpoch (s : State) (n : Option Nat) : W64 := match n with | some n => (s.ctx n).epOpen | none => 0
def State.epLow (s : State) (n : Option Nat) : Bool := (s.openEpoch n).getLsbD 0
/-- Count a write of a context issued (or returned) in the epoch of that parity. -/
def State.writeIssued (s : State) (n : Option Nat) (ep : Bool) : State :=
  match n with
  | some n => s.setCtx n { s.ctx n with outst := tset 0 (s.ctx n).outst (b2n ep) (tget 0 (s.ctx n).outst (b2n ep) + 1) }
  | none => s
def State.writeDone (s : State) (n : Option Nat) (ep : Bool) : State :=
  match n with
  | some n => s.setCtx n { s.ctx n with outst := tset 0 (s.ctx n).outst (b2n ep) (tget 0 (s.ctx n).outst (b2n ep) - 1) }
  | none => s

/-! Signals -/

/-- Pass a counter operation to a Comb's counter unit (R266, R272). -/
def State.passAdd (s : State) (c : Nat) (o : CtrOp) : State := s.setComb c { s.comb c with ctrOps := (s.comb c).ctrOps ++ [o] }
/-- An add of `amt` to counter `ix`, behind those already passed for it, would pass the limit (R273). -/
def State.willSaturate (s : State) (c ctx ix amt : Nat) : Bool :=
  let q := (((s.comb c).ctrOps.filter (fun o => o.ctx = ctx && o.ix = ix)).map (·.amt)).foldl (· + ·) 0
  decide (2 ^ 64 ≤ (tget 0 (s.area c).ctr ix).toNat + q + amt)
/-- The value of a counter as its context's waiters see it: saved value plus pending sum while swapped out (R277). -/
def Area.counter (a : Area) (i : Nat) : Nat := (tget 0 a.ctr i).toNat + tget 0 a.pendSum i

/-! Packets and streams -/

/-- Bytes of the clitics. -/
def Pkt.clBytes (p : Pkt) : List Byte := p.clitics.flatMap bytes64
/-- Length on the wire in bytes (R310). -/
def Pkt.wireLen (p : Pkt) : Nat := 32 + 8 * p.clWords + p.payload.length
/-- The header as a number, with the given `VC` and `E2E_CRC` (R320). -/
def Pkt.head (p : Pkt) (vc crc : Nat) : Nat :=
  p.dst % 2 ^ 24 + p.src % 2 ^ 24 * 2 ^ 24 + p.master % 2 ^ 14 * 2 ^ 48 + p.cls % 4 * 2 ^ 62 + p.ptype % 32 * 2 ^ 64
  + vc % 4 * 2 ^ 69 + b2n p.epochLo * 2 ^ 71 + p.ctx % 16 * 2 ^ 72 + p.space % 8 * 2 ^ 76 + b2n p.first * 2 ^ 79
  + p.off % 2 ^ 36 * 2 ^ 80 + p.len % 1024 * 2 ^ 116 + b2n p.opn * 2 ^ 126 + b2n p.rsvd * 2 ^ 127
  + p.seq % 65536 * 2 ^ 128 + p.inc % 256 * 2 ^ 144 + p.clNext % 16 * 2 ^ 152 + p.clWords % 16 * 2 ^ 156
  + p.arrCtr % 4096 * 2 ^ 160 + b2n p.arrEn * 2 ^ 172 + p.arrAmt % 65536 * 2 ^ 176 + p.reqId % 65536 * 2 ^ 192
  + p.status.toNat * 2 ^ 208 + crc % 2 ^ 32 * 2 ^ 224
/-- The end-to-end check value (R320). -/
def Pkt.crc (p : Pkt) : W32 := crc32c (leBytes 32 (p.head 0 0) ++ p.clBytes ++ p.payload)
/-- The packet's bytes. -/
def Pkt.bytes (p : Pkt) : List Byte := leBytes 32 (p.head p.vc p.e2e.toNat) ++ p.clBytes ++ p.payload

def dstField (m c : Nat) : Nat := m * 1024 + combField c
def Pkt.dstModule (p : Pkt) : Nat := p.dst / 1024
def Pkt.srcModule (p : Pkt) : Nat := p.src / 1024
def Pkt.dstComb (p : Pkt) : Nat := (combOfField (p.dst % 1024)).getD 480
def Pkt.srcComb (p : Pkt) : Nat := (combOfField (p.src % 1024)).getD 480
/-- A packet of the Reply network (R321). -/
def Pkt.isReply (p : Pkt) : Bool := decide (16 ≤ p.ptype)
/-- A packet that carries a write (R240), or the trailer with which a digested contribution's writes are performed
(R325). -/
def Pkt.isWrite (p : Pkt) : Bool := decide (1 ≤ p.ptype ∧ p.ptype ≤ 3) || p.ptype = 8

/-- The key of a stream in the table of incarnations: it opens under the one after its last (R324, log entry 59). -/
def incKey (src m dst cls : Nat) : Nat := ((src * 65536 + m) * 2 ^ 24 + dst) * 8 + cls
def txIs (src m dst cls : Nat) (t : TxStream) : Bool := t.src = src && t.master = m && t.dst = dst && t.cls = cls
/-- Bytes of a Comb's packets not yet accepted (R324). -/
def State.txBytes (s : State) (src : Nat) : Nat :=
  ((s.tx.filter (fun t => t.src = src)).map (fun t => (t.unacc.map Pkt.wireLen).foldl (· + ·) 0)).foldl (· + ·) 0
/-- The stream has a send-table entry to use, fewer than 256 unaccepted packets, and the buffer has room (R324). -/
def State.canSend (s : State) (m : Master) (dst cls : Nat) : Bool :=
  let src := masterComb m
  (match s.tx.find? (txIs src (masterField m) dst cls) with
   | some t => decide (t.unacc.length < 256)
   | none => src = 480 || decide ((s.tx.filter (fun t => t.src = src)).length < 256))
  && (src = 480 || decide (s.txBytes src + 544 ≤ 0x200000))

/-- The source router's sampling of the resident context's packets (R508): after every 2^(s + 3) packets one is due, and the
first packet with room carries the `TRACE` clitic (R322), whose identifier is the Comb and a count. -/
def State.sampled (s : State) (c : Nat) (p : Pkt) : Pkt × State :=
  match s.residentAt c with
  | none => (p, s)
  | some n =>
    let cfg := s.obj (n + 1) 0x2B00 1 0
    let smp := fld cfg 44 4
    if !(bit cfg 43) || smp = 0 then (p, s) else
    let a := s.area c
    let k := a.tracePkts + 1
    if 2 ^ (smp + 3) ≤ k ∧ p.payload.length + 8 * p.clWords ≤ 504 ∧ p.clitics.length ≤ 2 then
      let id := combField c * 2 ^ 22 + a.traceCnt % 2 ^ 22
      ({ p with clitics := [BitVec.ofNat 64 (p.clNext % 16 + id * 2 ^ 32)] :: p.clitics, clWords := p.clWords + 1, clNext := 3 },
       (s.setArea c { a with tracePkts := 0, traceCnt := a.traceCnt + 1 }).trace c 10 6 0 id)
    else (p, s.setArea c { a with tracePkts := k })

/-- Put a packet into its stream and into the Fabric: the source router fills the stream's fields (R320, R324). -/
def State.sendPkt (s : State) (m : Master) (p : Pkt) : State :=
  let src := masterComb m
  let sp := s.sampled src p
  let p := sp.1
  let s := sp.2
  let mf := masterField m
  let own := s.ownModule * 1024 + (if src < 480 then combField src else 0)
  let fill (p : Pkt) (inc seq : Nat) (o : Bool) : Pkt :=
    let q := { p with src := own, master := mf, inc := inc, seq := seq, opn := o, len := if p.ptype = 4 then p.len else p.payload.length }
    { q with e2e := q.crc }
  match lfind (txIs src mf p.dst p.cls) s.tx with
  | some i =>
    let t := lget ⟨src, mf, p.dst, p.cls, 0, 0, [], [], 0, false⟩ s.tx i
    let q := fill p t.inc (t.next % 65536) (t.next = 0)
    { s with tx := lset s.tx i { t with next := t.next + 1, unacc := t.unacc ++ [q], unperf := t.unperf ++ [q] }
             net := s.net ++ [⟨q, .source, none⟩] }
  | none =>
    let key := incKey src mf p.dst p.cls
    let inc := tget 0 s.incs key
    let q := fill p inc 0 true
    { s with tx := s.tx ++ [⟨src, mf, p.dst, p.cls, inc, 1, [q], [q], 0, false⟩]
             incs := tset 0 s.incs key ((inc + 1) % 256), net := s.net ++ [⟨q, .source, none⟩] }

/-- A reply from a Comb's router to the source of packet `p` (R321): it belongs to no stream. -/
def State.reply (s : State) (c : Nat) (p : Pkt) (ptype seq off : Nat) (status : W16) (payload : List Byte) : State :=
  let q : Pkt := { dst := p.src, src := p.dst, master := p.master, cls := p.cls, ptype := ptype, ctx := p.ctx, off := off,
                   len := payload.length, seq := seq, inc := p.inc, reqId := p.reqId, status := status, payload := payload }
  let q := { q with e2e := q.crc }
  { s with net := s.net ++ [⟨q, if c < 480 then .source else .rim, none⟩] }

/-- The destination field of a translated target. -/
def State.dstOf (s : State) (t : Tgt) : Nat := dstField (t.rem.getD s.ownModule) t.c

/-! Completions of a master's accesses -/

/-- Take a completed access off a Worker Cell slot's list; a release with nothing outstanding holds nothing (R245). -/
def WSlot.completed (w : WSlot) (id : Nat) : WSlot :=
  let o := w.outst.filter (· != id)
  { w with outst := o, outPc := tdel w.outPc id, held := w.held && !o.isEmpty }

/-- A slot or Forager command of the area waits for a request. -/
def Area.waitsFor (a : Area) (m : Master) (id : Nat) : Bool :=
  match m with
  | .worker _ k sl => let x := (a.worker k).slot sl; x.outst.contains id || x.pend.any (fun p => p.id = id)
  | .forager _ f => (a.forager f).slots.any (fun e => e.2.outst.contains id)
  | _ => false
/-- The swapped-out context whose saved state waits for a request of a master of Comb `c`; none where the resident's does. -/
def State.waiterOf (s : State) (m : Master) (id : Nat) : Option Nat :=
  let c := masterComb m
  if 480 ≤ c || (s.area c).waitsFor m id then none
  else (List.range 16).find? (fun k => s.owns k c && !(s.ctx k).resident && (s.areaOf k c).waitsFor m id)
/-- Do something on Comb `c` as if swapped-out context `k` were resident there, on its image (R218, R240). -/
def State.inImage (s : State) (k c : Nat) (f : State → State) : State :=
  let live := s.area c
  let who := s.residentAt c
  let res (s : State) (n : Nat) (b : Bool) : State := s.setCtx n { s.ctx n with resident := b }
  let s1 := match who with | some n => res s n false | none => s
  let s2 := f ((res s1 k true).setArea c (s.areaOf k c))
  let m := s2.comb c
  let s3 := res (s2.setComb c { m with live := live, saved := tput m.saved k (some m.live) }) k false
  match who with | some n => res s3 n true | none => s3
/-- Do something for whatever waits for a request, resident or swapped out. -/
def State.forWaiter (s : State) (m : Master) (id : Nat) (f : State → State) : State :=
  match s.waiterOf m id with
  | some k => s.inImage k (masterComb m) f
  | none => f s

/-- An access of a master has been performed: the slot, command or host command that waits for it goes on. -/
def State.completeOk (s : State) (m : Master) (id : Nat) : State :=
  s.forWaiter m id fun s =>
  match m with
  | .worker c k sl => let u : SlotRef := ⟨c, k, sl⟩; s.setSlot u ((s.slot u).completed id)
  | .forager c f =>
    let fg := s.forager c f
    s.setForager c f { fg with slots := fg.slots.map (fun e => (e.1, { e.2 with outst := e.2.outst.filter (· != id) })) }
  | .host f =>
    let r := s.ring f
    s.setRing f { r with cmds := r.cmds.map (fun h => { h with outst := h.outst.filter (· != id) }) }
  | _ => s

end Sys2Proof.Machine
end

