-- ==== Sys2Proof/Machine/Flags.lean ====
section
/-! DEFINITION. Number formats and their rounding: FP32 and BF16 (R54, R179), the element formats, their
quantisation (R33-R38, R50-R53) and the block dot product (R41, R42). -/

namespace Sys2Proof.Machine

open Sys2Proof

/-- The value of an FP32 operand after R54's flush: a subnormal is a zero of its sign. -/
inductive FV where
  | nan
  | inf (neg : Bool)
  | zero (neg : Bool)
  | fin (m e : Int)
  deriving DecidableEq, Repr

/-- The one NaN the part produces (R42, R48, R179). -/
def qnan : W32 := 0x7FC00000#32

/-- Read an FP32 word (R54). -/
def fv (w : W32) : FV :=
  let n := w.toNat
  let neg := bit n 31
  let e := fld n 23 8
  let f := fld n 0 23
  if e = 255 then (if f = 0 then .inf neg else .nan)
  else if e = 0 then .zero neg
  else .fin (if neg then -((f + 2 ^ 23 : Nat) : Int) else ((f + 2 ^ 23 : Nat) : Int)) ((e : Int) - 150)

def signBit (neg : Bool) : Nat := if neg then 2 ^ 31 else 0

/-- An infinity and a zero of a sign. -/
def finf (neg : Bool) : W32 := BitVec.ofNat 32 (signBit neg + 0x7F800000)
def fzero (neg : Bool) : W32 := BitVec.ofNat 32 (signBit neg)

/-- Round `mag * 2^e` to `p` significant bits, to nearest even: the new magnitude and exponent. -/
def roundMag (p mag : Nat) (e : Int) : Nat × Int :=
  let l := mag.log2
  if l < p then (mag, e) else
  let sh := l + 1 - p
  let q := mag >>> sh
  let r := mag % 2 ^ sh
  let half := 2 ^ (sh - 1)
  (if r > half ∨ (r = half ∧ q % 2 = 1) then q + 1 else q, e + sh)

/-- Pack a rounded magnitude as FP32: overflow gives infinity, a result below 2^-126 a zero of its sign (R42, R54). -/
def packMag (neg : Bool) (mag : Nat) (e : Int) : W32 :=
  if mag = 0 then fzero neg else
  let l := mag.log2
  let ex := e + l
  if ex > 127 then finf neg
  else if ex < -126 then fzero neg
  else
    let frac := if l ≤ 23 then mag <<< (23 - l) else mag >>> (l - 23)
    BitVec.ofNat 32 (signBit neg + (ex + 127).toNat * 2 ^ 23 + frac % 2 ^ 23)

/-- Round an exact value once to `p` bits: 24 for FP32, 8 for BF16 held in the upper half (R179). -/
def froundP (p : Nat) (m e : Int) : W32 :=
  if m = 0 then fzero false else
  let r := roundMag p m.natAbs e
  packMag (decide (m < 0)) r.1 r.2

def fvNeg : FV → Bool
  | .nan => false
  | .inf n => n
  | .zero n => n
  | .fin m _ => decide (m < 0)

/-- The word of a value that needs no rounding at `p` bits or is rounded to it. -/
def fvWord (p : Nat) : FV → W32
  | .nan => qnan
  | .inf n => finf n
  | .zero n => fzero n
  | .fin m e => froundP p m e

/-- Sum of two exact dyadic numbers. -/
def dyAdd (a b : Int × Int) : Int × Int :=
  let e := min a.2 b.2
  (a.1 * 2 ^ (a.2 - e).toNat + b.1 * 2 ^ (b.2 - e).toNat, e)

/-- `a ≤ b` for exact dyadic numbers. -/
def dyLe (a b : Int × Int) : Bool :=
  let e := min a.2 b.2
  decide (a.1 * 2 ^ (a.2 - e).toNat ≤ b.1 * 2 ^ (b.2 - e).toNat)

/-- x + y, rounded once to `p` bits (R54, R179, R214). -/
def faddP (p : Nat) (x y : FV) : W32 :=
  match x, y with
  | .nan, _ => qnan
  | _, .nan => qnan
  | .inf a, .inf b => if a = b then finf a else qnan
  | .inf a, _ => finf a
  | _, .inf b => finf b
  | .zero a, .zero b => fzero (a && b)
  | .zero _, .fin m e => froundP p m e
  | .fin m e, .zero _ => froundP p m e
  | .fin m e, .fin m' e' => let r := dyAdd (m, e) (m', e'); froundP p r.1 r.2

/-- The exact product of two values, zeros with their signs. -/
def fmulV (x y : FV) : FV :=
  match x, y with
  | .nan, _ => .nan
  | _, .nan => .nan
  | .inf _, .zero _ => .nan
  | .zero _, .inf _ => .nan
  | .inf a, y => .inf (a != fvNeg y)
  | x, .inf b => .inf (fvNeg x != b)
  | .zero a, y => .zero (a != fvNeg y)
  | x, .zero b => .zero (fvNeg x != b)
  | .fin m e, .fin m' e' => .fin (m * m') (e + e')

def fmulP (p : Nat) (x y : FV) : W32 := fvWord p (fmulV x y)

/-- d + x * y, rounded once (R176, R179). -/
def ffmaP (p : Nat) (d x y : FV) : W32 := faddP p d (fmulV x y)

def fnegV : FV → FV
  | .nan => .nan
  | .inf n => .inf (!n)
  | .zero n => .zero (!n)
  | .fin m e => .fin (-m) e

/-- The order of `VMAX` and `VMIN`: +0 stands above -0 (R179). -/
def fle : FV → FV → Bool
  | .nan, _ => false
  | _, .nan => false
  | .inf true, _ => true
  | _, .inf false => true
  | .inf false, _ => false
  | _, .inf true => false
  | .zero a, .zero b => a || !b
  | .zero _, .fin m _ => decide (0 < m)
  | .fin m _, .zero _ => decide (m < 0)
  | .fin m e, .fin m' e' => dyLe (m, e) (m', e')

def fmaxP (p : Nat) (x y : FV) : W32 :=
  if x = .nan ∨ y = .nan then qnan else if fle x y then fvWord p y else fvWord p x
def fminP (p : Nat) (x y : FV) : W32 :=
  if x = .nan ∨ y = .nan then qnan else if fle x y then fvWord p x else fvWord p y

/-- FP32 addition and the accumulator's addition of R41. -/
def fadd32 (x y : W32) : W32 := faddP 24 (fv x) (fv y)

/-- A BF16 half as an FP32 word. -/
def bfUp (h : Nat) : W32 := BitVec.ofNat 32 (h % 65536 * 65536)
/-- The BF16 half of a word rounded to BF16. -/
def bfDown (w : W32) : Nat := w.toNat / 65536

/-! Functions within one unit in the last place (R179): an exact bracket, and a free choice inside it -/

/-- Integer square root by bits, from bit `n` down. -/
def isqrt : Nat → Nat → Nat → Nat
  | 0, _, r => r
  | n + 1, x, r => let r' := r + 2 ^ n; isqrt n x (if r' * r' ≤ x then r' else r)

/-- The word `k` steps of the last place from a finite positive word at `p` bits. -/
def ulpStep (p : Nat) (w : W32) (k : Int) : W32 := BitVec.ofInt 32 ((w.toNat : Int) + k * 2 ^ (24 - p))

/-- Choose within one unit of the last place of a positive value `q * 2^e` below which the exact result lies
(`exact`: equal to it), truncated to `p` bits: the direction is the part's (`Config.approx`, log entry 3). -/
def within1 (p op : Nat) (arg : W32) (neg : Bool) (q : Nat) (e : Int) (exact : Bool) : W32 :=
  let l := q.log2
  let sh := l + 1 - p
  let t := q >>> sh
  let isEx := exact && q % 2 ^ sh = 0
  let c := Config.approx (2 * op + b2n (p = 8)) arg
  let k : Int := if isEx then c % 3 - 1 else c % 2
  let ex := e + l
  if ex > 127 then finf neg
  else
    let t' := (t : Int) + k
    packMag neg t'.toNat (e + sh)

/-- 1/x. -/
def frcpP (p : Nat) (arg : W32) : W32 :=
  match fv arg with
  | .nan => qnan
  | .inf n => fzero n
  | .zero n => finf n
  | .fin m e =>
    let q := 2 ^ 80 / m.natAbs
    within1 p 7 arg (decide (m < 0)) q (-80 - e) (2 ^ 80 % m.natAbs = 0)

/-- 1/sqrt x. -/
def frsqP (p : Nat) (arg : W32) : W32 :=
  match fv arg with
  | .nan => qnan
  | .inf true => qnan
  | .inf false => fzero false
  | .zero n => finf n
  | .fin m e =>
    if m < 0 then qnan else
    let odd := e % 2 = 1
    let m' := if odd then 2 * m.natAbs else m.natAbs
    let e' := if odd then e - 1 else e
    let x := 2 ^ 160 / m'
    let r := isqrt 81 x 0
    within1 p 8 arg false r (-80 - e' / 2) (2 ^ 160 % m' = 0 && r * r = x)

/-- Taylor sum of e^y at 2^320, from term `n` down (Horner). -/
def expHorner (y : Nat) : Nat → Nat → Nat
  | 0, acc => acc
  | n + 1, acc => expHorner y n (2 ^ 320 + acc * y / 2 ^ 320 / (n + 1))

/-- Square `n` times at 2^320. -/
def sqTimes : Nat → Nat → Nat
  | 0, x => x
  | n + 1, x => sqTimes n (x * x / 2 ^ 320)

/-- e^x. -/
def fexpP (p : Nat) (arg : W32) : W32 :=
  match fv arg with
  | .nan => qnan
  | .inf true => fzero false
  | .inf false => finf false
  | .zero _ => within1 p 6 arg false (2 ^ 320) (-320) true
  | .fin m e =>
    -- beyond 2^8 in magnitude the result lies outside the range of FP32
    if e + m.natAbs.log2 ≥ 8 then (if m < 0 then fzero false else finf false) else
    let sh := e + 320 - 8
    let y := if sh ≥ 0 then m.natAbs * 2 ^ sh.toNat else m.natAbs / 2 ^ (-sh).toNat
    let v := sqTimes 8 (expHorner y 80 (2 ^ 320))
    if m < 0 then within1 p 6 arg false (2 ^ 640 / v) (-320) false
    else within1 p 6 arg false v (-320) false

/-! Element formats (R33-R35): 0 E2M1, 1 E2M3, 2 E3M2 -/

def fmtW (f : Nat) : Nat := if f = 0 then 4 else 6
def fmtM (f : Nat) : Nat := if f = 0 then 1 else if f = 1 then 3 else 2
def fmtB (f : Nat) : Int := if f = 2 then 3 else 1

/-- Magnitude of a code without its sign bit, as mantissa and exponent (R34). -/
def magOf (f c : Nat) : Nat × Int :=
  let mb := fmtM f
  let m := c % 2 ^ mb
  let e := c / 2 ^ mb
  if e = 0 then (m, 1 - fmtB f - mb) else (2 ^ mb + m, (e : Int) - fmtB f - mb)

/-- Sign of an element code. -/
def codeNeg (f c : Nat) : Bool := bit c (fmtW f - 1)

/-- Signed value of an element code; negative zero is zero (R35). -/
def elemVal (f c : Nat) : Int × Int :=
  let r := magOf f (c % 2 ^ (fmtW f - 1))
  ((if codeNeg f c then -(r.1 : Int) else r.1), r.2)

/-- The largest magnitude code. -/
def topCode (f : Nat) : Nat := 2 ^ (fmtW f - 1) - 1

/-- The largest code of at most `n` whose magnitude does not exceed `y`. -/
def codeBelow (f : Nat) (y : Int × Int) : Nat → Nat
  | 0 => 0
  | n + 1 => let v := magOf f (n + 1); if dyLe ((v.1 : Int), v.2) y then n + 1 else codeBelow f y n

/-- Round a magnitude to a code: nearest, ties to the code whose mantissa bit 0 is even (R51). -/
def roundNear (f : Nat) (y : Int × Int) : Nat :=
  let c := codeBelow f y (topCode f)
  if c = topCode f then c else
  let a := magOf f c
  let b := magOf f (c + 1)
  let mid2 := dyAdd ((a.1 : Int), a.2) ((b.1 : Int), b.2)
  let y2 := (2 * y.1, y.2)
  if dyLe y2 mid2 && dyLe mid2 y2 then (if c % 2 = 0 then c else c + 1)
  else if dyLe y2 mid2 then c else c + 1

/-- Round a magnitude to a code with the 16-bit draw `v` (R52). -/
def roundStoch (f : Nat) (y : Int × Int) (v : Nat) : Nat :=
  let c := codeBelow f y (topCode f)
  if c = topCode f then c else
  let a := magOf f c
  let b := magOf f (c + 1)
  let e := min y.2 (min a.2 b.2)
  let ya := (y.1 * 2 ^ (y.2 - e).toNat - (a.1 : Int) * 2 ^ (a.2 - e).toNat)
  let ba := ((b.1 : Int) * 2 ^ (b.2 - e).toNat - (a.1 : Int) * 2 ^ (a.2 - e).toNat)
  if (v : Int) < ya * 65536 / ba then c + 1 else c

/-- The scale exponent of R50 for the largest magnitude. -/
def scaleFor (f : Nat) (al : Nat × Int) : Int :=
  let t := magOf f (topCode f)
  let x0 := (al.2 + al.1.log2) - (t.2 + t.1.log2)
  let x := if dyLe ((al.1 : Int), al.2) ((t.1 : Int), t.2 + x0) then x0 else x0 + 1
  max (-127) (min 127 x)

/-- Larger of two magnitudes. -/
def magMax (a b : Nat × Int) : Nat × Int := if dyLe ((a.1 : Int), a.2) ((b.1 : Int), b.2) then b else a

def fvMag : FV → Nat × Int
  | .fin m e => (m.natAbs, e)
  | _ => (0, 0)

def isBad : FV → Bool
  | .nan => true
  | .inf _ => true
  | _ => false

def codeOf (f : Nat) (neg : Bool) (c : Nat) : Nat := if neg then 2 ^ (fmtW f - 1) + c else c

/-- Quantise one value at scale exponent `x`; `v` is the draw of stochastic rounding. Magnitudes above M·2^x saturate
(R53). -/
def quantElem (f : Nat) (x : Int) (rnd : Bool) (y : FV) (v : Nat) : Nat :=
  match y with
  | .nan => 0
  | .inf n => codeOf f n (topCode f)
  | .zero n => codeOf f n 0
  | .fin m e =>
    let d := ((m.natAbs : Int), e - x)
    codeOf f (decide (m < 0)) (if rnd then roundStoch f d v else roundNear f d)

/-- Quantise a block: scale code and element codes (R50, or R53 with a given scale). -/
def quantBlock (f : Nat) (rnd : Bool) (given : Option Nat) (vs : List FV) (draws : List Nat) : Nat × List Nat :=
  let zeros := vs.map (fun _ => 0)
  match given with
  | some 255 => (255, zeros)
  | some g =>
    if vs.any (fun v => v = .nan) then (255, zeros)
    else (g, (vs.zip draws).map (fun p => quantElem f ((g : Int) - 127) rnd p.1 p.2))
  | none =>
    if vs.any isBad then (255, zeros)
    else
      let al := (vs.map fvMag).foldl magMax (0, 0)
      if al.1 = 0 then (0, vs.map (fun v => codeOf f (fvNeg v) 0))
      else
        let x := scaleFor f al
        ((x + 127).toNat, (vs.zip draws).map (fun p => quantElem f x rnd p.1 p.2))

/-- The value of a coded element under a scale code, as FP32 (R184). -/
def dequant (f sc c : Nat) : W32 :=
  if sc = 255 then qnan else
  let v := elemVal f c
  if v.1 = 0 then fzero false else froundP 24 v.1 (v.2 + sc - 127)

/-- A block's elements as a bit string, `w` bits each, element 0 lowest (R38). -/
def packCodes (w : Nat) : List Nat → Nat
  | [] => 0
  | c :: t => c + 2 ^ w * packCodes w t

/-- The codes of a bit string (R38). -/
def unpackCodes (w n v : Nat) : List Nat := (List.range n).map (fun j => fld v (w * j) w)

/-! The block dot product (R41, R42) -/

/-- The product of two coded elements with their scale codes. -/
def prodOf (fa ca sa fb cb sb : Nat) : Prod :=
  if sa = 255 ∨ sb = 255 then .nan else
  let a := elemVal fa ca
  let b := elemVal fb cb
  .val (a.1 * b.1) (a.2 + b.2 + sa + sb - 254)

def prodLead : Prod → Option Int
  | .nan => none
  | .val m e => if m = 0 then none else some (e + m.natAbs.log2)

/-- A product truncated toward zero at 2^q, in units of 2^q. -/
def truncAt (q : Int) : Prod → Int
  | .nan => 0
  | .val m e =>
    let k := if e ≥ q then m.natAbs * 2 ^ (e - q).toNat else m.natAbs / 2 ^ (q - e).toNat
    if m < 0 then -(k : Int) else k

/-- The sum of one reduction group, rounded once to FP32. -/
def groupSum (ps : List Prod) : W32 :=
  if ps.any (fun p => p = .nan) then qnan else
  match (ps.filterMap prodLead).foldl (fun (a : Option Int) b => some (match a with | none => b | some a => max a b)) none with
  | none => fzero false
  | some e =>
    let q := e - 27
    froundP 24 ((ps.map (truncAt q)).foldl (· + ·) 0) q

/-- The accumulator takes a group: NaN stays the canonical NaN (R42). -/
def accAdd (acc g : W32) : W32 := fadd32 acc g

end Sys2Proof.Machine
end

