-- ==== Sys2Proof/Machine/Operands.lean ====
section
/-! DEFINITION. Worker Cell instruction words: fields, formats, which word is which instruction and which words are
illegal (R174-R176, R181, R186, R189), and the registers of a slot (R161, R175). -/

namespace Sys2Proof.Machine

open Sys2Proof

/-! Fields of the five formats (R174) -/

def wOp (w : Nat) : Nat := fld w 26 6
def wD (w : Nat) : Nat := fld w 21 5
def wA (w : Nat) : Nat := fld w 16 5
def wB (w : Nat) : Nat := fld w 11 5
def wFn (w : Nat) : Nat := fld w 0 11
def wImm (w : Nat) : Nat := fld w 0 16
def wSImm (w : Nat) : Int := sgn 16 w
def wImm21 (w : Nat) : Nat := fld w 0 21
def wIdx (w : Nat) : Nat := fld w 4 12
def wFn4 (w : Nat) : Nat := fld w 0 4

/-- The instructions of the table of R176, one name each. -/
inductive COp where
  | nop | add | sub | and | or | xor | shl | shr | sra | slt | sltu | mul | mulhu
  | addi | andi | ori | xori | shi | lui | beq | bne | blt | bge | bltu | bgeu | jal | jr
  | ld | st | vld | vst | gld | gst | fenceR | fenceA | fenceRA
  | vadd | vsub | vmul | vfma | vmax | vmin | vexp | vrcp | vrsq | vcvtDown | vcvtUp
  | viadd | visub | vimul | vand | vor | vxor | vshl | vshr | vsra | vilt
  | vredFSum | vredFMax | vredISum | vredIMax | vbc | vget | vset | vmov
  | qnt | qsl | dqt | spx | mfs | mts | vpop | wsnd | cadd | caddRemote | cwait | ctest | crd | srr | srw
  | spawn | lock | unlock | endSlot
  deriving DecidableEq, Repr

/-- A vector register field (R175). -/
def vOk (n : Nat) : Bool := decide (n < 16)
/-- A pair field names an even register (R175). -/
def pOk (n : Nat) : Bool := n % 2 = 0
/-- A pair of vector registers. -/
def vpOk (n : Nat) : Bool := vOk n && pOk n

def opIf (b : Bool) (o : COp) : Option COp := if b then some o else none

/-- Words of the `SRC` and `BLK` forms of a quantise source (R181). -/
def qSrcOk (w : Nat) : Bool := if bit w 2 || bit w 3 then vOk (wA w) else vpOk (wA w)

/-- Two-word special registers (R187). -/
def sregPair (i : Nat) : Bool := decide (i ≤ 7) || i = 0x12 || i = 0x1C

/-- Scalar arithmetic by `FN` (OP 0x01). -/
def cellOp01 (w : Nat) : Option COp :=
  [COp.add, .sub, .and, .or, .xor, .shl, .shr, .sra, .slt, .sltu, .mul, .mulhu][wFn w]?

/-- FP32 and BF16 vector arithmetic by `FN` (OP 0x20). -/
def cellOp20 (w : Nat) : Option COp :=
  if fld w 5 6 ≠ 0 then none else
  let f := fld w 0 4
  if f ≤ 5 then (if vOk (wD w) && vOk (wA w) && vOk (wB w) then [COp.vadd, .vsub, .vmul, .vfma, .vmax, .vmin][f]? else none)
  else if f ≤ 8 then (if vOk (wD w) && vOk (wA w) && wB w = 0 then [COp.vexp, .vrcp, .vrsq][f - 6]? else none)
  else if f = 9 then
    (if bit w 4 then opIf (vpOk (wD w) && vOk (wA w) && wB w = 0) .vcvtUp
     else opIf (vOk (wD w) && vpOk (wA w) && wB w = 0) .vcvtDown)
  else none

/-- INT32 vector arithmetic by `FN` (OP 0x21). -/
def cellOp21 (w : Nat) : Option COp :=
  if vOk (wD w) && vOk (wA w) && vOk (wB w) then
    [COp.viadd, .visub, .vimul, .vand, .vor, .vxor, .vshl, .vshr, .vsra, .vilt][wFn w]?
  else none

/-- Moves between lanes and scalars (OP 0x23). -/
def cellOp23 (w : Nat) : Option COp :=
  let f := fld w 0 7
  if wB w ≠ 0 then none
  else if f = 1 then opIf (vOk (wA w)) .vget
  else if f = 2 then opIf (vOk (wD w)) .vset
  else if wFn w = 0 then opIf (vOk (wD w)) .vbc
  else if wFn w = 3 then opIf (vOk (wD w) && vOk (wA w)) .vmov
  else none

/-- Which instruction a word is; none where it is illegal (R189, 0x4204). -/
def cellOp (w : Nat) : Option COp :=
  let op := wOp w
  let d := wD w
  let a := wA w
  let b := wB w
  let fn := wFn w
  let f4 := wFn4 w
  if op = 0x00 then opIf (w = 0) .nop
  else if op = 0x01 then cellOp01 w
  else if op = 0x02 then some .addi
  else if op = 0x03 then some .andi
  else if op = 0x04 then some .ori
  else if op = 0x05 then some .xori
  else if op = 0x06 then opIf (fld w 5 2 ≠ 3 && fld w 7 9 = 0) .shi
  else if op = 0x07 then some .lui
  else if op = 0x08 then some .beq
  else if op = 0x09 then some .bne
  else if op = 0x0A then some .blt
  else if op = 0x0B then some .bge
  else if op = 0x0C then some .bltu
  else if op = 0x0D then some .bgeu
  else if op = 0x0E then opIf (a = 0) .jal
  else if op = 0x0F then opIf (b = 0 && fn = 0) .jr
  else if op = 0x10 then some .ld
  else if op = 0x11 then some .st
  else if op = 0x12 then opIf (vOk d) .vld
  else if op = 0x13 then opIf (vOk d) .vst
  else if op = 0x14 then opIf (pOk a && b = 0 && fn ≤ 1 && (fn = 0 || pOk d)) .gld
  else if op = 0x15 then opIf (pOk a && b = 0 && fn ≤ 1 && (fn = 0 || pOk d)) .gst
  else if op = 0x16 then (if d = 0 ∧ a = 0 ∧ b = 0 then [COp.fenceR, .fenceA, .fenceRA][fn]? else none)
  else if op = 0x20 then cellOp20 w
  else if op = 0x21 then cellOp21 w
  else if op = 0x22 then (if vOk a && b = 0 then [COp.vredFSum, .vredFMax, .vredISum, .vredIMax][fn]? else none)
  else if op = 0x23 then cellOp23 w
  else if op = 0x28 then opIf (fld w 6 5 = 0 && fld w 0 2 ≠ 3 && vOk d && qSrcOk w) .qnt
  else if op = 0x29 then opIf (fld w 4 7 = 0 && fld w 0 2 ≠ 3 && vpOk d && qSrcOk w) .qsl
  else if op = 0x2A then opIf (fld w 3 8 = 0 && fld w 0 2 ≠ 3 && vOk a && (if bit w 2 then vOk d else vpOk d)) .dqt
  else if op = 0x2B then opIf (fld w 9 2 = 0 && (bit w 0 || fld w 1 2 ≤ 1) && vOk d && vOk a) .spx
  else if op = 0x30 then opIf (f4 = 0 && a = 0 && (!sregPair (wIdx w) || pOk d)) .mfs
  else if op = 0x31 then opIf (f4 = 0 && d = 0 && (!sregPair (wIdx w) || pOk a)) .mts
  else if op = 0x32 then opIf (f4 = 0 && vOk d && a = 0 && wIdx w = 0) .vpop
  else if op = 0x33 then opIf (fn = 0 && d = 0 && pOk a && vOk b) .wsnd
  else if op = 0x34 then
    (if (bit w 0 && !pOk a) || fld w 2 2 ≠ 0 then none
     else if bit w 1 then opIf (pOk d && wIdx w = 0) .caddRemote else opIf (d = 0) .cadd)
  else if op = 0x35 then opIf (f4 = 0 && d = 0 && pOk a) .cwait
  else if op = 0x36 then opIf (f4 = 0 && pOk a) .ctest
  else if op = 0x37 then opIf (f4 = 0 && pOk d && a = 0) .crd
  else if op = 0x38 then opIf (f4 = 0 && a = 0) .srr
  else if op = 0x39 then opIf (f4 = 0 && d = 0) .srw
  else if op = 0x3C then opIf (fn = 0 && d = 0) .spawn
  else if op = 0x3D then opIf (w = 0xF4000000) .lock
  else if op = 0x3E then opIf (w = 0xF8000000) .unlock
  else if op = 0x3F then opIf (w = 0xFC000000) .endSlot
  else none

/-- The instructions that may stand in a locked sequence, by kind and operands (R191). -/
def lockAllows (o : COp) (w : Nat) : Bool :=
  match o with
  | .jr | .gld | .gst | .fenceR | .fenceA | .fenceRA | .mts | .vpop | .wsnd | .cadd | .caddRemote | .cwait | .ctest
  | .crd | .srr | .srw | .spawn | .lock | .endSlot => false
  | .mfs => let i := wIdx w; i = 0x10 || i = 0x11 || i = 0x12 || i = 0x1C
  | .beq | .bne | .blt | .bge | .bltu | .bgeu | .jal => decide (1 ≤ wSImm w)
  | _ => true

/-- The scalar registers an instruction reads or writes, which must not wait for a result (R145). -/
def scalarsOf (o : COp) (w : Nat) : List Nat :=
  let d := wD w
  let a := wA w
  let b := wB w
  match o with
  | .add | .sub | .and | .or | .xor | .shl | .shr | .sra | .slt | .sltu | .mul | .mulhu => [d, a, b]
  | .addi | .andi | .ori | .xori | .shi | .ld | .st | .jr => [d, a]
  | .lui | .jal | .vredFSum | .vredFMax | .vredISum | .vredIMax | .vget | .srr => [d]
  | .beq | .bne | .blt | .bge | .bltu | .bgeu => [d, a]
  | .vld | .vst | .vbc | .vset | .srw => [a]
  | .gld | .gst => (if bit w 0 then [d, d + 1] else [d]) ++ [a, a + 1]
  | .caddRemote => [d, d + 1, a] ++ (if bit w 0 then [a + 1] else [])
  | .qnt | .qsl | .dqt | .spx => [b]
  | .mfs => if sregPair (wIdx w) then [d, d + 1] else [d]
  | .mts => if sregPair (wIdx w) then [a, a + 1] else [a]
  | .crd => [d, d + 1]
  | .cadd => if bit w 0 then [a, a + 1] else [a]
  | .wsnd | .cwait => [a, a + 1]
  | .ctest => [d, a, a + 1]
  | .spawn => [a, b]
  | _ => []

/-! Registers of a slot -/

def WSlot.s (x : WSlot) (n : Nat) : W32 := tget 0 x.sregs n
def WSlot.setS (x : WSlot) (n : Nat) (v : W32) : WSlot := { x with sregs := tset 0 x.sregs n v }
/-- A register pair: the low word in n, the high in n + 1 (R175). -/
def WSlot.pair (x : WSlot) (n : Nat) : W64 := (x.s (n + 1)).zeroExtend 64 <<< 32 ||| (x.s n).zeroExtend 64
def WSlot.setPair (x : WSlot) (n : Nat) (v : W64) : WSlot := (x.setS n (v.setWidth 32)).setS (n + 1) ((v >>> 32).setWidth 32)
def WSlot.lane (x : WSlot) (n i : Nat) : W32 := tget 0 x.vregs (16 * n + i)
def WSlot.setLane (x : WSlot) (n i : Nat) (v : W32) : WSlot := { x with vregs := tset 0 x.vregs (16 * n + i) v }
/-- The 16 lanes of a vector register. -/
def WSlot.vec (x : WSlot) (n : Nat) : List W32 := (List.range 16).map (x.lane n)
/-- Write lanes from `i` on. -/
def WSlot.setLanes (x : WSlot) (n i : Nat) : List W32 → WSlot
  | [] => x
  | v :: t => (x.setLane n i v).setLanes n (i + 1) t
def WSlot.setVec (x : WSlot) (n : Nat) (l : List W32) : WSlot := x.setLanes n 0 (lfit 0 16 l)

/-- The 32 BF16 halves of a vector register, element 2i low (R175). -/
def halves (l : List W32) : List Nat := l.flatMap (fun w => [w.toNat % 65536, w.toNat / 65536])
/-- Pack BF16 halves into lanes. -/
def packHalves : List Nat → List W32
  | a :: b :: t => BitVec.ofNat 32 (a % 65536 + b % 65536 * 65536) :: packHalves t
  | [a] => [BitVec.ofNat 32 (a % 65536)]
  | [] => []

end Sys2Proof.Machine
end

