-- ==== Sys2Proof/Machine/CellCore.lean ====
section
/-! DEFINITION. How a Worker Cell slot fetches, issues, waits, stops and runs a locked sequence
(R162, R163, R172, R177, R189-R193), shared by every instruction's meaning. -/

namespace Sys2Proof.Machine

open Sys2Proof

/-- What an instruction's effect answers: go on at the next word, go on at an address, a fault, a wait (the instruction
does not issue, R163), no issue in this state, or the slot's stop. -/
inductive CRes where
  | next (s : State)
  | jump (s : State) (pc : Nat)
  | fault (s : State) (code : W16)
  | wait (w : Wait)
  | hold
  | stop (s : State)

/-- The Comb has a resident context that is not being switched out (R356). -/
def State.settled (s : State) (c : Nat) : Bool :=
  match s.residentAt c with
  | some n => (s.ctx n).moving = 0
  | none => false

/-- The slot can issue: it runs, is neither frozen, halted nor descheduled, and no other slot of the cell holds a lock
(R162, R190); a lost Comb issues nothing (R24), nor does one whose context is being switched out (R356). -/
def State.canIssue (s : State) (u : SlotRef) : Bool :=
  let w := s.worker u.comb u.cell
  let x := w.slot u.slot
  x.running && !x.frozen && !x.halted && x.wait = .ready && !(s.dead u.comb) && s.settled u.comb
    && !(w.slots.any (fun e => e.1 != u.slot && e.2.lock.isSome))

/-- The slot's fetch buffer with the line of its PC in it (R172, R178). -/
def fetchLine (w : Worker) (x : WSlot) : WSlot :=
  match x.fetch with
  | some (l, _) => if l = x.pc / 64 then x else { x with fetch := some (x.pc / 64, cellsRead w.mem (x.pc / 64 * 64) 64) }
  | none => { x with fetch := some (x.pc / 64, cellsRead w.mem (x.pc / 64 * 64) 64) }

/-- The instruction word at the slot's PC. -/
def fetchWord (w : Worker) (x : WSlot) : Nat :=
  match (fetchLine w x).fetch with
  | some (_, b) => leNat ((b.drop (x.pc % 64)).take 4)
  | none => 0

/-- Roll a locked sequence back to its `LOCK` (R193). -/
def WSlot.rollback (x : WSlot) : WSlot :=
  match x.lock with
  | none => x
  | some l => { x with sregs := l.sregs, vregs := l.vregs, rng := l.rng, pc := l.pc, lock := none, fetch := none }

/-- Stop a slot at a fault of the instruction at `pc`: an open sequence rolls back and its `LOCK` is named (R189, R193). -/
def WSlot.stopAt (x : WSlot) (code : W16) (pc : Nat) : WSlot :=
  let fpc := match x.lock with | some l => l.pc | none => pc
  { x.rollback with running := false, fault := code.setWidth 32, fpc := BitVec.ofNat 32 fpc, wait := .ready, held := false }

/-- A slot stops with a code: its context receives an event (R189, R350). -/
def State.slotStop (s : State) (u : SlotRef) (code : W16) (pc : Nat) : State :=
  ((s.setSlot u ((s.slot u).stopAt code pc)).event (s.residentAt u.comb) code u.comb
    (masterField (.worker u.comb u.cell u.slot)) 0).trace u.comb 7 0 (u.cell * 5 + u.slot) code.toNat

/-- The slot is descheduled on a condition; it takes its place among the cell's waiting slots (R163, R164). -/
def State.deschedule (s : State) (u : SlotRef) (c : Wait) : State :=
  let w := s.worker u.comb u.cell
  let w := { w with waits := w.waits + 1 }
  s.setWorker u.comb u.cell (w.setSlot u.slot { w.slot u.slot with wait := c, since := w.waits, woke := .ready })

/-- The slot that issued is the last one served, and its `ISSUE` counter rises (R162, R168). -/
def State.issued (s : State) (u : SlotRef) : State :=
  let a := s.area u.comb
  s.setArea u.comb ((a.setWorker u.cell { (a.worker u.cell).setSlot u.slot { (a.worker u.cell).slot u.slot with woke := .ready } with last := u.slot }).count 0 (u.cell * 5 + u.slot) 1 1)

/-- Count an instruction of a locked sequence. -/
def WSlot.lockCount (x : WSlot) : WSlot :=
  match x.lock with
  | none => x
  | some l => { x with lock := some { l with count := l.count + 1 } }

/-- A transfer's target is checked (R177). -/
def pcOk (pc : Nat) : Bool := decide (pc % 4 = 0 ∧ pc ≤ 0x3FFF)

/-- Put down what an instruction's effect answers. -/
def State.cellEnd (s0 : State) (u : SlotRef) (pc : Nat) : CRes → State
  | .next s => let x := s.slot u; (s.setSlot u { x with pc := pc + 4 }.lockCount).issued u
  | .jump s t =>
    if pcOk t then let x := s.slot u; (s.setSlot u { x with pc := t }.lockCount).issued u
    else s0.slotStop u 0x3006#16 pc
  | .fault s code => s.slotStop u code pc
  | .wait c => s0.deschedule u c
  | .hold => s0
  | .stop s => let x := s.slot u; (s.setSlot u { x with running := false, pc := pc + 4 }).issued u

/-- The lock's own rules for the next instruction (R191): true where it faults with 0x4206. The count takes in the
`LOCK` itself, so 17 of it are 16 instructions of the sequence. -/
def lockFault (x : WSlot) (o : COp) (w : Nat) : Bool :=
  match x.lock with
  | none => o = .unlock
  | some l => o != .unlock && (decide (17 ≤ l.count) || !lockAllows o w)

/-- Issue the instruction at the slot's PC if it is instruction `o`. A word of another instruction is another command's:
nothing happens. An illegal word stops the slot with 0x4204 whichever instruction the command names (log entry 8). -/
def State.cellStep (s : State) (o : COp) (u : SlotRef) (body : Nat → State → CRes) : State :=
  if !s.canIssue u then s else
  let w := s.worker u.comb u.cell
  let x := w.slot u.slot
  if 0x4000 ≤ x.pc then s.slotStop u 0x3006#16 0x3FFC else
  let s1 := s.setSlot u (fetchLine w x)
  let i := fetchWord w x
  match cellOp i with
  | none => s1.slotStop u 0x4204#16 x.pc
  | some o' =>
    if o' != o then s
    else if (scalarsOf o i).any (fun r => x.pend.any (fun p => p.reg = r || (p.wide && p.reg + 1 = r))) then s
    else if lockFault x o i then s1.slotStop u 0x4206#16 x.pc
    else s1.cellEnd u x.pc (body i s1)

/-- A meaning of a Worker Cell instruction. -/
def cellRun (o : COp) (u : SlotRef) (body : Nat → State → CRes) (s : State) : Res := onUnit (isSlot u) (s.cellStep o u body)

/-- An instruction that changes registers of its slot only. -/
def cellPure (o : COp) (u : SlotRef) (f : Nat → WSlot → WSlot) (s : State) : Res :=
  cellRun o u (fun w s => .next (s.setSlot u (f w (s.slot u)))) s

end Sys2Proof.Machine
end

