-- ==== Sys2Proof/Machine/Dict.lean ====
section
/-! DEFINITION. The object dictionary: its table of objects (R497 and the tables of the chapters it names), instances
(R475, R476), the value ranges, the order of refusals (R478, R490), `LAST_REFUSAL` (R491), and the one operation by which
every write of an object is decided (R473, R487, R490). -/

namespace Sys2Proof.Machine

open Sys2Proof

/-- Type of an object. -/
inductive OTy where
  | u8 | u16 | u32 | u64 | i16 | i32 | dom | str
  deriving DecidableEq, Repr

/-- Access of a role to an object. -/
inductive Acc where
  | no | const | ro | rw | wo
  deriving DecidableEq, Repr

/-- A row of the dictionary: index, subindices `lo` to `hi`, type, access of T and of O. -/
structure ORow where
  idx : Nat
  lo : Nat
  hi : Nat
  ty : OTy
  t : Acc
  o : Acc
  deriving DecidableEq, Repr

def OTy.width : OTy → Nat
  | .u8 => 8 | .u16 => 16 | .u32 => 32 | .u64 => 64 | .i16 => 16 | .i32 => 32 | .dom => 0 | .str => 0
def OTy.isDom (t : OTy) : Bool := t = .dom || t = .str

/-- R479, R482. -/
def objRowsCia : List ORow :=
  [⟨0x1000, 0, 0, .u32, .no, .const⟩, ⟨0x1001, 0, 0, .u8, .no, .ro⟩, ⟨0x1008, 0, 0, .str, .no, .const⟩,
   ⟨0x1009, 0, 0, .str, .no, .const⟩, ⟨0x100A, 0, 0, .str, .no, .ro⟩, ⟨0x1014, 0, 0, .u32, .no, .ro⟩,
   ⟨0x1015, 0, 0, .u16, .no, .rw⟩, ⟨0x1017, 0, 0, .u16, .no, .rw⟩, ⟨0x1018, 1, 4, .u32, .no, .const⟩,
   ⟨0x1200, 1, 2, .u32, .no, .ro⟩, ⟨0x1800, 1, 1, .u32, .no, .rw⟩, ⟨0x1800, 2, 2, .u8, .no, .rw⟩,
   ⟨0x1800, 5, 5, .u16, .no, .rw⟩, ⟨0x1A00, 1, 16, .u32, .no, .rw⟩, ⟨0x2010, 1, 4, .u8, .no, .rw⟩,
   ⟨0x2010, 5, 6, .u32, .no, .ro⟩]

/-- R491, R492, R495, R496, and the power, cooling and clock objects of R447. -/
def objRowsModule : List ORow :=
  [⟨0x2000, 1, 1, .str, .const, .const⟩, ⟨0x2000, 2, 2, .u8, .const, .const⟩, ⟨0x2000, 3, 3, .u64, .const, .const⟩,
   ⟨0x2000, 4, 4, .u16, .const, .const⟩, ⟨0x2000, 5, 6, .u32, .const, .const⟩, ⟨0x2000, 7, 7, .u16, .no, .const⟩,
   ⟨0x2000, 8, 8, .u32, .no, .const⟩, ⟨0x2090, 1, 1, .dom, .rw, .rw⟩, ⟨0x2090, 2, 2, .u8, .wo, .wo⟩,
   ⟨0x2090, 3, 3, .u64, .ro, .ro⟩, ⟨0x2090, 4, 4, .dom, .ro, .ro⟩, ⟨0x2091, 1, 1, .u64, .ro, .ro⟩,
   ⟨0x2091, 2, 2, .u32, .const, .const⟩, ⟨0x2091, 3, 3, .u8, .no, .rw⟩, ⟨0x2100, 1, 1, .u16, .no, .ro⟩,
   ⟨0x2100, 2, 2, .u32, .no, .ro⟩, ⟨0x2100, 3, 3, .u64, .no, .ro⟩, ⟨0x2100, 4, 4, .u32, .no, .rw⟩,
   ⟨0x2100, 5, 6, .u32, .no, .ro⟩, ⟨0x2100, 7, 7, .u8, .no, .rw⟩, ⟨0x2100, 8, 8, .u8, .ro, .ro⟩,
   ⟨0x2100, 9, 9, .u16, .no, .rw⟩, ⟨0x2100, 10, 10, .u8, .no, .ro⟩, ⟨0x2100, 11, 11, .u8, .no, .wo⟩,
   ⟨0x2110, 1, 8, .u32, .no, .ro⟩, ⟨0x2111, 1, 0x68, .u32, .no, .ro⟩, ⟨0x2120, 1, 7, .u64, .ro, .ro⟩,
   ⟨0x2130, 1, 1, .u32, .no, .const⟩, ⟨0x2130, 2, 2, .u8, .no, .ro⟩, ⟨0x2131, 1, 0x30, .u32, .no, .ro⟩,
   ⟨0x2200, 1, 1, .i16, .ro, .ro⟩, ⟨0x2200, 2, 2, .u8, .no, .rw⟩, ⟨0x2200, 3, 4, .i16, .no, .ro⟩,
   ⟨0x2200, 5, 6, .u16, .no, .ro⟩, ⟨0x2200, 7, 7, .u32, .no, .ro⟩, ⟨0x2210, 1, 0x30, .i16, .no, .ro⟩,
   ⟨0x2211, 1, 0x30, .u16, .no, .ro⟩, ⟨0x2300, 1, 1, .u16, .no, .rw⟩, ⟨0x2300, 2, 2, .u16, .ro, .ro⟩,
   ⟨0x2300, 3, 3, .u8, .no, .rw⟩, ⟨0x2300, 4, 4, .u8, .no, .ro⟩, ⟨0x2300, 5, 5, .i32, .no, .ro⟩,
   ⟨0x2300, 6, 6, .u32, .no, .ro⟩, ⟨0x2300, 7, 7, .u64, .no, .ro⟩, ⟨0x2300, 8, 8, .u16, .no, .rw⟩,
   ⟨0x2300, 9, 9, .u8, .no, .rw⟩, ⟨0x2400, 1, 1, .u32, .no, .ro⟩, ⟨0x2400, 2, 6, .u64, .no, .ro⟩]

/-- R205, R227, R257, R283, R309, R340, R352. -/
def objRowsFabric : List ORow :=
  [⟨0x2500, 1, 2, .u16, .no, .rw⟩, ⟨0x2500, 3, 3, .u8, .no, .rw⟩, ⟨0x2500, 4, 4, .u16, .ro, .ro⟩,
   ⟨0x2501, 1, 6, .u32, .no, .rw⟩, ⟨0x2510, 1, 0x60, .u32, .no, .ro⟩, ⟨0x2510, 0x61, 0x61, .u32, .ro, .ro⟩,
   ⟨0x2510, 0x62, 0x62, .u64, .no, .ro⟩, ⟨0x2600, 1, 1, .u64, .const, .const⟩, ⟨0x2600, 2, 2, .u8, .const, .const⟩,
   ⟨0x2600, 3, 3, .u64, .no, .ro⟩, ⟨0x2600, 4, 5, .u32, .no, .ro⟩, ⟨0x2610, 1, 16, .u32, .ro, .rw⟩,
   ⟨0x2700, 1, 16, .u32, .ro, .ro⟩, ⟨0x2701, 1, 2, .u16, .no, .rw⟩, ⟨0x2710, 1, 8, .u32, .rw, .rw⟩,
   ⟨0x2720, 1, 16, .u64, .ro, .rw⟩, ⟨0x2721, 1, 16, .u64, .ro, .ro⟩, ⟨0x2721, 17, 32, .u32, .ro, .ro⟩,
   ⟨0x2730, 1, 4, .u64, .rw, .rw⟩, ⟨0x2740, 1, 4, .u8, .rw, .rw⟩]

/-- R389, R418. -/
def objRowsSec : List ORow :=
  [⟨0x2800, 1, 1, .u32, .ro, .ro⟩, ⟨0x2801, 1, 16, .dom, .rw, .ro⟩, ⟨0x2802, 1, 16, .dom, .ro, .no⟩,
   ⟨0x2803, 1, 16, .dom, .wo, .no⟩, ⟨0x2804, 1, 16, .dom, .wo, .no⟩, ⟨0x2805, 1, 16, .dom, .ro, .ro⟩,
   ⟨0x2806, 1, 16, .u32, .rw, .no⟩, ⟨0x2807, 1, 16, .dom, .ro, .no⟩, ⟨0x2810, 1, 1, .u32, .no, .rw⟩,
   ⟨0x2810, 2, 2, .dom, .no, .rw⟩, ⟨0x2820, 1, 16, .dom, .ro, .ro⟩, ⟨0x2820, 17, 17, .u32, .ro, .ro⟩,
   ⟨0x2830, 1, 16, .dom, .no, .ro⟩, ⟨0x2830, 17, 17, .u32, .no, .ro⟩, ⟨0x2830, 18, 18, .u8, .no, .wo⟩,
   ⟨0x2840, 1, 1, .dom, .no, .ro⟩, ⟨0x2840, 2, 2, .dom, .no, .wo⟩, ⟨0x2840, 3, 3, .u8, .no, .wo⟩,
   ⟨0x2840, 4, 4, .u32, .no, .ro⟩, ⟨0x2850, 1, 1, .dom, .no, .wo⟩, ⟨0x2850, 2, 2, .dom, .no, .ro⟩,
   ⟨0x2900, 1, 1, .u16, .no, .ro⟩, ⟨0x2900, 2, 3, .u32, .no, .ro⟩, ⟨0x2900, 4, 4, .u16, .no, .rw⟩,
   ⟨0x2900, 5, 5, .dom, .no, .ro⟩, ⟨0x2900, 6, 6, .u8, .no, .wo⟩, ⟨0x2900, 7, 8, .u64, .no, .ro⟩,
   ⟨0x2900, 9, 9, .u32, .no, .ro⟩, ⟨0x2900, 10, 10, .u64, .no, .ro⟩, ⟨0x2910, 1, 1, .dom, .no, .wo⟩,
   ⟨0x2910, 2, 2, .u32, .no, .ro⟩, ⟨0x2910, 3, 3, .u32, .no, .wo⟩, ⟨0x2910, 4, 5, .u32, .no, .ro⟩,
   ⟨0x2920, 1, 1, .u16, .no, .ro⟩, ⟨0x2920, 2, 2, .dom, .no, .ro⟩, ⟨0x2920, 3, 3, .dom, .no, .const⟩,
   ⟨0x2920, 4, 4, .u32, .no, .ro⟩]

/-- R447, R454, R471, R498, R502, R505, R511, R529. -/
def objRowsRest : List ORow :=
  [⟨0x2A00, 1, 16, .u64, .ro, .ro⟩, ⟨0x2A00, 17, 17, .u64, .no, .ro⟩, ⟨0x2A00, 18, 18, .u8, .wo, .wo⟩,
   ⟨0x2A00, 19, 19, .u64, .ro, .ro⟩, ⟨0x2A10, 1, 7, .u32, .ro, .ro⟩, ⟨0x2A20, 1, 1, .u32, .rw, .rw⟩,
   ⟨0x2A20, 2, 2, .dom, .ro, .ro⟩, ⟨0x2A20, 3, 3, .u64, .rw, .rw⟩, ⟨0x2A20, 4, 4, .u8, .rw, .rw⟩,
   ⟨0x2B00, 1, 1, .u64, .rw, .no⟩, ⟨0x2B00, 2, 2, .u8, .rw, .no⟩, ⟨0x2B01, 1, 1, .u64, .ro, .ro⟩,
   ⟨0x2B20, 1, 4, .u64, .rw, .rw⟩, ⟨0x2B20, 5, 5, .u32, .wo, .wo⟩, ⟨0x2B20, 6, 6, .u32, .ro, .ro⟩,
   ⟨0x2C00, 1, 1, .u8, .ro, .ro⟩, ⟨0x2C00, 2, 2, .u32, .no, .ro⟩, ⟨0x2C10, 1, 1, .u32, .no, .rw⟩,
   ⟨0x2C10, 2, 2, .u8, .no, .rw⟩, ⟨0x2C10, 3, 3, .u32, .ro, .ro⟩, ⟨0x2C10, 4, 4, .u8, .no, .wo⟩,
   ⟨0x2C20, 1, 1, .u32, .no, .wo⟩, ⟨0x2C20, 2, 2, .u32, .no, .ro⟩, ⟨0x2C21, 1, 64, .u64, .no, .ro⟩,
   ⟨0x2C30, 1, 1, .dom, .no, .wo⟩, ⟨0x2C30, 2, 2, .u32, .no, .ro⟩, ⟨0x2C30, 3, 3, .u8, .no, .wo⟩,
   ⟨0x2D00, 1, 8, .u16, .no, .rw⟩, ⟨0x2D00, 9, 9, .u8, .no, .ro⟩, ⟨0x2D00, 10, 11, .u8, .no, .rw⟩,
   ⟨0x2D00, 12, 12, .u16, .no, .rw⟩, ⟨0x2D00, 13, 13, .u64, .no, .ro⟩, ⟨0x2D00, 14, 14, .u32, .no, .ro⟩,
   ⟨0x2D00, 15, 15, .u8, .no, .ro⟩, ⟨0x3000, 1, 11, .u8, .ro, .ro⟩]

/-- Every listed object (R497). -/
def objRows : List ORow := objRowsCia ++ objRowsModule ++ objRowsFabric ++ objRowsSec ++ objRowsRest

/-- The index that stands for a family of indices of one layout: TPDOs, host-link ports, Tyduem ports, freeze tables,
Frames. -/
def objBase (i : Nat) : Nat :=
  if 0x1800 ≤ i ∧ i ≤ 0x1803 then 0x1800 else if 0x1A00 ≤ i ∧ i ≤ 0x1A03 then 0x1A00
  else if 0x2400 ≤ i ∧ i ≤ 0x2401 then 0x2400 else if 0x2510 ≤ i ∧ i ≤ 0x2515 then 0x2510
  else if 0x2820 ≤ i ∧ i ≤ 0x282F then 0x2820
  else if 0x3000 ≤ i ∧ i < 0x3000 + 48 * 0x40 ∧ i % 0x40 = 0 then 0x3000
  else i

/-- Rows of an index. -/
def objOf (i : Nat) : List ORow := objRows.filter (fun r => r.idx = objBase i)

/-- The row of an index and subindex. Subindex 0 of an index that lists none is its highest subindex, const, open to any
role that holds access to some subindex (R474). -/
def objRow (i sub : Nat) : Option ORow :=
  let rs := objOf i
  match rs.find? (fun r => r.lo ≤ sub && sub ≤ r.hi) with
  | some r => some r
  | none =>
    if sub = 0 ∧ !rs.isEmpty then
      some ⟨i, 0, 0, .u8, if rs.any (fun r => r.t != .no) then .const else .no, if rs.any (fun r => r.o != .no) then .const else .no⟩
    else none

/-- Highest subindex of an index (R474). -/
def objHigh (i : Nat) : Nat := ((objOf i).map (·.hi)).foldl max 0

/-! Paths and instances -/

/-- A tenant's path: its context. -/
def pathCtx : Path → Option Nat
  | .tenant n => some n
  | _ => none
/-- Instance number of what is kept per path and per context (R409, R475, R492, R502, R511). -/
def pathInst : Path → Nat
  | .tenant n => n + 1
  | .mgmt => 17
  | .hl p => 18 + p
  | .jtag => 20
/-- `CTX_SEL` of an operator path (R476). -/
def State.ctxSel (s : State) (p : Path) : Nat := s.obj (pathInst p) 0x2091 3 0
/-- Objects kept per path and per context. -/
def perPath (idx sub : Nat) : Bool :=
  idx = 0x2090 || (idx = 0x2091 && sub != 2) || idx = 0x2A20 || idx = 0x2B20 || (idx = 0x2900 && (sub = 4 || sub = 5))
/-- Objects of a context with no context number in index or subindex (R475). -/
def perCtx (idx : Nat) : Bool := idx = 0x2710 || idx = 0x2730 || idx = 0x2740 || idx = 0x2B00
/-- The instance an access reaches. -/
def State.instOf (s : State) (p : Path) (idx sub : Nat) : Nat :=
  if perPath idx sub then (pathInst p)
  else if perCtx idx then match p with | .tenant n => n + 1 | _ => s.ctxSel p % 16 + 1
  else 0
/-- A tenant reaches only its own context's instance (R475). -/
def ownInst (p : Path) (idx sub : Nat) : Bool :=
  match p with
  | .tenant n =>
    let bySub := [0x2610, 0x2700, 0x2720, 0x2721, 0x2801, 0x2802, 0x2803, 0x2804, 0x2805, 0x2806, 0x2807, 0x2A00]
    if sub = 0 then (if 0x2820 ≤ idx ∧ idx ≤ 0x282F then idx = 0x2820 + n else true)
    else if 0x2820 ≤ idx ∧ idx ≤ 0x282F then idx = 0x2820 + n
    else if idx = 0x2721 ∧ 17 ≤ sub then sub = 17 + n
    else if bySub.contains idx ∧ sub ≤ 16 then sub = n + 1
    else true
  | _ => true

/-! Refusals -/

/-- Why an access is refused: fault code, SDO abort code, and the Comb the refusing rule names (R490). -/
structure Refuse where
  code : W16
  abort : W32
  comb : Option Nat := none
  deriving DecidableEq, Repr

def noIndex : Refuse := ⟨0xC00B, 0x06020000, none⟩
def noSub : Refuse := ⟨0xC00B, 0x06090011, none⟩
def noAccess : Refuse := ⟨0xC00C, 0x06010000, none⟩
def notWritable : Refuse := ⟨0xC00C, 0x06010002, none⟩
def notReadable : Refuse := ⟨0xC00C, 0x06010001, none⟩
def badLength : Refuse := ⟨0xC00D, 0x06070010, none⟩
def badValue : Refuse := ⟨0xC00D, 0x06090030, none⟩
def badState : Refuse := ⟨0xC00E, 0x08000022, none⟩
/-- A code that the refusing rule names itself. -/
def ownCode (c : W16) : Refuse := ⟨c, 0x08000020, none⟩

/-- The role's access to a row. -/
def ORow.acc (r : ORow) (p : Path) : Acc := match p with | .tenant _ => r.t | _ => r.o

/-- `MOD_STAGE` (R471). -/
def State.stage (s : State) : Nat := s.obj 0 0x2C00 1 0

/-- Objects that need a powered Frame (R478): reservations, context objects, diagonal windows, epochs, Forager rings,
`SL_RX` and `PB_RUN`. -/
def needsFrame (idx sub : Nat) : Bool :=
  [0x2610, 0x2700, 0x2710, 0x2720, 0x2721, 0x2730, 0x2740].contains idx || (idx = 0x2910 && sub = 3)

/-- The dictionary holds the object at all in this state: ROM recovery, Standby and Trip (R478). -/
def State.objOpen (s : State) (p : Path) (idx sub : Nat) : Bool :=
  if s.stage = 6 then
    p = .mgmt && ((idx = 0x2C00 && sub = 1) || (idx = 0x2C30 && (sub = 1 || sub = 2)) || idx = 0x2091 || decide (0x1000 ≤ idx ∧ idx ≤ 0x1FFF))
  else !(needsFrame idx sub && (s.pwrState = 0 || s.pwrState = 4))

/-- The selected context of an operator path is valid for this object (R476). -/
def State.selOk (s : State) (p : Path) (idx : Nat) : Bool :=
  match p with
  | .tenant _ => true
  | _ => if perCtx idx then bit (s.ctxSel p) 4 && (s.ctx (s.ctxSel p % 16)).st != 0 else true

/-- The debug objects need a grant: the module's for an operator path and JTAG, the tenant's for a context (R386, R510). -/
def State.dbgOpen (s : State) : Path → Bool
  | .tenant n => (s.ctx n).tdbg && (s.ctx n).resident
  | _ => match s.grant with | some g => !g.pending | none => false

/-- Decide an access up to its value, in the order of R490. -/
def State.objCheck (s : State) (p : Path) (idx sub : Nat) (wr : Bool) : Except Refuse ORow :=
  if (objOf idx).isEmpty then .error noIndex else
  match objRow idx sub with
  | none => .error noSub
  | some r =>
    let a := r.acc p
    if a = .no ∨ !(ownInst p idx sub) then .error noAccess
    else if wr ∧ (a = .ro ∨ a = .const) then .error notWritable
    else if !wr ∧ a = .wo then .error notReadable
    else if idx = 0x2B20 ∧ sub ≠ 0 ∧ !(s.dbgOpen p) then .error (ownCode 0x800A)
    else .ok r

/-! Value ranges: the stated range of each rw object, and its reserved bits -/

/-- R427, R428: three different classes. -/
def prioOk (v : Nat) : Bool :=
  let a := v % 4
  let b := v / 4 % 4
  let c := v / 16 % 4
  decide (v < 64 ∧ a < 3 ∧ b < 3 ∧ c < 3 ∧ a ≠ b ∧ b ≠ c ∧ a ≠ c)
/-- The variant's numbers (R3): sustained cap in W, ceiling in MHz. -/
def capW : Nat := match Config.variant.val with | 0 => 30000 | 1 => 25000 | _ => 20000
def ceilingMHz : Nat := match Config.variant.val with | 0 => 4800 | 1 => 4200 | _ => 3600
/-- The pin offers the function (R527). -/
def funcOk (n f : Nat) : Bool :=
  f < 2 || (f = 2 && n < 2) || ((f = 3 || f = 4) && 2 ≤ n && n ≤ 5) || (f = 5 && n = 6) || (f = 6 && n = 7)

/-- The value lies in the object's stated range with no reserved bit set; objects not named here take any value of their
width, or are checked by their own rule. -/
def objRange (idx sub v : Nat) : Bool :=
  match objBase idx with
  | 0x1800 => if sub = 2 then v = 254 || v = 255 else if sub = 5 then 1 ≤ v else true
  | 0x2010 => if sub = 1 then 1 ≤ v && v ≤ 127 else if sub = 4 then 1 ≤ v && v ≤ 3 else v ≤ 1
  | 0x2091 => v < 32
  | 0x2100 => if sub = 4 then 4000 ≤ v && v ≤ capW else if sub = 7 then prioOk v
              else if sub = 9 then 100 ≤ v && v ≤ 60000 else true
  | 0x2200 => 70 ≤ v && v ≤ 92
  | 0x2300 => if sub = 1 then [2400, 3000, 3600, 4200, 4800].contains v && decide (v ≤ ceilingMHz)
              else if sub = 3 then v ≤ 2 else if sub = 8 then v < 128 && v % 16 ≤ 8 && v / 16 ≤ 6 else v ≤ 1
  | 0x2500 => if sub = 1 then 1 ≤ v && v ≤ 75 else if sub = 2 then 5 ≤ v && v ≤ 75 else v < 4
  | 0x2501 => fld v 1 7 = 0 && fld v 15 17 = 0 && 8 ≤ fld v 8 7 && fld v 8 7 ≤ 96
  | 0x2610 => !bit v 7 && !bit v 15 && fld v 23 7 = 0 && fld v 0 7 ≤ 125 && fld v 16 7 ≤ 80
  | 0x2701 => if sub = 1 then 10 ≤ v && v ≤ 180 else true
  | 0x2740 => v ≤ 4
  | 0x2810 => v < 4
  | 0x2900 => if sub = 4 then v < 4096 else true
  | 0x2910 => if sub = 3 then v < 2 ^ 21 else true
  | 0x2A20 => if sub = 1 then fld v 30 2 = 0 else if sub = 4 then v = 0 else true
  | 0x2B00 => if sub = 2 then v < 64 else true
  | 0x2B20 => if sub = 3 then v < 2 ^ 38 else if sub = 5 then v < 2 ^ 28 && fld v 26 2 ≠ 3 else true
  | 0x2C10 => if sub = 1 then fld v 28 3 = 0 else if sub = 2 then 30 ≤ v && v ≤ 120 else true
  | 0x2C20 => v < 2 ^ 23
  | 0x2D00 => if sub ≤ 8 then v < 32 && funcOk (sub - 1) (v % 8) else if sub = 10 then v < 4 else if sub = 11 then v < 32
              else if sub = 12 then 1 ≤ v && v ≤ 1000 else true
  | _ => true

/-! The decision of a write -/

/-- What the effect of an object's own rule answers: accepted, or a refusal, and the state (a refused write may still
leave a result object or use up a challenge). -/
abbrev Eff := State → Option Refuse × State

/-- An effect that is always accepted. -/
def Eff.ok (f : State → State) : Eff := fun s => (none, f s)

/-- Record a refusal in the path's `LAST_REFUSAL`; codes 0xC00B to 0xC00E, and 0x800A, enter the error log with `SEV` 2 (R490, R491,
R510).
A tenant sees the Comb in virtual coordinates. -/
def State.refused (s : State) (p : Path) (idx sub : Nat) (r : Refuse) : State :=
  let cf := match r.comb with
    | none => 0
    | some c => match p with
      | .tenant n => (cxOf c - (s.ctx n).x0) * 16 + (cyOf c - (s.ctx n).y0)
      | _ => combField c
  let s1 := s.setObj (pathInst p) 0x2091 1 (idx % 65536 + sub % 256 * 2 ^ 16 + r.code.toNat * 2 ^ 32 + cf * 2 ^ 48)
  if (0xC00B#16 ≤ r.code ∧ r.code ≤ 0xC00E#16) ∨ r.code = 0x800A#16 then
    s1.report ⟨r.code, 2, (pathCtx p), 7, (r.comb).getD 0, 0, s.faultEpoch (pathCtx p), 0, BitVec.ofNat 64 (idx % 65536 + sub % 256 * 2 ^ 16)⟩
  else s1

/-- Decide a write of `v`: R490's tests in their order, then the effect of the object's own rule (R473, R490). -/
def State.objPut (s : State) (p : Path) (idx sub : Nat) (v : W64) (eff : Eff) : Option Refuse × State :=
  match s.objCheck p idx sub true with
  | .error r => (some r, s.refused p idx sub r)
  | .ok row =>
    if row.ty.isDom then (some notWritable, s.refused p idx sub notWritable)
    else if 2 ^ row.ty.width ≤ v.toNat then (some badLength, s.refused p idx sub badLength)
    else if !(objRange idx sub v.toNat) then (some badValue, s.refused p idx sub badValue)
    else if !(s.objOpen p idx sub) ∨ !(s.selOk p idx) then (some badState, s.refused p idx sub badState)
    else match eff s with
      | (none, s1) => (none, s1)
      | (some r, s1) => (some r, s1.refused p idx sub r)

/-- Decide a write of a DOMAIN object, as one commit (R488, R489). -/
def State.domPut (s : State) (p : Path) (idx sub : Nat) (eff : Eff) : Option Refuse × State :=
  match s.objCheck p idx sub true with
  | .error r => (some r, s.refused p idx sub r)
  | .ok row =>
    if !row.ty.isDom then (some badLength, s.refused p idx sub badLength)
    else if !(s.objOpen p idx sub) then (some badState, s.refused p idx sub badState)
    else match eff s with
      | (none, s1) => (none, s1)
      | (some r, s1) => (some r, s1.refused p idx sub r)

/-- Code of an answer: 0 for an accepted write. -/
def refCode : Option Refuse → W16
  | none => 0
  | some r => r.code

/-- The path answers now: the Keeper's firmware runs, or for the Management Port the boot ROM (R449, R450); a host-link port is
up and carries requests (R342, R366). -/
def State.pathOpen (s : State) (p : Path) : Bool :=
  match p with
  | .mgmt => s.boot.fw || s.stage = 6
  | .hl k => s.boot.fw && (s.hlp k).st = 2 && (!(s.hlp k).ideReq || (s.hlp k).ideOn)
  | _ => s.boot.fw
/-- A request that the path does not answer: one that lacks the IDE stream it needs is logged (R366). -/
def State.unanswered (s : State) (p : Path) : State :=
  match p with
  | .hl k => if s.boot.fw && (s.hlp k).st = 2 then s.report ⟨0x800B#16, 2, none, 6, 0, k, 0, 0, 0⟩ else s
  | _ => s

/-- A write of a scalar object and its answer. -/
def State.writeAnswer (s : State) (p : Path) (idx sub : Nat) (v : W64) (eff : Eff) : State :=
  if !(s.pathOpen p) then s.unanswered p else
  let r := s.objPut p idx sub v eff
  r.2.out (.answer p idx sub (refCode r.1) 0)

/-- A write of a DOMAIN object and its answer. -/
def State.domAnswer (s : State) (p : Path) (idx sub : Nat) (eff : Eff) : State :=
  if !(s.pathOpen p) then s.unanswered p else
  let r := s.domPut p idx sub eff
  r.2.out (.answer p idx sub (refCode r.1) 0)

/-- What a read of an object gives: a scalar value, or bytes. -/
inductive ODat where
  | val (v : W64)
  | bytes (b : List Byte)
  deriving DecidableEq, Repr

/-- What a read does: its refusal or its data, and the state (a read may draw a challenge or remove a record). -/
abbrev Rd := State → Except Refuse ODat × State

/-- Decide a read, in the order of R490, then what the object's own rule gives. -/
def State.objGet (s : State) (p : Path) (idx sub : Nat) (rd : Rd) : Except Refuse ODat × State :=
  match s.objCheck p idx sub false with
  | .error r => (.error r, s.refused p idx sub r)
  | .ok _ =>
    if !(s.objOpen p idx sub) ∨ !(s.selOk p idx) then (.error badState, s.refused p idx sub badState)
    else match rd s with
      | (.ok d, s1) => (.ok d, s1)
      | (.error r, s1) => (.error r, s1.refused p idx sub r)

/-- A read and its answer; a frozen master's data read as zeros where its entry is not open (R380). -/
def State.readAnswer (s : State) (p : Path) (idx sub : Nat) (rd : Rd) : State :=
  if !(s.pathOpen p) then s.unanswered p else
  match s.objGet p idx sub rd with
  | (.ok (.val v), s1) => s1.out (.answer p idx sub 0 v)
  | (.ok (.bytes b), s1) => s1.out (.answerBytes p idx sub 0 b)
  | (.error r, s1) => s1.out (if r.code = 0x8008#16 then .answerBytes p idx sub r.code (List.replicate 256 0) else .answer p idx sub r.code 0)

/-- Store the value of an object in its instance. -/
def State.storeObj (s : State) (p : Path) (idx sub : Nat) (v : W64) : State := s.setObj (s.instOf p idx sub) idx sub v.toNat

end Sys2Proof.Machine
end

