-- ==== Sys2Proof/Machine/EngReg.lean ====
section
/-! DEFINITION. The Engine's control port, its registers and its gather port (R67-R73, R76, R116). -/

namespace Sys2Proof.Machine

open Sys2Proof

/-! Fields of a Clause (R89) used by the port; the rest stand in EngDesc -/

def clOpcode (v : Nat) : Nat := fld v 0 8
def clGroups (v : Nat) : Nat := fld v 48 11

/-- A Clause is running, in Fallback or not (R73). -/
def Engine.busy (e : Engine) : Bool := e.active.isSome
/-- The slot has stopped at a fault (R77). -/
def Engine.stoppedAt (e : Engine) (sl : Nat) : Option Nat :=
  match (tget {} e.runs sl).phase with | .stopped st => some st | _ => none

/-- A fault of the port: kept in `GQ_FAULT` with its group and in `LAST_FAULT`; no slot stops (R70). -/
def Engine.portFault (e : Engine) (code : W16) (g : Nat) : Engine :=
  { e with gqFault := BitVec.ofNat 32 (code.toNat + g * 65536), lastFault := code }

/-- Discard the queued entries, closes and counts of groups below `n` (R69, R116). -/
def Engine.dropGroups (e : Engine) (n : Nat) (entries : Bool) : Engine :=
  { e with gq := if entries then e.gq.filter (fun q => decide (n ≤ q.group)) else e.gq
           closes := e.closes.filter (fun c => decide (n ≤ c.1))
           consumed := e.consumed.filter (fun c => decide (n ≤ c.1)) }

/-- `SKIP`: the faulted Clause retires without its counter increment (R116). -/
def Engine.skip (e : Engine) (sl : Nat) : Engine :=
  match e.stoppedAt sl with
  | none => e
  | some _ =>
    let v := wnum (tget {} e.runs sl).cl
    let e1 := if clOpcode v = 3 then e.dropGroups (clGroups v) true else e
    { e1 with runs := tdel e1.runs sl, cqHead := tset 0 e1.cqHead sl (tget 0 e1.cqHead sl + 1)
              active := if e1.active = some sl then none else e1.active
              outQ := if e1.active = some sl then [] else e1.outQ, pairCrc := [] }

/-- `RETRY`: after `STATUS` 1 the Clause starts afresh; after `STATUS` 2 it resumes at the faulted tile, with
`SCRATCH_SIZE` and C's `ROWS_M1` read again (R116). `fresh` holds those two. -/
def Engine.retry (e : Engine) (sl : Nat) (scr rowsM1 : Nat) : Engine :=
  match e.stoppedAt sl with
  | none => e
  | some st =>
    if st = 1 then { e with runs := tdel e.runs sl }
    else
      let r := tget {} e.runs sl
      let v := wnum r.cl
      let v' := v - fld v 352 26 * 2 ^ 352 + scr % 2 ^ 26 * 2 ^ 352
      let c := wnum r.c
      let c' := c - fld c 32 24 * 2 ^ 32 + rowsM1 % 2 ^ 24 * 2 ^ 32
      { e with runs := tput e.runs sl { r with phase := .nextTile, fault := 0, cl := words32 (leBytes 64 v'), c := words32 (leBytes 32 c') } }

/-- `SLOT_READY`: the slot has a Clause at its head (R73). -/
def Engine.hasClause (e : Engine) (sl : Nat) : Bool := tget 0 e.cqTail sl != tget 0 e.cqHead sl && tget 0 e.cqSize sl != 0

/-- Paired mode is enabled and in force: neither Engine of the pair is in Fallback (R73, R83). -/
def Area.pairedOn (a : Area) : Bool := a.eng.pairCtl.toNat % 2 = 1

/-- `ENG_STATUS`; `partnerFb`: the partner is in Fallback (R73). -/
def Engine.status (e : Engine) (partnerFb : Bool) : Nat :=
  let paired := e.pairCtl.toNat % 2 = 1
  let unch := paired && (e.fallback || partnerFb)
  b2n e.fallback + 2 * b2n (paired && !unch) + 4 * b2n unch
  + ((List.range 4).map (fun i => b2n (e.hasClause i) * 2 ^ (4 + i))).foldl (· + ·) 0
  + ((List.range 4).map (fun i => b2n (tget false e.frozen i) * 2 ^ (8 + i))).foldl (· + ·) 0
  + (match e.active with | some sl => sl * 2 ^ 12 | none => 0) + 2 ^ 14 * b2n e.busy + e.lastFault.toNat * 65536

/-- The partner Comb of a pair (R80). -/
def partnerOf (c : Nat) : Nat := if cyOf c % 2 = 0 then c + 40 else c - 40

/-- Read a register: no side effect; write-only and unlisted ones read 0 (R72). -/
def Engine.readReg (e : Engine) (partnerFb : Bool) (i : Nat) : W32 :=
  if 4 ≤ i ∧ i < 8 then tget 0 e.cqHead (i - 4)
  else if 8 ≤ i ∧ i < 12 then tget 0 e.cqBase (i - 8)
  else if 12 ≤ i ∧ i < 16 then tget 0 e.cqSize (i - 12)
  else if 16 ≤ i ∧ i < 20 then tget 0 e.xbias (i - 16)
  else if 24 ≤ i ∧ i < 28 then tget 0 e.slotFault (i - 24)
  else if i = 0x21 then BitVec.ofNat 32 e.gq.length
  else if i = 0x22 then e.gqPub
  else if i = 0x23 then e.gqFault
  else if i = 0x30 then BitVec.ofNat 32 (e.status partnerFb)
  else if i = 0x31 then e.pairCtl
  else 0

/-- A ring size is 0 or a power of two from 2 to 4,096 (R72). -/
def cqSizeOk (v : Nat) : Bool := v = 0 || ((List.range 12).map (fun k => 2 ^ (k + 1))).contains v
/-- The ring lies inside Comb Memory (R72). -/
def ringOk (base size : Nat) : Bool := decide (base + 64 * size ≤ 0x3000000)
/-- A pair of biases holds no -128 and no reserved bit (R72). -/
def xbiasOk (v : Nat) : Bool := decide (v < 65536 ∧ v % 256 ≠ 128 ∧ v / 256 % 256 ≠ 128)
def gqPubOk (v : Nat) : Bool :=
  fld v 26 5 = 0 && fld v 0 26 % 4 = 0 && (!bit v 31 || decide (fld v 0 26 ≤ 0x2FFFFFC))

/-- A doorbell (R76): none: refused with 0x4105. -/
def Engine.doorbell (e : Engine) (sl : Nat) (v : W32) : Option Engine :=
  let h := tget 0 e.cqHead sl
  let d := (v - h).toNat
  if d > (tget 0 e.cqSize sl).toNat ∨ d < (tget 0 e.cqTail sl - h).toNat then none
  else some { e with cqTail := tset 0 e.cqTail sl v }

/-- A close word (R69): none: refused with 0x4103. -/
def Engine.close (e : Engine) (g n : Nat) : Option Engine :=
  match tget none e.closes g with
  | some _ => none
  | none => if n < tget 0 e.consumed g then none else some { e with closes := tput e.closes g (some n) }

/-- What `SLOT_CTL` needs from memory for a `RETRY`: the Clause's `SCRATCH_SIZE` and C's `ROWS_M1` as they stand now. -/
def Area.retryWords (a : Area) (sl : Nat) : Nat × Nat :=
  let e := a.eng
  let head := (tget 0 e.cqHead sl).toNat
  let off := (tget 0 e.cqBase sl).toNat + 64 * (head % max 1 (tget 0 e.cqSize sl).toNat)
  let cl := leNat (cellsRead a.mem.bytes off 64)
  let cd := fld (wnum (tget {} e.runs sl).cl) 160 26
  (fld cl 352 26, fld (leNat (cellsRead a.mem.bytes cd 32)) 32 24)

/-- A write of the port's register `i` (R70, R72, R76, R116): the Engine afterwards and, where the write is discarded,
its code and group. -/
def Area.engWrite (a : Area) (i : Nat) (ws : List W32) : Engine × Option (W16 × Nat) :=
  let e := a.eng
  let bad (c : W16) (g : Nat) : Engine × Option (W16 × Nat) := (e.portFault c g, some (c, g))
  let v := lget 0 ws 0
  let n := v.toNat
  let sl := i % 4
  if ws.length ≠ (if i = 0x20 then 2 else 1) then bad 0x4104#16 0
  else if i < 4 then (match e.doorbell sl v with | some e => (e, none) | none => bad 0x4105#16 0)
  else if 8 ≤ i ∧ i < 12 then
    (if n < 2 ^ 26 ∧ n % 64 = 0 ∧ ((tget 0 e.cqSize sl).toNat = 0 ∨ ringOk n (tget 0 e.cqSize sl).toNat)
     then ({ e with cqBase := tset 0 e.cqBase sl v }, none) else bad 0x4104#16 0)
  else if 12 ≤ i ∧ i < 16 then
    (if cqSizeOk n ∧ (n = 0 ∨ ringOk (tget 0 e.cqBase sl).toNat n) then ({ e with cqSize := tset 0 e.cqSize sl v }, none)
     else bad 0x4104#16 0)
  else if 16 ≤ i ∧ i < 20 then (if xbiasOk n then ({ e with xbias := tset 0 e.xbias sl v }, none) else bad 0x4104#16 0)
  else if 20 ≤ i ∧ i < 24 then
    (if n = 1 then (e.skip sl, none)
     else if n = 2 then (let r := a.retryWords sl; (e.retry sl r.1 r.2, none))
     else if n = 0 then (e, none) else bad 0x4104#16 0)
  else if i = 0x20 then
    (let w1 := (lget 0 ws 1).toNat
     if n ≥ 1024 ∨ w1 ≥ 2 ^ 24 then bad 0x4104#16 0
     else match e.close n w1 with | some e => (e, none) | none => bad 0x4103#16 n)
  else if i = 0x22 then (if gqPubOk n then ({ e with gqPub := v }, none) else bad 0x4104#16 0)
  else bad 0x4104#16 0

/-- Land a register write on the control port of the area that context `n` owns on Comb `c` (R264, R268); a discarded
write reaches the context as an event (R70). -/
def State.engPortWrite (s : State) (n : Option Nat) (c i : Nat) (ws : List W32) : State :=
  let a := s.areaAt n c
  let r := a.engWrite i ws
  let s1 := s.setAreaAt n c { a with eng := r.1 }
  match r.2 with
  | none => s1
  | some (code, _) => s1.event n code c (masterField (.engine c 0)) 0

/-- A tuple reaches the gather port (R68, R70): refused with 0x4104 for a reserved field and with 0x4101 once the
group's close count is reached. Words that the message omits read as 0 (R67). -/
def Engine.gather (e : Engine) (g : Nat) (ws : List W32) : Engine × Option W16 :=
  let w := lfit 0 4 ws
  let bad := decide ((lget 0 w 0).toNat ≥ 2 ^ 24 ∨ (lget 0 w 2).toNat ≥ 2 ^ 27 ∨ (lget 0 w 3).toNat ≥ 2 ^ 24)
  let queued := (e.gq.filter (fun q => q.group = g)).length
  match tget none e.closes g with
  | some n =>
    if bad then (e.portFault 0x4104#16 g, some 0x4104#16)
    else if n ≤ tget 0 e.consumed g + queued then (e.portFault 0x4101#16 g, some 0x4101#16)
    else ({ e with gq := e.gq ++ [⟨g, w⟩] }, none)
  | none => if bad then (e.portFault 0x4104#16 g, some 0x4104#16) else ({ e with gq := e.gq ++ [⟨g, w⟩] }, none)

/-! The port's commands. The writer is the context resident on the Comb. -/

def execCqTailDoorbell (c sl : Nat) (v : W32) (s : State) : Res :=
  onUnit (isComb c && decide (sl < 4)) (s.engPortWrite (s.residentAt c) c sl [v])
def execSlotCtlSkip (c sl : Nat) (s : State) : Res :=
  onUnit (isComb c && decide (sl < 4)) (s.engPortWrite (s.residentAt c) c (20 + sl) [1])
def execSlotCtlRetry (c sl : Nat) (s : State) : Res :=
  onUnit (isComb c && decide (sl < 4)) (s.engPortWrite (s.residentAt c) c (20 + sl) [2])
def execGqClose (c : Nat) (w0 w1 : W32) (s : State) : Res :=
  onUnit (isComb c) (s.engPortWrite (s.residentAt c) c 0x20 [w0, w1])
def execRegisterWrite (c i : Nat) (ws : List W32) (s : State) : Res :=
  onUnit (isComb c) (s.engPortWrite (s.residentAt c) c i ws)

/-- The Keeper writes `PAIR_CTL` of both Engines of a pair; reserved bits are ignored (R7, R72, R80). -/
def execPairCtlWrite (c : Nat) (v : W32) (s : State) : Res :=
  onUnit (isComb c)
    (let w : W32 := v &&& 1
     let s1 := s.setEng c { s.eng c with pairCtl := w }
     s1.setEng (partnerOf c) { s1.eng (partnerOf c) with pairCtl := w })

/-- Publish the occupancy of the gather port (R71). -/
def State.gqPublish (s : State) (c : Nat) : State :=
  let e := s.eng c
  let v := e.gqPub.toNat
  if bit v 31 then
    let n := s.residentAt c
    (s.performWrite n c 0 (fld v 0 26) (leBytes 4 e.gq.length) (s.epLow n)).1
  else s
def execGqOccPublish (c : Nat) (s : State) : Res := onUnit (isComb c) (s.gqPublish c)

end Sys2Proof.Machine
end

