-- ==== Sys2Proof/Machine/EngDesc.lean ====
section
/-! DEFINITION. Clauses and matrix descriptors: fields, geometry, the checks at a Clause's start, storage of dense,
structured and row-list operands, and their metadata checks (R55-R62, R89-R101, R111, R113, R118-R128, R136-R138). -/

namespace Sys2Proof.Machine

open Sys2Proof

/-! Clause fields (R89) -/

def clPasses (v : Nat) : Nat := fld v 8 2
def clWalk (v : Nat) : Nat := fld v 10 2
def clTA (v : Nat) : Bool := bit v 12
def clTB (v : Nat) : Bool := bit v 13
def clAccInit (v : Nat) : Bool := bit v 14
def clPrune (v : Nat) : Nat := fld v 15 2
def clRoute (v : Nat) : Nat := fld v 17 3
def clMirCnt (v : Nat) : Nat := fld v 20 3
def clMirIdx (v : Nat) : Nat := fld v 23 3
def clSegMax (v : Nat) : Nat := fld v 32 16
def clTag (v : Nat) : Nat := fld v 64 16
def clRouteArg (v : Nat) : Nat := fld v 80 16
/-- Descriptor-pointer word `i`: 0 A, 1 B, 2 C, 3 CIN, 4 A_LO, 5 B_LO (R90). -/
def clPtr (v i : Nat) : Nat := fld v (96 + 32 * i) 32
def ptrEn (p : Nat) : Bool := bit p 31
def ptrOff (p : Nat) : Nat := p % 2 ^ 26
def clGStride (v : Nat) : Nat := fld v 288 26
def clScrBase (v : Nat) : Nat := fld v 320 26
def clScrSize (v : Nat) : Nat := fld v 352 26
def clCrec (v : Nat) : Nat := fld v 384 26
def clKsegLog (v : Nat) : Nat := fld v 410 5
def clCrecEn (v : Nat) : Bool := bit v 415
def clWaitCtr (v : Nat) : Nat := fld v 416 12
def clWaitEn (v : Nat) : Bool := bit v 428
def clDoneEn (v : Nat) : Bool := bit v 429
def clDoneCtr (v : Nat) : Nat := fld v 432 12
def clWaitVal (v : Nat) : Nat := fld v 448 64

/-! Descriptor fields (R92) -/

def mBase (d : Nat) : Nat := fld d 0 26
def mRows (d : Nat) : Nat := fld d 32 24 + 1
def mFmt (d : Nat) : Nat := fld d 56 4
def mBlk (d : Nat) : Bool := bit d 60
def mSparse (d : Nat) : Nat := fld d 61 2
def mCols (d : Nat) : Nat := fld d 64 24 + 1
def mStride (d : Nat) : Nat := fld d 96 26
def mScale (d : Nat) : Nat := fld d 128 26
def mMeta (d : Nat) : Nat := fld d 160 26
def mMetaEn (d : Nat) : Bool := bit d 191
def mPad (d : Nat) : Nat := fld d 192 32
def mRagged (d : Nat) : Nat := fld d 224 26
def mRagEn (d : Nat) : Bool := bit d 255
/-- Block size. -/
def mG (d : Nat) : Nat := if mBlk d then 16 else 32
def cdiv (a b : Nat) : Nat := (a + b - 1) / b
/-- Values kept of each 8 of a structured form. -/
def keepOf (sp : Nat) : Nat := if sp = 1 then 4 else if sp = 2 then 2 else 8
/-- Stored values of a row (R119). -/
def mKs (d : Nat) : Nat := if mSparse d = 1 ∨ mSparse d = 2 then cdiv (mCols d) 8 * keepOf (mSparse d) else mCols d
/-- Bytes of a stored row: elements in whole blocks (R94, R119), or FP32. -/
def mRowBytes (d : Nat) : Nat := if mFmt d = 8 then 4 * mCols d else cdiv (mKs d) (mG d) * (mG d * fmtW (mFmt d) / 8)
/-- Scales of a row. -/
def mRowScales (d : Nat) : Nat := cdiv (mKs d) (mG d)
/-- Bytes of a row's index string (R120). -/
def mMs (d : Nat) : Nat := 64 * cdiv (3 * mKs d) 512

def Run.v (r : Run) : Nat := wnum r.cl
def Run.da (r : Run) : Nat := wnum r.a
def Run.db (r : Run) : Nat := wnum r.b
def Run.dc (r : Run) : Nat := wnum r.c
def Run.dcin (r : Run) : Nat := wnum r.cin
def Run.dalo (r : Run) : Nat := wnum r.alo
def Run.dblo (r : Run) : Nat := wnum r.blo

/-! Geometry (R55-R62, R95, R97) -/

structure Geo where
  fp4 : Bool
  mult : Nat
  chunk : Nat
  nt : Nat
  mt : Nat
  k : Nat
  n : Nat
  m : Nat
  nk : Nat
  deriving DecidableEq, Repr

/-- Tile geometry of a Clause with descriptors of A and B. -/
def geoOf (v a b : Nat) (paired : Bool) : Geo :=
  let fp4 := mFmt a = 0 && mFmt b = 0
  let mult := 8 / keepOf (mSparse b)
  let base := if fp4 then 2 else 1
  let cols := if clTB v then 64 * base * mult else 64
  let chunk := if clTB v then 64 else 64 * base * mult
  let mt := 16384 / cols
  let k := if clTA v then mRows a else mCols a
  { fp4 := fp4, mult := mult, chunk := chunk, nt := 4 * cols, mt := if paired then mt / 2 else mt, k := k,
    n := if clTB v then mCols b else mRows b, m := if clTA v then mCols a else mRows a, nk := cdiv k chunk }

/-! Checks at a Clause's start (R90, R111, R136) -/

/-- Reserved bits of the Clause, `ROUTE_ARG` by route; a reserved route does not test its argument. -/
def clRsvd (v : Nat) : Bool :=
  fld v 26 6 != 0 || fld v 59 5 != 0 || fld v 314 6 != 0 || fld v 346 6 != 0 || fld v 378 6 != 0 || fld v 430 2 != 0
  || fld v 444 4 != 0 || (List.range 6).any (fun i => fld (clPtr v i) 26 5 != 0)
  || (clRoute v = 0 && clRouteArg v != 0) || (clRoute v = 1 && clRouteArg v / 256 != 0) || (clRoute v = 2 && clRouteArg v / 4 != 0)

/-- Reserved bits of a descriptor; of an input descriptor `PAD`[31:16] too (R92, R100). -/
def dRsvd (input : Bool) (d : Nat) : Bool :=
  fld d 26 6 != 0 || bit d 63 || fld d 88 8 != 0 || fld d 122 6 != 0 || fld d 154 6 != 0 || fld d 186 5 != 0 || fld d 250 5 != 0
  || (input && fld d 208 16 != 0)

/-- The fields of a `CL_NOP` that must be zero (R91). -/
def nopClean (v : Nat) : Bool := fld v 8 56 = 0 && fld v 80 304 = 0 && fld v 410 5 = 0 && fld v 430 2 = 0 && fld v 444 4 = 0

/-- The six descriptors, none where the pointer is not enabled. -/
structure Descs where
  a : Option Nat
  b : Option Nat
  c : Option Nat
  cin : Option Nat
  alo : Option Nat
  blo : Option Nat

def Descs.list (d : Descs) : List (Option Nat) := [d.a, d.b, d.c, d.cin, d.alo, d.blo]

def optAny (o : Option Nat) (p : Nat → Bool) : Bool := match o with | some d => p d | none => false

/-- The pointer test of R90: alignment 0x1005, range 0x1006, pointer by pointer. -/
def ptrFault (v : Nat) : Option W16 :=
  (List.range 6).findSome? (fun i =>
    let p := clPtr v i
    if !ptrEn p then none else if ptrOff p % 32 ≠ 0 then some 0x1005#16 else if ptrOff p + 32 > 0x3000000 then some 0x1006#16 else none)

def fmtOk (d : Nat) : Bool := mFmt d ≤ 2 || mFmt d = 8
def sameForm (x y : Nat) : Bool := mFmt x = mFmt y && mBlk x = mBlk y && mRows x = mRows y && mCols x = mCols y && mSparse x = mSparse y

/-- Order 2 of R111. -/
def formFault (v : Nat) (d : Descs) : Bool :=
  clRsvd v || (d.a :: d.b :: d.cin :: d.alo :: [d.blo]).any (fun o => optAny o (dRsvd true)) || optAny d.c (dRsvd false)
  || (if clOpcode v = 0 then !nopClean v else
      clPrune v = 3 || d.a.isNone || d.b.isNone || d.c.isNone || (clAccInit v != d.cin.isSome)
      || (clOpcode v = 2 && !optAny d.a mRagEn) || (clOpcode v = 1 && clGroups v != 0) || (clOpcode v ≥ 2 && clTA v)
      || (clKsegLog v != 0 && clWalk v != 3))

/-- Orders 3 to 8 of R111, with all required descriptors present. -/
def shapeFault (v a b c : Nat) (d : Descs) : Option W16 :=
  let all := d.list.filterMap id
  let ins := [d.a, d.b, d.alo, d.blo].filterMap id
  let outs := [d.c, d.cin].filterMap id
  if all.any (fun x => !fmtOk x || (mFmt x = 8 && mBlk x) || (mMetaEn x != (mSparse x != 0))) || ins.any (fun x => mFmt x = 8)
     || outs.any (fun x => mFmt x != 8) then some 0x1003#16
  else if mSparse a = 1 || mSparse a = 2 || mSparse b = 3 || optAny d.blo (fun x => mSparse x = 3)
     || optAny d.cin (fun x => mSparse x != 0) || mSparse c != clPrune v || (mSparse a = 3 && (clOpcode v != 1 || clTA v)) then some 0x100F#16
  else if clPasses v = 0 || d.blo.isSome != (clPasses v ≥ 2) || d.alo.isSome != (clPasses v = 3 : Bool)
     || optAny d.alo (fun x => !sameForm a x) || optAny d.blo (fun x => !sameForm b x) then some 0x1007#16
  else if clWalk v = 3 && (clOpcode v != 1 || mSparse a = 3) then some 0x100E#16
  else if clOpcode v ≥ 2 && (clGroups v = 0 || clGroups v > 1024) then some 0x100C#16
  else if (clOpcode v = 3 && (clSegMax v % 4 != 0 || clSegMax v = 0 || clSegMax v > 8192)) || (clOpcode v = 2 && clSegMax v % 4 != 0)
     || (clOpcode v = 1 && clSegMax v != 0 && mSparse a != 3) then some 0x100D#16
  else none

/-- Order 9 of R111. -/
def dimFault (v a b c : Nat) (cin : Option Nat) : Bool :=
  let k := if clTA v then mRows a else mCols a
  let kb := if clTB v then mRows b else mCols b
  let m := if clTA v then mCols a else mRows a
  let n := if clTB v then mCols b else mRows b
  k != kb || mCols c != n || optAny cin (fun x => mCols x != n)
  || (clOpcode v = 1 && (decide (mRows c < m) || optAny cin (fun x => decide (mRows x < m))))

def alignOf (d : Nat) : Nat := if mFmt d = 8 then 1024 else 64

/-- Order 10 of R111; a row-list's `STRIDE` is ignored (R124). -/
def layoutFault (v : Nat) (d : Descs) (n : Nat) : Bool :=
  let all := d.list.filterMap id
  all.any (fun x => mBase x % alignOf x != 0 || (mSparse x != 3 && (mStride x % alignOf x != 0 || decide (mStride x < mRowBytes x)))
    || (mRagEn x && mRagged x % 4 != 0))
  || [d.c, d.cin].any (fun o => optAny o (fun x => decide (mStride x < cdiv n 256 * 1024)))
  || clGStride v % 64 != 0 || clScrBase v % 64 != 0 || clScrSize v % 64 != 0 || (clCrecEn v && clCrec v % 32 != 0)

/-- Byte ranges of a stored operand, its scales and metadata (R94, R119, R120, R124). -/
def operandRanges (d sh : Nat) : List (Nat × Nat) :=
  if mSparse d = 3 then [(mMeta d + sh, 8 * (mRows d + 1))]
  else [(mBase d + sh, (mRows d - 1) * mStride d + mRowBytes d), (mScale d + sh, mRows d * mRowScales d)]
    ++ (if mSparse d = 0 then [] else [(mMeta d + sh, mRows d * mMs d)])

/-- Byte ranges of C or `CIN` with N columns (R96, R133). -/
def outRanges (d n : Nat) : List (Nat × Nat) :=
  (mBase d, (mRows d - 1) * mStride d + cdiv n 256 * 1024)
  :: (if mSparse d = 0 then [] else [(mMeta d, mRows d * (64 * cdiv n 256))])

/-- Order 11 of R111. -/
def footprint (v : Nat) (d : Descs) (n : Nat) : List (Nat × Nat) :=
  let g := if clOpcode v ≥ 2 then (clGroups v - 1) * clGStride v else 0
  (d.a.toList.flatMap (fun x => operandRanges x 0)) ++ (d.alo.toList.flatMap (fun x => operandRanges x 0))
  ++ (d.b.toList.flatMap (fun x => operandRanges x g)) ++ (d.blo.toList.flatMap (fun x => operandRanges x g))
  ++ (d.c.toList.flatMap (fun x => outRanges x n)) ++ (d.cin.toList.flatMap (fun x => outRanges x n))
  ++ (d.list.filterMap id).flatMap (fun x => if mRagEn x then [(mRagged x, 4 * clGroups v)] else [])
  ++ (if clCrecEn v then [(clCrec v, 32)] else []) ++ [(clScrBase v, clScrSize v)]
def rangeFault (rs : List (Nat × Nat)) : Bool := rs.any (fun r => decide (r.1 + r.2 > 0x3000000))

/-- Order 12 of R111. -/
def State.routeFault (s : State) (n : Option Nat) (c v : Nat) (paired : Bool) : Bool :=
  if clRoute v = 0 then false
  else if clRoute v = 1 then decide (clRouteArg v > 4)
  else if clRoute v = 2 then
    match slNeighbour c (clRouteArg v % 4) with
    | none => true
    | some c' => (match n with | some n => !(s.ctx n).covers c' | none => true) || (paired && c' = partnerOf c)
  else true

/-- Order 13 of R111 (R110). -/
def mirrorFault (v : Nat) (gqPub : W32) : Bool :=
  clMirCnt v != 0 && (clOpcode v != 3 || decide (clMirIdx v > clMirCnt v) || !bit gqPub.toNat 31)

/-- R136. -/
def sparseForm (v : Nat) (d : Descs) (n : Nat) : Bool :=
  (d.list.filterMap id).any (fun x => mSparse x != 0 && mMeta x % 64 != 0)
  || [d.b, d.blo].any (fun o => optAny o (fun x => mSparse x != 0 && mCols x % 8 != 0 && decide (mCols x % 8 < keepOf (mSparse x))))
  || (clPrune v != 0 && n % 8 != 0 && decide (n % 8 < keepOf (clPrune v)))

/-- The first condition of R111 and R136 that holds. -/
def State.startFault (s : State) (n : Option Nat) (c v : Nat) (d : Descs) (paired : Bool) (gqPub : W32) : Option W16 :=
  if formFault v d then some 0x1002#16
  else if clOpcode v = 0 then (if clCrecEn v ∧ clCrec v % 32 ≠ 0 then some 0x1005#16 else if clCrecEn v ∧ clCrec v + 32 > 0x3000000 then some 0x1006#16 else none)
  else
    match d.a, d.b, d.c with
    | some a, some b, some cc =>
      let nn := if clTB v then mCols b else mRows b
      match shapeFault v a b cc d with
      | some e => some e
      | none =>
        if dimFault v a b cc d.cin then some 0x1004#16
        else if layoutFault v d nn then some 0x1005#16
        else if rangeFault (footprint v d nn) then some 0x1006#16
        else if s.routeFault n c v paired then some 0x1008#16
        else if mirrorFault v gqPub then some 0x1010#16
        else if sparseForm v d nn then some 0x2001#16
        else none
    | _, _, _ => some 0x1002#16

/-- Bank groups a list of ranges touches. -/
def groupsOf (rs : List (Nat × Nat)) : List Nat :=
  (List.range 32).filter (fun g => rs.any (fun r => decide (r.2 ≠ 0 ∧ r.1 < (g + 1) * 0x180000 ∧ g * 0x180000 < r.1 + r.2)))

/-- Ranges in wide use from a Clause's start (R203): all its operands but A under `CL_GMUL_GATHER`, C only on route 0. -/
def wideRanges (v : Nat) (d : Descs) (n : Nat) : List (Nat × Nat) :=
  let gs := if clOpcode v ≥ 2 then clGroups v else 1
  (if clOpcode v = 3 then [] else (d.a.toList ++ d.alo.toList).flatMap (fun x => operandRanges x 0))
  ++ (List.range gs).flatMap (fun g => (d.b.toList ++ d.blo.toList).flatMap (fun x => operandRanges x (g * clGStride v)))
  ++ (if clRoute v = 0 then d.c.toList.flatMap (fun x => outRanges x n) else [])
  ++ d.cin.toList.flatMap (fun x => outRanges x n) ++ [(clScrBase v, clScrSize v)]

/-! Reading stored operands -/

/-- `w` bits at bit position `p` of the string at byte offset `off` (R38). -/
def PMem.bits (m : PMem) (off p w : Nat) : Nat :=
  fld ((m.byte (off + p / 8)).toNat + 256 * (m.byte (off + p / 8 + 1)).toNat) (p % 8) w
/-- A little-endian 32-bit word. -/
def PMem.w32 (m : PMem) (a : Nat) : Nat := leNat (cellsRead m.bytes a 4)

/-- Element and scale codes of a dense operand at stored row `r`, column `k`, with padding along K (R94, R100). -/
def denseAt (m : PMem) (d sh r k : Nat) : Nat × Nat :=
  let w := fmtW (mFmt d)
  if r ≥ mRows d then (mPad d % 2 ^ w, fld (mPad d) 8 8)
  else
    let sc := (m.byte (mScale d + sh + r * mRowScales d + k / mG d)).toNat
    if k < mCols d then (m.bits (mBase d + sh + r * mStride d) (w * k) w, sc)
    else (mPad d % 2 ^ w, if k / mG d * mG d < mCols d then sc else fld (mPad d) 8 8)

/-- In-group index of stored value `j` of row `r` (R120). -/
def idxAt (m : PMem) (d sh r j : Nat) : Nat := m.bits (mMeta d + sh + r * mMs d) (3 * j) 3
/-- Stored value `j` of row `r`: element and scale codes (R119). -/
def storedAt (m : PMem) (d sh r j : Nat) : Nat × Nat :=
  let w := fmtW (mFmt d)
  (m.bits (mBase d + sh + r * mStride d) (w * j) w, (m.byte (mScale d + sh + r * mRowScales d + j / mG d)).toNat)

/-- Groups of 8 logical columns of a structured row that a column range touches. -/
def groupRange (lo n cols : Nat) : List Nat := ((List.range (cdiv (lo + n) 8 - lo / 8)).map (· + lo / 8)).filter (fun g => decide (8 * g < cols))

/-- The check of one group of a structured row (R121, R123, R137): range, order, the slice's indices. -/
def structGroup (m : PMem) (d : Nat) (lo : Option Nat) (sh r g : Nat) : Option W16 :=
  let n := keepOf (mSparse d)
  let ix := (List.range n).map (fun j => idxAt m d sh r (n * g + j))
  let t := min 8 (mCols d - 8 * g)
  if ix.any (fun i => decide (t ≤ i)) then some 0x2002#16
  else if !((ix.zip (ix.drop 1)).all (fun p => decide (p.1 < p.2))) then some 0x2003#16
  else match lo with
    | some l => if (List.range n).map (fun j => idxAt m l sh r (n * g + j)) = ix then none else some 0x2007#16
    | none => none

/-- Arrays 0 to 3 of an N tile: the columns each holds (R56). -/
def arrayCols (ge : Geo) (nt : Nat) : List (Nat × Nat) := (List.range 4).map (fun a => (nt * ge.nt + a * (ge.nt / 4), ge.nt / 4))

/-- The stored rows and logical columns of chunk `kc`, tile `nt`, array by array (R56, R64). -/
def tileExtents (v b : Nat) (ge : Geo) (nt kc : Nat) : List (List Nat × Nat × Nat) :=
  (arrayCols ge nt).map (fun ac =>
    if clTB v then (((List.range ge.chunk).map (· + kc * ge.chunk)).filter (fun r => decide (r < mRows b)), ac.1, ac.2)
    else (((List.range ac.2).map (· + ac.1)).filter (fun r => decide (r < mRows b)), kc * ge.chunk, ge.chunk))

/-- The first bad group of a structured chunk (R138). -/
def structFault (m : PMem) (v b : Nat) (lo : Option Nat) (sh : Nat) (ge : Geo) (nt kc : Nat) : Option W16 :=
  (tileExtents v b ge nt kc).findSome? (fun e =>
    e.1.findSome? (fun r => (groupRange e.2.1 e.2.2 (mCols b)).findSome? (structGroup m b lo sh r)))

/-- The elements of a weight tile: dense with padding along K, structured with its stored values only (R100, R122). -/
def tileElems (m : PMem) (v b sh : Nat) (ge : Geo) (nt kc : Nat) : List WElem :=
  let ks := (List.range ge.chunk).map (· + kc * ge.chunk)
  let ns := ((List.range ge.nt).map (· + nt * ge.nt)).filter (fun n => decide (n < ge.n))
  if mSparse b = 0 then
    ns.flatMap (fun n => ks.map (fun k =>
      let p := if clTB v then denseAt m b sh k n else denseAt m b sh n k
      (⟨k, n, p.1, p.2⟩ : WElem)))
  else
    let nn := keepOf (mSparse b)
    (tileExtents v b ge nt kc).flatMap (fun e => e.1.flatMap (fun r => (groupRange e.2.1 e.2.2 (mCols b)).flatMap (fun g =>
      (List.range nn).map (fun j =>
        let p := storedAt m b sh r (nn * g + j)
        let col := 8 * g + idxAt m b sh r (nn * g + j)
        if clTB v then (⟨r, col, p.1, p.2⟩ : WElem) else ⟨col, r, p.1, p.2⟩))))

/-! The row-list form (R124-R128, R137, R138) -/

def rlEntry (m : PMem) (d i : Nat) : Nat × Nat := (m.w32 (mMeta d + 8 * i), m.w32 (mMeta d + 8 * i + 4))
def rlWordBase (d : Nat) : Nat := mMeta d + 64 * cdiv (8 * (mRows d + 1)) 64
def rlWordOff (d w : Nat) : Nat := rlWordBase d + 4 * w
def rlWord (m : PMem) (d w : Nat) : Nat := m.w32 (rlWordOff d w)
def maskBits (mask : Nat) : List Nat := (List.range 8).filter (fun t => bit mask t)
/-- Words of row `i`. -/
def rlWords (m : PMem) (d i : Nat) : List Nat :=
  let a := rlEntry m d i
  let b := rlEntry m d (i + 1)
  (List.range (b.1 - a.1)).map (fun j => rlWord m d (a.1 + j))
/-- Columns of row `i`'s entries, ascending. -/
def rlCols (m : PMem) (d i : Nat) : List Nat := (rlWords m d i).flatMap (fun w => (maskBits (fld w 24 8)).map (fun t => 8 * (fld w 0 21) + t))
/-- Entry `j` of the value list: element and scale codes. -/
def rlValue (m : PMem) (d j : Nat) : Nat × Nat :=
  let w := fmtW (mFmt d)
  (m.bits (mBase d) (w * j) w, (m.byte (mScale d + j / mG d)).toNat)
/-- Entries of row `i`: column, element, scale. -/
def rlRow (m : PMem) (d i : Nat) : List (Nat × Nat × Nat) :=
  let v0 := (rlEntry m d i).2
  ((rlCols m d i).zip (List.range (rlCols m d i).length)).map (fun p => let q := rlValue m d (v0 + p.2); (p.1, q.1, q.2))
/-- Pieces of a row of `e` entries (R128). -/
def piecesOf (segMax e : Nat) : Nat := if segMax ≠ 0 ∧ e > segMax then cdiv e segMax else 1

/-- Row by row checks of group words: range, order, count, slice (R137). -/
def rlWordFault (m : PMem) (d : Nat) (lo : Option Nat) (w : Nat) (prev : Option Nat) : Option W16 :=
  if rlWordOff d w + 4 > 0x3000000 then some 0x2005#16 else
  let x := rlWord m d w
  let kg := fld x 0 21
  let mask := fld x 24 8
  if kg ≥ cdiv (mCols d) 8 || (maskBits mask).any (fun t => decide (8 * kg + t ≥ mCols d)) then some 0x2002#16
  else if (match prev with | some p => decide (kg ≤ p) | none => false) then some 0x2003#16
  else if (maskBits mask).length ≠ fld x 21 3 + 1 then some 0x2004#16
  else match lo with | some l => if rlWord m l w = x then none else some 0x2007#16 | none => none

def rlWordsFault (m : PMem) (d : Nat) (lo : Option Nat) : List Nat → Option Nat → Option W16
  | [], _ => none
  | w :: t, prev =>
    match rlWordFault m d lo w prev with
    | some e => some e
    | none => rlWordsFault m d lo t (some (fld (rlWord m d w) 0 21))

/-- The checks of one row (R137, R138). -/
def rlRowFault (m : PMem) (d : Nat) (lo : Option Nat) (segMax mt i : Nat) : Option W16 :=
  let a := rlEntry m d i
  let b := rlEntry m d (i + 1)
  if b.1 < a.1 ∨ b.2 < a.2 ∨ b.1 - a.1 > cdiv (mCols d) 8 then some 0x2005#16
  else if (match lo with | some l => rlEntry m l i != a || rlEntry m l (i + 1) != b | none => false) then some 0x2007#16
  else match rlWordsFault m d lo ((List.range (b.1 - a.1)).map (· + a.1)) none with
    | some e => some e
    | none =>
      let w := fmtW (mFmt d)
      if (rlCols m d i).length ≠ b.2 - a.2 then some 0x2005#16
      else if b.2 ≠ a.2 ∧ (mBase d + (w * b.2 + 7) / 8 > 0x3000000 ∨ mScale d + (b.2 - 1) / mG d ≥ 0x3000000) then some 0x2005#16
      else if piecesOf segMax (b.2 - a.2) > mt then some 0x2006#16
      else none

/-- M tiles of a row-list A: for each tile the (row, piece, pieces) of its positions (R128). -/
def rlPlace (mt : Nat) : List (Nat × Nat) → List (Nat × Nat × Nat) → List (List (Nat × Nat × Nat))
  | [], cur => if cur.isEmpty then [] else [cur]
  | (row, p) :: t, cur =>
    let mine := (List.range p).map (fun q => (row, q, p))
    if cur.length + p > mt ∧ !cur.isEmpty then cur :: rlPlace mt t mine else rlPlace mt t (cur ++ mine)
def rlTiles (m : PMem) (d segMax mt : Nat) : List (List (Nat × Nat × Nat)) :=
  rlPlace mt ((List.range (mRows d)).map (fun i => (i, piecesOf segMax ((rlEntry m d (i + 1)).2 - (rlEntry m d i).2)))) []

end Sys2Proof.Machine
end

