-- ==== Sys2Proof/Machine/EngWalk.lean ====
section
/-! DEFINITION. The tile sequencer's walk: the place of a Clause in it, which unit and tile come next, what a tile needs
of memory, and how a Clause stops (R97-R99, R104-R109, R113-R117, R128, R139, R210, R396, R397). -/

namespace Sys2Proof.Machine

open Sys2Proof

/-! The running Clause -/

/-- The run of a slot. -/
def Engine.run (e : Engine) (sl : Nat) : Run := tget {} e.runs sl
def Engine.setRun (e : Engine) (sl : Nat) (r : Run) : Engine := { e with runs := tput e.runs sl r }
/-- Paired mode is enabled on the Comb (R80). -/
def Engine.pairEn (e : Engine) : Bool := e.pairCtl.toNat % 2 = 1
/-- Paired mode is in force: neither Engine of the pair is in Fallback (R73, R83). -/
def State.pairedIn (s : State) (c : Nat) : Bool := (s.eng c).pairEn && !(s.eng c).fallback && !(s.eng (partnerOf c)).fallback
/-- Geometry of a run; the M tile is halved while paired mode is enabled (R80, log entry 28). -/
def Run.geo (r : Run) (paired : Bool) : Geo := geoOf r.v r.da r.db paired
/-- Byte shift of a group's weights (R105 preamble). -/
def Run.sh (r : Run) : Nat := if clOpcode r.v ≥ 2 then r.group * clGStride r.v else 0
/-- Number of K segments under `KMN` (R99). -/
def Run.nseg (r : Run) (ge : Geo) : Nat := if clWalk r.v = 3 then cdiv ge.nk (2 ^ clKsegLog r.v) else 1

/-- Positions of an M tile: for each the row of the unit, the piece and the number of pieces (R97, R128). -/
def Run.positions (r : Run) (m : PMem) (ge : Geo) (mt : Nat) : List (Nat × Nat × Nat) :=
  if mSparse r.da = 3 then lget [] (rlTiles m r.da (clSegMax r.v) ge.mt) mt
  else ((List.range ge.mt).map (fun p => (mt * ge.mt + p, 0, 1))).filter (fun p => decide (p.1 < r.rows))
def Run.nm (r : Run) (m : PMem) (ge : Geo) : Nat :=
  if mSparse r.da = 3 then (rlTiles m r.da (clSegMax r.v) ge.mt).length else cdiv r.rows ge.mt
def Run.nn (_r : Run) (ge : Geo) : Nat := cdiv ge.n ge.nt
/-- Tile `t` of the unit in the Clause's walk order (R98). -/
def Run.tileAt (r : Run) (nm nn t : Nat) : Nat × Nat :=
  if clWalk r.v = 0 ∨ clWalk r.v = 3 then (t / max nn 1, t % max nn 1) else (t % max nm 1, t / max nm 1)
/-- Every tile of the open unit has drained. -/
def Run.exhausted (r : Run) (m : PMem) (ge : Geo) : Bool :=
  decide (r.nm m ge * r.nn ge ≤ r.tiles) && decide (r.nseg ge ≤ r.kseg + 1)

/-- K chunks of a tile, in the order in which they stream (R98, R99, R125). -/
def Run.chunkList (r : Run) (m : PMem) (ge : Geo) : List Nat :=
  let all := List.range ge.nk
  let seg := if clWalk r.v = 3 then all.filter (fun k => k / 2 ^ clKsegLog r.v = r.kseg) else all
  let walk := if clWalk r.v = 2 ∧ r.tiles % 2 = 1 then seg.reverse else seg
  if mSparse r.da = 3 then
    let cols := (r.positions m ge r.mt).flatMap (fun p => rlCols m r.da p.1)
    walk.filter (fun k => cols.any (fun c => c / ge.chunk = k))
  else walk
def Run.chunk (r : Run) (m : PMem) (ge : Geo) : Nat := lget 0 (r.chunkList m ge) r.kc

/-- The streams of a chunk: (B's low slice, A's low slice) (R535). -/
def passStreams (p : Nat) : List (Bool × Bool) :=
  if p = 3 then [(false, false), (false, true), (true, false)] else if p = 2 then [(false, false), (true, false)] else [(false, false)]
def Run.stream (r : Run) : Bool × Bool := lget (false, false) (passStreams (clPasses r.v)) r.pass

/-- The weight tile is the one of N tile `nt`, chunk `kc` and slice of the run's group. -/
def tileIs (t : Option WTile) (g nt kc : Nat) (lo : Bool) : Bool :=
  match t with | some t => t.group = g && t.nt = nt && t.kc = kc && t.lo == lo | none => false

/-! Groups (R106-R108) -/

def Engine.queued (e : Engine) (g : Nat) : Nat := (e.gq.filter (fun q => q.group = g)).length
def Engine.groupReady (e : Engine) (v g : Nat) : Bool :=
  let q := e.queued g
  decide (clSegMax v ≤ q) || (match tget none e.closes g with | some n => decide (0 < q) && q + tget 0 e.consumed g = n | none => false)
def Engine.groupComplete (e : Engine) (g : Nat) : Bool :=
  match tget none e.closes g with | some n => decide (n ≤ tget 0 e.consumed g) | none => false
/-- The port is full and no group of the Clause is ready (R108). -/
def Engine.fullStuck (e : Engine) (v : Nat) : Bool :=
  decide (8192 ≤ e.gq.length) && !(List.range (clGroups v)).any (e.groupReady v)
/-- The group below `GROUPS` with the most queued entries; ties to the lowest (R108). -/
def Engine.fullest (e : Engine) (v : Nat) : Option Nat :=
  (List.range (clGroups v)).foldl (fun (b : Option Nat) g =>
    if e.queued g = 0 then b else match b with | none => some g | some b => if e.queued g > e.queued b then some g else some b) none

/-- What the sequencer takes next: a unit of a group with its segment number, first A row, first output row and rows
(entries for a gathered unit), nothing for now, the end, or a fault of the ragged vector's read. -/
inductive NextUnit where
  | unit (g seg a0 row0 rows : Nat)
  | wait
  | done
  deriving DecidableEq, Repr

/-- Row count of group `g` in A's ragged vector (R105). -/
def ragCount (m : PMem) (d g : Nat) : Nat := m.w32 (mRagged d + 4 * g) % 2 ^ 24
def ragStart (m : PMem) (d g : Nat) : Nat := ((List.range g).map (ragCount m d)).foldl (· + ·) 0

/-- The next unit of a ragged Clause from group `g`, segment `k` on. -/
def nextRagged (m : PMem) (v d : Nat) : Nat → Nat → Nat → NextUnit
  | 0, _, _ => .done
  | f + 1, g, k =>
    if clGroups v ≤ g then .done else
    let cg := ragCount m d g
    let sg := if clSegMax v = 0 then cg else clSegMax v
    if k * sg < cg then .unit g k (ragStart m d g + k * sg) (ragStart m d g + k * sg) (min sg (cg - k * sg))
    else nextRagged m v d f (g + 1) 0

/-- Groups in cyclic order after the one last served. -/
def cyclicAfter (n last : Nat) : List Nat := (List.range n).map (fun i => (last + 1 + i) % max n 1)

def Engine.nextUnit (e : Engine) (r : Run) (m : PMem) (ge : Geo) : NextUnit :=
  let v := r.v
  if clOpcode v = 1 then (if r.segment = 0 then .unit 0 0 0 0 ge.m else .done)
  else if clOpcode v = 2 then nextRagged m v r.da (clGroups v + 2) r.group r.segment
  else
    let take (g : Nat) (n : Nat) : NextUnit := .unit g 0 0 r.nextRow n
    match r.forced with
    | some g => take g (e.queued g)
    | none =>
      match (cyclicAfter (clGroups v) r.lastGroup).find? (e.groupReady v) with
      | some g => take g (min (e.queued g) (clSegMax v))
      | none => if (List.range (clGroups v)).all e.groupComplete then .done else .wait

/-! Wide reads (R204, R208, R210, R395-R397) -/

/-- Byte ranges of the columns `lo` to `lo + n - 1` of stored row `r` of an element operand: elements, scales,
indices. -/
def rowRanges (d sh r lo n : Nat) : List (Nat × Nat) :=
  if mRows d ≤ r ∨ mCols d ≤ lo then [] else
  let w := fmtW (mFmt d)
  let hi := min (lo + n) (mCols d)
  if mSparse d = 0 then
    [(mBase d + sh + r * mStride d + w * lo / 8, w * hi / 8 - w * lo / 8),
     (mScale d + sh + r * mRowScales d + lo / mG d, cdiv hi (mG d) - lo / mG d)]
  else
    let nn := keepOf (mSparse d)
    let j0 := lo / 8 * nn
    let j1 := cdiv hi 8 * nn
    [(mBase d + sh + r * mStride d + w * j0 / 8, w * j1 / 8 - w * j0 / 8),
     (mScale d + sh + r * mRowScales d + j0 / mG d, cdiv j1 (mG d) - j0 / mG d),
     (mMeta d + sh + r * mMs d + 3 * j0 / 8, cdiv (3 * j1) 8 - 3 * j0 / 8)]

/-- One verification of the wide port: a free choice whether block `b` is compared in this read (log entry 24). -/
def State.wideVerify (s : State) (c : Nat) : List Nat → Option W16 × State
  | [] => (none, s)
  | b :: t =>
    if (s.area c).mem.agrees b then s.wideVerify c t else
    let d := s.drawBool
    if d.1 then
      let a := d.2.area c
      let m := a.mem
      let s1 := d.2.setArea c { a with mem := (m.verify b).2 }
      let n := s.residentAt c
      (some 0xB001#16, (s1.report ⟨0xB001#16, 1, n, 1, c, 0, s.faultEpoch n, BitVec.ofNat 64 (1024 * b),
        BitVec.ofNat 64 ((m.chkOf b).toNat + 2 ^ 32 * (crc32c (m.block b)).toNat)⟩).failParity n (tget false m.ep b) 0xB001#16)
    else d.2.wideVerify c t

/-- A wide read of byte ranges by the run of slot `sl`: the code with which the reader faults, if any. -/
def State.wideRead (s : State) (c sl : Nat) (rs : List (Nat × Nat)) : Option W16 × State :=
  let e := s.eng c
  let r := e.run sl
  if r.clash then (some 0x300A#16, s.setEng c (e.setRun sl { r with clash := false })) else
  let sc := rs.foldl (fun (acc : PMem × List Nat) p => let x := acc.1.scanWords p.1 p.2; (x.1, acc.2 ++ x.2)) ((s.area c).mem, [])
  let s2 := s.found0 (s.residentAt c) c (rs.flatMap (fun p => linesOf p.1 p.2)).eraseDups sc
  match rs.findSome? (fun p => sc.1.poisoned p.1 p.2) with
  | some (code, _) => (some code, s2)
  | none =>
    if rs.any (fun p => sc.1.marked p.1 p.2) then (some 0xB002#16, s2)
    else s2.wideVerify c (rs.flatMap (fun p => blocksOf p.1 p.2))

/-! Records and stops (R77, R104, R115, R139) -/

/-- Where a fault stands. -/
structure FPos where
  group : Nat := 0
  row : Nat := 0
  mt : Nat := 0
  nt : Nat := 0
  kc : Nat := 0

/-- The 32 bytes of a completion record (R104). -/
def crecBytes (v status : Nat) (fault : W16) (r : Run) (ep : W64) (f : FPos) : List Byte :=
  leBytes 32 (status + 4 * b2n r.anyUnchecked + 8 * b2n r.anyFallback + 16 * b2n (r.allPaired && decide (0 < r.tiles + r.emitted))
    + fault.toNat * 2 ^ 16 + clTag v * 2 ^ 32 + clMirCnt v * 2 ^ 48 + clMirIdx v * 2 ^ 51 + f.group % 1024 * 2 ^ 54
    + ep.toNat * 2 ^ 64 + f.row % 2 ^ 24 * 2 ^ 128 + f.mt % 2 ^ 24 * 2 ^ 160 + f.nt % 2 ^ 24 * 2 ^ 192 + f.kc % 2 ^ 24 * 2 ^ 224)

/-- `CREC_PTR` can be used (R111). -/
def crecOk (v : Nat) : Bool := clCrecEn v && clCrec v % 32 = 0 && decide (clCrec v + 32 ≤ 0x3000000)

/-- Write the completion record through the narrow port (R201). -/
def State.writeCrec (s : State) (c v status : Nat) (fault : W16) (r : Run) (f : FPos) : State :=
  if crecOk v then
    let n := s.residentAt c
    (s.performWrite n c 0 (clCrec v) (crecBytes v status fault r (s.openEpoch n) f) (s.epLow n)).1
  else s

/-- A Clause faults: the record, `SLOT_FAULTs`, `LAST_FAULT`, the slot's stop and the context's event (R77, R104,
R350). -/
def State.clauseFault (s : State) (c sl status : Nat) (code : W16) (v : Nat) (f : FPos) : State :=
  let s1 := s.writeCrec c v status code ((s.eng c).run sl) f
  let e := s1.eng c
  let e1 := { (e.setRun sl { e.run sl with phase := .stopped status, fault := code, wide := [], clash := false, kc := 0, pass := 0, pos := 0 }) with
    slotFault := tset 0 e.slotFault sl (code.setWidth 32), lastFault := code, active := none, lastServed := sl, terms := [] }
  (((s1.setEng c e1).event (s.residentAt c) code c (masterField (.engine c sl)) 0).trace c 4 3 0
    (clTag v + code.toNat * 65536)).trace c 7 3 0 code.toNat

/-- The position a tile fault names (R104). -/
def Run.fpos (r : Run) (kc : Nat) : FPos := ⟨r.group, r.row0, r.mt, r.nt, kc⟩

/-- A fault at the current tile (R115, R139): once the last drain has ended the slot stops; until then the command waits. -/
def State.tileFault (s0 s : State) (c sl : Nat) (code : W16) (kc : Nat) : State :=
  if (s0.eng c).outQ.isEmpty then
    let r := (s.eng c).run sl
    s.clauseFault c sl 2 code r.v (r.fpos kc)
  else s0

/-! What a tile needs (R113, R114) -/

/-- Rows split into pieces in an M tile. -/
def splitRows (ps : List (Nat × Nat × Nat)) : Nat := (ps.filter (fun p => p.2.1 = 0 && decide (1 < p.2.2))).length
/-- The scratch requirement S of R113. -/
def Run.scratchNeed (r : Run) (ge : Geo) (ps : List (Nat × Nat × Nat)) : Nat :=
  (if clOpcode r.v = 3 then 16 * r.rows else 0) + (if clWalk r.v = 3 then 4 * ge.m * ge.n else 0) + 4 * ge.nt * splitRows ps

/-- The metadata checks of a row-list tile (R127, R138). -/
def Run.rlFault (r : Run) (m : PMem) (ge : Geo) (ps : List (Nat × Nat × Nat)) : Option W16 :=
  if mSparse r.da ≠ 3 then none
  else if rlEntry m r.da 0 ≠ (0, 0) then some 0x2005#16
  else
    let lo := if clPasses r.v = 3 then some r.dalo else none
    if (match lo with | some l => rlEntry m l 0 != (0, 0) | none => false) then some 0x2007#16 else
    ((ps.map (·.1)).eraseDups).findSome? (rlRowFault m r.da lo (clSegMax r.v) ge.mt)

/-- The checks of R114 in their order; the first two only at the first tile of a unit. -/
def Run.resourceFault (r : Run) (m : PMem) (ge : Geo) (first : Bool) (ps : List (Nat × Nat × Nat)) : Option W16 :=
  if first && clOpcode r.v = 2 && decide (mRows r.da < ragStart m r.da r.group + ragCount m r.da r.group) then some 0x100B#16
  else if first && decide (mRows r.dc < r.row0 + r.rows) then some 0x100A#16
  else if decide (clScrSize r.v < r.scratchNeed ge ps) then some 0x1009#16
  else none

/-- Bytes `CIN` gives for the tile's rows and columns (R96). -/
def Run.cinRanges (r : Run) (ge : Geo) (ps : List (Nat × Nat × Nat)) (nt : Nat) : List (Nat × Nat) :=
  (ps.filter (fun p => p.2.1 = 0)).map (fun p =>
    (mBase r.dcin + (r.row0 + p.1) * mStride r.dcin + 4 * (nt * ge.nt), 4 * (min ge.nt (ge.n - nt * ge.nt))))

/-- The A row behind a row of the unit. -/
def Run.aRow (r : Run) (row : Nat) : Nat :=
  if clOpcode r.v = 3 then (lget 0 ((lget ⟨0, []⟩ r.entries row).words) 0).toNat
  else if clOpcode r.v = 2 then r.aRow0 + row else row

/-- Wide groups of a unit's gathered rows (R203). -/
def Run.rowGroups (r : Run) : List Nat :=
  if clOpcode r.v ≠ 3 then [] else
  groupsOf (r.entries.flatMap (fun en =>
    let row := (lget 0 en.words 0).toNat
    rowRanges r.da 0 row 0 (mCols r.da) ++ (if clPasses r.v = 3 then rowRanges r.dalo 0 row 0 (mCols r.dalo) else [])))
def Run.descs (r : Run) : Descs :=
  let f (i : Nat) (d : Nat) : Option Nat := if ptrEn (clPtr r.v i) then some d else none
  ⟨f 0 r.da, f 1 r.db, f 2 r.dc, f 3 r.dcin, f 4 r.dalo, f 5 r.dblo⟩
/-- Bank groups in wide use by the run (R203). -/
def Run.wideNow (r : Run) (ge : Geo) : List Nat := groupsOf (wideRanges r.v r.descs ge.n) ++ r.rowGroups

/-- The scratch bytes a tile uses become free values (R113, log entry 25). -/
def State.havocScratch (s : State) (c v need : Nat) : State :=
  if need = 0 then s else
  let ws := (List.range (cdiv need 4)).map (fun i => Config.freeWord (s.fresh + i))
  let a := s.area c
  let n := s.residentAt c
  { s with fresh := s.fresh + cdiv need 4 }.setArea c { a with mem := (a.mem.write (clScrBase v) ((bytes32 ws).take need) (s.epLow n)).1 }

end Sys2Proof.Machine
end

