-- ==== Sys2Proof/Machine/Lifecycle.lean ====
section
/-! DEFINITION. What happens to a context as a whole: running, stopped, its waiters poisoned, its partition zeroed, its
masters frozen and released, the context destroyed (R173, R234, R278, R282, R352, R354, R376, R381, R390). -/

namespace Sys2Proof.Machine

open Sys2Proof

/-- Change the area of a context on each Comb of its partition. -/
def State.onAreas (s : State) (n : Nat) (f : Nat → Area → Area) : State :=
  ((s.ctx n).combs).foldl (fun s c => s.setAreaOf n c (f c (s.areaOf n c))) s
/-- Change each Comb of a context's partition. -/
def State.onCombs (s : State) (n : Nat) (f : Comb → Comb) : State :=
  ((s.ctx n).combs).foldl (fun s c => s.setComb c (f (s.comb c))) s

/-! Stop (R352) -/

/-- A slot stops: an open locked sequence rolls back, its registers and outstanding accesses stay. -/
def WSlot.stopped (x : WSlot) : WSlot := { x.rollback with running := false, wait := .ready, held := false, woke := .ready }
def Worker.stopped (w : Worker) : Worker := { w with slots := w.slots.map (fun e => (e.1, e.2.stopped)) }
/-- The Engine stops at a tile's boundary, so that its Clause may go on there (R78). -/
def Engine.paused (e : Engine) : Engine :=
  match e.active with
  | none => e
  | some sl =>
    let r := e.run sl
    let r1 := if r.phase = .stream || r.phase = .kWait then { r with phase := .nextTile, kc := 0, pass := 0, pos := 0 } else r
    { (e.setRun sl r1) with active := none, weights := none, shadow := none, terms := [] }
/-- A Forager's commands are discarded; its taken count stays. -/
def Forager.stopped (f : Forager) : Forager := { taken := f.taken, stuck := f.stuck, frozen := f.frozen, halted := f.halted }
def Area.stopped (a : Area) : Area :=
  { a with workers := a.workers.map (fun e => (e.1, e.2.stopped)), eng := a.eng.paused, fg := a.fg.map (fun e => (e.1, e.2.stopped)) }
/-- A contribution that a discarded command had begun holds no write any more (R303, R352). -/
def State.dropDigests (s : State) (n : Nat) (f : Forager) : State :=
  f.slots.foldl (fun s e => if bit (wnum e.2.desc) 14 && e.2.phase = .started then s.writeDone (some n) (e.2.epoch.getLsbD 0) else s) s
def State.dropAllDigests (s : State) (n : Nat) : State :=
  ((s.ctx n).combs).foldl (fun s c => (s.areaOf n c).fg.foldl (fun s e => s.dropDigests n e.2) s) s
/-- `HC_STOP` (R352): every master of the context stops; memories, counters and queues stay; state 4. -/
def State.stopCtx (s : State) (n : Nat) : State :=
  let s1 := (s.dropAllDigests n).onAreas n (fun _ a => a.stopped)
  s1.setCtx n { s1.ctx n with st := 4 }

/-- A Worker Cell at a launch: slot 0 runs from address 0 with zero registers, slots 1 to 3 are stopped (R173). -/
def Worker.launched (w : Worker) : Worker :=
  let old := w.slot 0
  { w with slots := [(0, ({ running := true, outst := old.outst, frozen := old.frozen, halted := old.halted } : WSlot))]
                    ++ w.slots.filter (fun e => e.1 != 0) }
/-- `HC_LAUNCH` (R352): slot 0 of every Worker Cell starts; Combs that a spare took over accept packets again (R414). -/
def State.launchCtx (s : State) (n : Nat) : State :=
  let cells := (List.range 640).filter (fun k => !isStore k)
  let s1 := s.onAreas n (fun c a => if (s.comb c).lost then a else cells.foldl (fun a k => a.setWorker k (a.worker k).launched) a)
  let s2 := s1.onCombs n (fun m => { m with refusing := false })
  s2.setCtx n { s2.ctx n with st := 3, wasReset := false, refuse := false }

/-! Poisoned waiters (R278, R279, R282) -/

/-- Every watch of context `n` (none: of any context) on a Comb wakes `POISONED`, unless it was woken so before. -/
def Comb.poisonWatches (m : Comb) (n : Option Nat) : Comb :=
  { m with watches := m.watches.map (fun w => if (n = none ∨ n = some w.ctx) ∧ w.woken = none then { w with woken := some 0x4402#16 } else w) }
/-- Buffered packets, messages and counter operations of a context are discarded (R282). -/
def Comb.dropTraffic (m : Comb) (n : Nat) : Comb :=
  { m with landing := m.landing.filter (fun l => l.pkt.ctx != n), ctrOps := m.ctrOps.filter (fun o => o.ctx != n)
           swBuf := m.swBuf.filter (fun p => p.ctx != n) }

/-! Zeroing (R219, R234, R390) -/

/-- An area with everything zero; whether the Comb is in Fallback is the module's, and the pair control the Keeper's. -/
def Area.zeroed (a : Area) (keepPair : Bool) : Area :=
  { eng := { fallback := a.eng.fallback, pairCtl := if keepPair then a.eng.pairCtl else 0 } }
/-- Zero-fill a range of the region: bytes, check values, marks and poison (R229, R234). -/
def PMem.zeroRange (m : PMem) (lo hi : Nat) : PMem :=
  { bytes := m.bytes.filter (fun e => e.1 < lo || hi ≤ e.1)
    chk := m.chk.filter (fun e => 1024 * e.1 < lo || hi ≤ 1024 * e.1)
    ep := m.ep.filter (fun e => 1024 * e.1 < lo || hi ≤ 1024 * e.1)
    mark := m.mark.filter (fun e => 1024 * e.1 < lo || hi ≤ 1024 * e.1)
    poison := m.poison.filter (fun e => 64 * e.1 < lo || hi ≤ 64 * e.1)
    ecc := m.ecc.filter (fun e => 64 * e.1 < lo || hi ≤ 64 * e.1) }
/-- Zero-fill granules `g` to `g + k - 1`. -/
def Comb.zeroGranules (m : Comb) (g k : Nat) : Comb :=
  { m with mw := { m.mw with mem := m.mw.mem.zeroRange (g * 0x4000000) ((g + k) * 0x4000000) } }
/-- Zero-fill the granules and save area of a context on its Combs. -/
def State.zeroCapacity (s : State) (n : Nat) : State :=
  let x := s.ctx n
  let s1 := s.onCombs n (fun m => m.zeroGranules (s.capBase n) (s.capSize n))
  x.saveBase.foldl (fun s e => (saveGranules e.2).foldl (fun s g => s.setComb e.1 ((s.comb e.1).zeroGranules g 1)) s) s1
/-- Zero the context's own state on every Comb of its partition: live where resident, else its image (R234, R236). -/
def State.zeroAreas (s : State) (n : Nat) (keepPair : Bool) : State :=
  if (s.ctx n).resident then s.onCombs n (fun m => { m with live := m.live.zeroed keepPair })
  else s.onCombs n (fun m => { m with saved := tdel m.saved n })

/-! Events of a context's loss -/

/-- A fence of every uncommitted epoch fails with a code first (R259). -/
def State.failAll (s : State) (n : Nat) (code : W16) : State := s.failEpochs (some n) (fun _ => true) code

/-! Rings (R345, R354, R381) -/

def Ring.en (r : Ring) : Bool := bit r.cfg.toNat 21
def Ring.disabled (r : Ring) : Ring := { r with cfg := r.cfg &&& ~~~ (0x200000#64), cmds := [], frozen := false }

/-! Destruction (R354) -/

/-- Steps 1 to 3: the masters stop, the watches wake `POISONED`, the context's objects are cleared. -/
def State.destroyStart (s : State) (n : Nat) : State :=
  let s1 := (s.stopCtx n).onCombs n (fun m => (m.poisonWatches (some n)).dropTraffic n)
  let x := s1.ctx n
  let keep (e : Nat × Option W64) : Bool := e.1 / 2 ^ 24 != n + 1
  let s2 := State.setObj { s1 with objs := s1.objs.filter keep, doms := s1.doms.filter (fun e => e.1 / 2 ^ 24 != n + 1) } 0 0x2806 (n + 1) 0
  s2.setCtx n { x with st := 6, epOpen := 1, epDone := 0, cstat := 0, failed := [], fences := [], outst := [], sliceAt := none
                       frz := [], frzOver := 0, frzMore := [], tkey := [], chal := none, report := [], tdbg := false, switchTo := none }

/-- Steps 4 and 5: Combs, granules and save area are zero-filled, the rings disabled, reservation and number released;
`CTX_SEL` of a path that names the context returns to 0 (R476). -/
def State.destroyEnd (s : State) (n : Nat) : State :=
  let s1 := (s.zeroAreas n false).zeroCapacity n
  let s2 := (List.range 64).foldl (fun s q => s.setRing (64 * n + q) (s.ring (64 * n + q)).disabled) s1
  let s3 := s2.setObj 0 0x2610 (n + 1) 0
  let s4 := [17, 18, 19].foldl (fun s i => if s.obj i 0x2091 3 0 % 16 = n then s.setObj i 0x2091 3 0 else s) s3
  s4.setCtx n {}

/-! Freezing (R376, R377) and release (R381) -/

/-- The context a master belongs to, resident or not, and whether it is frozen. -/
def State.isFrozen (s : State) (n : Option Nat) (m : Master) : Bool :=
  match m with
  | .worker c k sl => (((s.areaAt n c).worker k).slot sl).frozen
  | .engine c sl => tget false (s.areaAt n c).eng.frozen sl
  | .forager c f => ((s.areaAt n c).forager f).frozen
  | .host f => (s.ring f).frozen
  | _ => false

/-- Set or clear the frozen flag of a master. -/
def State.setFrozen (s : State) (n : Option Nat) (m : Master) (b : Bool) : State :=
  match m with
  | .worker c k sl =>
    let a := s.areaAt n c
    let w := a.worker k
    let x := w.slot sl
    s.setAreaAt n c (a.setWorker k (w.setSlot sl { (if b then x.rollback else x) with frozen := b }))
  | .engine c sl =>
    let a := s.areaAt n c
    s.setAreaAt n c { a with eng := { a.eng with frozen := tset false a.eng.frozen sl b } }
  | .forager c f =>
    let a := s.areaAt n c
    s.setAreaAt n c (a.setForager f { a.forager f with frozen := b })
  | .host f => s.setRing f { s.ring f with frozen := b }
  | _ => s

/-- Enter a frozen master in a freeze table of 16 entries; where every entry is in use it is counted. -/
def frzEnter (t : Tbl Frz) (overN : W32) (more : List Master) (z : Frz) (m : Master) : Tbl Frz × W32 × List Master :=
  match ((List.range 16).map (· + 1)).find? (fun i => (tget {} t i).st = 0) with
  | some i => (tput t i z, overN, more)
  | none => (t, overN + 1, more ++ [m])

/-- The Comb of an entry: virtual in a context's table, logical in the operator's (R377). -/
def State.virtComb (s : State) (n : Option Nat) (c : Nat) : Nat :=
  if 480 ≤ c then 0 else
  match n with
  | some n => (cxOf c - (s.ctx n).x0) * 16 + (cyOf c - (s.ctx n).y0)
  | none => combField c

/-- The Comb that a violation names: the master's, or for a host function the one whose owner refused it (log entry 60). -/
def State.offence (s : State) (m : Master) (code : W16) (addr : W64) : Nat :=
  if masterComb m < 480 ∨ code ≠ 0x8001#16 then masterComb m else
  match s.toComb (s.masterCtx m) (fld addr.toNat 43 6) (fld addr.toNat 39 4) with
  | .ok c => c
  | .error _ => 480
/-- Freeze a master for a violation (R375, R376): its stop, its entry, the fences, the events. -/
def State.freeze (s : State) (m : Master) (code : W16) (addr : W64) : State :=
  if code ≠ 0x8001#16 ∧ code ≠ 0x8002#16 then s else
  let n := s.masterCtx m
  let c := s.offence m code addr
  let s0 := s.report ⟨code, 1, n, if masterComb m < 480 then 0 else 6, if c < 480 then c else 0, masterField m, s.faultEpoch n, addr, 0⟩
  match m with
  | .keeper | .service _ => s0
  | _ =>
    if s.isFrozen n m then s0 else
    let z : Frz := ⟨code, some m, 1, c, s.faultEpoch n, s.ts, addr⟩
    let s1 := (s0.setFrozen n m true).event n code (if c < 480 then c else 0) (masterField m) 0
    match n with
    | some n =>
      let x := s1.ctx n
      let e := frzEnter x.frz x.frzOver x.frzMore z m
      (s1.setCtx n { x with frz := e.1, frzOver := e.2.1, frzMore := e.2.2 }).failAll n code
    | none =>
      let e := frzEnter s1.opFrz s1.opFrzOver s1.opFrzMore z m
      { s1 with opFrz := e.1, opFrzOver := e.2.1, opFrzMore := e.2.2 }

/-- Zero the state of a released master (R381). -/
def State.releaseMaster (s : State) (n : Option Nat) (m : Master) : State :=
  match m with
  | .worker c k sl =>
    let a := s.areaAt n c
    let w := a.worker k
    s.setAreaAt n c (a.setWorker k (w.setSlot sl { outst := (w.slot sl).outst }))
  | .engine c sl =>
    let a := s.areaAt n c
    let e := a.eng
    let act := e.active = some sl
    s.setAreaAt n c { a with eng := { e with
      cqTail := tdel e.cqTail sl, cqHead := tdel e.cqHead sl, cqBase := tdel e.cqBase sl, cqSize := tdel e.cqSize sl
      xbias := tdel e.xbias sl, slotFault := tdel e.slotFault sl, runs := tdel e.runs sl, frozen := tdel e.frozen sl
      active := if act then none else e.active, weights := none, shadow := none, acc := [], terms := [], gq := []
      outQ := if act then [] else e.outQ, scratch := e.scratch.filter (fun x => x.1 / 2 ^ 48 != sl) } }
  | .forager c f =>
    let a := s.areaAt n c
    let ctr := match n with | some n => fld (s.obj (n + 1) 0x2730 (f + 1) 0) 40 12 | none => 0
    let s1 := match n with | some k => s.dropDigests k (a.forager f) | none => s
    s1.setAreaAt n c (a.setForager f { taken := BitVec.ofNat 64 (a.counter ctr) })
  | .host f => s.setRing f (s.ring f).disabled
  | _ => s

/-- Release an entry of a freeze table: the master's state is zeroed, the entry emptied, an event recorded (R381, log
entry 33). -/
def State.releaseEntry (s : State) (n : Option Nat) (i : Nat) : State :=
  let t := match n with | some n => (s.ctx n).frz | none => s.opFrz
  let z := tget {} t i
  match z.master with
  | none => s
  | some m =>
    let s1 := (s.releaseMaster n m).event n z.code (if z.comb < 480 then z.comb else 0) (masterField m) (BitVec.ofNat 64 i)
    match n with
    | some n => s1.setCtx n { s1.ctx n with frz := tdel (s1.ctx n).frz i }
    | none => { s1 with opFrz := tdel s1.opFrz i }

/-- Release every frozen master of a context (R381, action 3). -/
def State.releaseAll (s : State) (n : Nat) : State :=
  let s1 := ((List.range 16).map (· + 1)).foldl (fun s i => s.releaseEntry (some n) i) s
  let s2 := (s1.ctx n).frzMore.foldl (fun s m => s.releaseMaster (some n) m) s1
  s2.setCtx n { s2.ctx n with frzOver := 0, frzMore := [] }

/-! Destruction of every context (R385, R425) -/

def State.destroyAll (s : State) (code : W16) : State :=
  (List.range 16).foldl (fun s n => if (s.ctx n).st = 0 then s else ((s.event (some n) code 0 0 0).destroyStart n)) s
def State.destroyAllEnd (s : State) : State :=
  (List.range 16).foldl (fun s n => if (s.ctx n).st = 6 then s.destroyEnd n else s) s

/-! The two commands of a freeze -/

/-- SLOT_FREEZE (R376). -/
def execSlotFreeze (m : Master) (code : W16) (addr : W64) (s : State) : Res := onUnit (isMaster m) (s.freeze m code addr)

end Sys2Proof.Machine
end

