-- ==== Sys2Proof/Machine/CellSys.lean ====
section
/-! DEFINITION. Worker Cell instructions that reach beyond the slot: global accesses and fences, special registers, ports
and queues, messages, counters, Store Cell registers; and the links between cells (R152-R155, R163, R164, R167, R187,
R194, R243, R245, R249, R262-R265, R271). -/

namespace Sys2Proof.Machine

open Sys2Proof

/-- A request identifier (log entry 18). -/
def State.newReq (s : State) : Nat × State := (s.nextId % 65536, { s with nextId := s.nextId + 1 })

/-! Neighbour links (R15, R16, R152) -/

/-- The cell that direction `d` of a cell reaches: 0 north, 1 east, 2 south, 3 west; none on the grid's outer edge. -/
def neighbourCell (c k d : Nat) : Option (Nat × Nat) :=
  let r := k / 32
  let col := k % 32
  if d = 0 then (if r < 19 then some (c, k + 32) else if cyOf c < 11 then some (c + 40, col) else none)
  else if d = 1 then (if col < 31 then some (c, k + 1) else if cxOf c < 39 then some (c + 1, k - 31) else none)
  else if d = 2 then (if 0 < r then some (c, k - 32) else if 0 < cyOf c then some (c - 40, 608 + col) else none)
  else (if 0 < col then some (c, k - 1) else if 0 < cxOf c then some (c - 1, k + 31) else none)
/-- The opposite direction. -/
def opposite (d : Nat) : Nat := (d + 2) % 4

def Area.portsOf (a : Area) (k : Nat) : Ports := if isStore k then (a.store k).ports else (a.worker k).ports
def Area.setPortsOf (a : Area) (k : Nat) (p : Ports) : Area :=
  if isStore k then a.setStore k { a.store k with ports := p } else a.setWorker k { a.worker k with ports := p }
def Area.ptCfgOf (a : Area) (k : Nat) : Nat := (if isStore k then (a.store k).ptCfg else (a.worker k).ptCfg).toNat
def State.portsOf (s : State) (c k : Nat) : Ports := (s.area c).portsOf k
def State.setPortsOf (s : State) (c k : Nat) (p : Ports) : State := s.setArea c ((s.area c).setPortsOf k p)

/-- Words in an inbound port queue. -/
def Ports.inQ (p : Ports) (d : Nat) : List W64 := tget [] p.inq d
/-- `SRCd` and `ENd` (R153). -/
def ptSrc (cfg d : Nat) : Nat := fld cfg (8 * d) 2
def ptEn (cfg d : Nat) : Bool := bit cfg (8 * d + 4)
/-- A `PT_CFG` value that is not refused (R153). -/
def ptCfgOk (v : Nat) : Bool := (List.range 4).all (fun d => fld v (8 * d + 5) 3 = 0 && !(ptEn v d && ptSrc v d = d))
/-- Some enabled byte names inbound direction `d` (R154). -/
def ptNames (cfg d : Nat) : Bool := (List.range 4).any (fun e => ptEn cfg e && ptSrc cfg e = d)
/-- Outbound direction `d` can take a word: a credit is held, or the link ends at the grid's edge (R152, R155). -/
def State.canPut (s : State) (c k d : Nat) : Bool :=
  match neighbourCell c k d with
  | none => true
  | some _ => decide (tget 0 (s.portsOf c k).used d < 8)
/-- Put a word on an outbound link (R152, R155). -/
def State.putWord (s : State) (c k d : Nat) (v : W64) : State :=
  match neighbourCell c k d with
  | none => s
  | some (c', k') =>
    let p := s.portsOf c k
    let s1 := s.setPortsOf c k { p with used := tset 0 p.used d (tget 0 p.used d + 1) }
    let q := s1.portsOf c' k'
    s1.setPortsOf c' k' { q with wire := tset [] q.wire (opposite d) (tget [] q.wire (opposite d) ++ [v]) }
/-- Pop the head word of an inbound port; its credit starts back (R152). -/
def State.popWord (s : State) (c k d : Nat) : State :=
  let p := s.portsOf c k
  let s1 := s.setPortsOf c k { p with inq := tset [] p.inq d ((p.inQ d).drop 1) }
  match neighbourCell c k d with
  | none => s1
  | some (c', k') =>
    let q := s1.portsOf c' k'
    s1.setPortsOf c' k' { q with back := tset 0 q.back (opposite d) (tget 0 q.back (opposite d) + 1) }

/-- The word in transit toward inbound port `d` arrives. -/
def execLinkWordArrival (c k d : Nat) (s : State) : Res :=
  onUnit (isCell c k && decide (d < 4))
    (let p := s.portsOf c k
     match tget [] p.wire d with
     | [] => s
     | v :: t => s.setPortsOf c k { p with wire := tset [] p.wire d t, inq := tset [] p.inq d (p.inQ d ++ [v]) })

/-- The credit in transit toward outbound link `d` arrives. -/
def execLinkCreditReturn (c k d : Nat) (s : State) : Res :=
  onUnit (isCell c k && decide (d < 4))
    (let p := s.portsOf c k
     if tget 0 p.back d = 0 then s else
     s.setPortsOf c k { p with back := tset 0 p.back d (tget 0 p.back d - 1), used := tset 0 p.used d (tget 0 p.used d - 1) })

/-- The head word of inbound port `d` goes out on every direction whose enabled byte names `d`, once all have a credit
(R153). -/
def execPassThroughForward (c k d : Nat) (s : State) : Res :=
  onUnit (isCell c k && decide (d < 4))
    (let cfg := (s.area c).ptCfgOf k
     let outs := (List.range 4).filter (fun e => ptEn cfg e && ptSrc cfg e = d)
     match (s.portsOf c k).inQ d with
     | [] => s
     | v :: _ =>
       if outs.isEmpty || !outs.all (s.canPut c k) then s
       else outs.foldl (fun s e => s.putWord c k e v) (s.popWord c k d))

/-! Special registers (R167, R187) -/

/-- `WQ_INFO`. -/
def Worker.wqInfo (w : Worker) : W32 :=
  match w.wq with
  | [] => 0
  | t :: _ => BitVec.ofNat 32 (t.tag.toNat + (t.words.length - 1) % 4 * 2 ^ 16 + t.popped % 4 * 2 ^ 18 + 2 ^ 20)

/-- One bit per slot. -/
def slotBits (w : Worker) (p : WSlot → Bool) : Nat := ((List.range 4).map (fun i => b2n (p (w.slot i)) * 2 ^ i)).foldl (· + ·) 0
/-- `SLOT_STATE`. -/
def Worker.slotState (w : Worker) : W32 :=
  BitVec.ofNat 32 (slotBits w (·.running) + 16 * slotBits w (fun x => x.wait != .ready) + 256 * slotBits w (·.frozen)
    + 4096 * slotBits w (fun x => x.lock.isSome))
/-- `SLOT_ID`, with virtual Comb coordinates. -/
def State.slotId (s : State) (u : SlotRef) : W32 :=
  let o := match s.residentAt u.comb with | some n => ((s.ctx n).x0, (s.ctx n).y0) | none => (0, 0)
  BitVec.ofNat 32 (u.slot + u.cell * 4 + (cxOf u.comb - o.1) % 64 * 2 ^ 12 + (cyOf u.comb - o.2) % 16 * 2 ^ 18)

/-- The head tuple after one of its words has been popped (R167). -/
def popOne (q : List Tuple) : List Tuple :=
  match q with
  | [] => []
  | t :: r => if t.words.length ≤ t.popped + 1 then r else { t with popped := t.popped + 1 } :: r

def execCMfs (u : SlotRef) (s : State) : Res :=
  cellRun .mfs u (fun w s =>
    let i := wIdx w
    let d := wD w
    let k := s.worker u.comb u.cell
    let x := k.slot u.slot
    let one (v : W32) : CRes := .next (s.setSlot u (x.setS d v))
    let two (v : W64) : CRes := .next (s.setSlot u (x.setPair d v))
    if i < 4 then
      if ptNames k.ptCfg.toNat i then .fault s 0x4201#16
      else match k.ports.inQ i with
        | [] => .wait (.portIn i)
        | v :: _ => .next ((s.setSlot u (x.setPair d v)).popWord u.comb u.cell i)
    else if i = 0x008 then one k.wqInfo
    else if i = 0x009 then
      match k.wq with
      | [] => .wait .queue
      | t :: _ => .next (s.setWorker u.comb u.cell
          ({ k with wq := popOne k.wq }.setSlot u.slot (x.setS d (lget 0 t.words t.popped))))
    else if i = 0x00A then one k.ptCfg
    else if i = 0x010 then one (s.slotId u)
    else if i = 0x011 then one k.slotState
    else if i = 0x012 then two x.rng
    else if 0x014 ≤ i ∧ i ≤ 0x017 then one (k.slot (i - 0x014)).fault
    else if 0x018 ≤ i ∧ i ≤ 0x01B then one (k.slot (i - 0x018)).fpc
    else if i = 0x01C then two s.ts
    else .fault s 0x4205#16) s

def execCMts (u : SlotRef) (s : State) : Res :=
  cellRun .mts u (fun w s =>
    let i := wIdx w
    let a := wA w
    let k := s.worker u.comb u.cell
    let x := k.slot u.slot
    if 4 ≤ i ∧ i < 8 then
      let d := i - 4
      if ptEn k.ptCfg.toNat d then .fault s 0x4201#16
      else if s.canPut u.comb u.cell d then .next (s.putWord u.comb u.cell d (x.pair a))
      else .wait (.portOut d)
    else if i = 0x00A then
      if ptCfgOk (x.s a).toNat then .next (s.setWorker u.comb u.cell { k with ptCfg := x.s a }) else .fault s 0x4202#16
    else if i = 0x012 then .next (s.setSlot u { x with rng := x.pair a })
    else .fault s 0x4205#16) s

/-- `VPOP`: the remaining words of the head tuple, other lanes zero. -/
def execCVpop (u : SlotRef) (s : State) : Res :=
  cellRun .vpop u (fun w s =>
    let k := s.worker u.comb u.cell
    let x := k.slot u.slot
    match k.wq with
    | [] => .wait .queue
    | t :: r => .next (s.setWorker u.comb u.cell ({ k with wq := r }.setSlot u.slot (x.setVec (wD w) (t.words.drop t.popped))))) s

/-! Fences (R245, R249) -/

/-- Drop the read buffer; loads still out will not fill it. -/
def WSlot.acquire (x : WSlot) : WSlot := { x with rb := [], pend := x.pend.map (fun p => { p with fills := false }) }
/-- Hold later global accesses while earlier ones are out. -/
def WSlot.release (x : WSlot) : WSlot := { x with held := !x.outst.isEmpty }

def execCFenceRelease (u : SlotRef) (s : State) : Res := cellPure .fenceR u (fun _ x => x.release) s
def execCFenceAcquire (u : SlotRef) (s : State) : Res := cellPure .fenceA u (fun _ x => x.acquire) s
def execCFenceReleaseAcquire (u : SlotRef) (s : State) : Res := cellPure .fenceRA u (fun _ x => x.release.acquire) s

/-- A line of the read buffer is dropped 4,096 CCLK after its fill (R249). -/
def execReadBufferExpire (u : SlotRef) (way : Nat) (s : State) : Res :=
  onUnit (isSlot u && decide (way < 2)) (s.setSlot u { s.slot u with rb := ldel (s.slot u).rb way })

/-! Global loads and stores (R176, R189, R192, R249, R265, R271) -/

/-- Run an access unless a release holds it (R245). -/
def heldOr (x : WSlot) (r : CRes) : CRes := if x.held then .hold else r

/-- Number of the line a target lies in, over modules, Combs and spaces. -/
def lineKey (t : Tgt) : Nat := ((t.rem.getD 65536 * 512 + t.c) * 8 + t.space) * 2 ^ 30 + t.off / 64

/-- The target is on the slot's own Comb. -/
def Tgt.own (t : Tgt) (c : Nat) : Bool := t.rem.isNone && t.c = c
/-- The cell a space-1 offset names. -/
def Tgt.cell (t : Tgt) : Nat := fld t.off 18 10
/-- A space-1 access waits while the cell holds an open locked sequence (R192). -/
def State.lockWait (s : State) (t : Tgt) : Bool := t.space = 1 && !isStore t.cell && (s.worker t.c t.cell).locked

/-- Put a line in front of the buffer of two (R249). -/
def WSlot.fill (x : WSlot) (key : Nat) (data : List Byte) : WSlot :=
  { x with rb := (⟨key, data⟩ :: x.rb.filter (fun l => l.line != key)).take 2 }

/-- A result of `n` bytes into register `d` or the pair. -/
def WSlot.setLoad (x : WSlot) (d : Nat) (wide : Bool) (b : List Byte) : WSlot :=
  if wide then x.setPair d (BitVec.ofNat 64 (leNat b)) else x.setS d (BitVec.ofNat 32 (leNat b))

/-- A register of the own Engine's control port; beyond its 32 bits the result is free (log entry 29). -/
def State.loadReg (s : State) (c i : Nat) (wide : Bool) : List Byte × State :=
  let v := (s.eng c).readReg (s.eng (partnerOf c)).fallback i
  if wide then (let d := s.draw; (leBytes 4 v.toNat ++ leBytes 4 d.1.toNat, d.2)) else (leBytes 4 v.toNat, s)

/-- A load that leaves as a packet and returns later. -/
def State.loadRemote (s : State) (u : SlotRef) (t : Tgt) (addr : W64) (d : Nat) (wide fills : Bool) (off len : Nat) : CRes :=
  let m : Master := .worker u.comb u.cell u.slot
  let dst := s.dstOf t
  if !s.canSend m dst 0 then .hold else
  let r := s.newReq
  let x := r.2.slot u
  let s1 := r.2.setSlot u { x with pend := x.pend ++ [⟨r.1, d, wide, addr, x.pc, fills⟩] }
  .next (s1.sendPkt m { dst := dst, cls := 0, ptype := 4, ctx := t.ctx, space := t.space, off := off, len := len, reqId := r.1 })

/-- A message of the slot for its own Comb still waits in the landing buffer in class 0: a later access to the own Comb may
not pass it (R242, R267). -/
def State.ownBehind (s : State) (u : SlotRef) : Bool :=
  (s.comb u.comb).landing.any (fun l => l.loc && l.cls = 0 && l.pkt.master = masterField (.worker u.comb u.cell u.slot))

def execCGld (u : SlotRef) (s : State) : Res :=
  cellRun .gld u (fun w s =>
    let x := s.slot u
    let wide := bit w 0
    let n := if wide then 8 else 4
    let addr := x.pair (wA w)
    let d := wD w
    let cn := s.residentAt u.comb
    heldOr x (match s.translate cn addr n with
    | .error e => .fault s e
    | .ok t =>
      if t.own u.comb && s.ownBehind u then .hold else
      if t.space = 3 then
        if !wide then .fault s 0x4403#16
        else if t.own u.comb then .next (s.setSlot u (x.setPair d (BitVec.ofNat 64 ((s.area t.c).counter (t.off / 8)))))
        else s.loadRemote u t addr d wide false t.off n
      else if t.space = 4 then
        if fld t.off 12 2 ≠ 2 then .fault s 0x4504#16
        else if t.own u.comb then
          let r := s.loadReg t.c (fld t.off 2 10) wide
          .next (r.2.setSlot u (x.setLoad d wide r.1))
        else s.loadRemote u t addr d wide false t.off n
      else
        let within := t.off % 64 + n ≤ 64
        match x.rb.find? (fun l => l.line = lineKey t) with
        | some l =>
          if within then .next (s.setSlot u ((x.setLoad d wide ((l.data.drop (t.off % 64)).take n)).fill (lineKey t) l.data))
          else if t.own u.comb then
            match s.performRead cn t.c t.space t.off n [] with
            | (.error e, s1) => .fault s1 e
            | (.ok b, s1) => .next (s1.setSlot u (x.setLoad d wide b))
          else s.loadRemote u t addr d wide false t.off n
        | none =>
          if s.lockWait t && t.own u.comb then .hold
          else if t.own u.comb then
            match s.performRead cn t.c t.space (if within then t.off / 64 * 64 else t.off) (if within then 64 else n) [] with
            | (.error e, s1) => .fault s1 e
            | (.ok b, s1) =>
              let y := s1.slot u
              if within then .next (s1.setSlot u ((y.setLoad d wide ((b.drop (t.off % 64)).take n)).fill (lineKey t) b))
              else .next (s1.setSlot u (y.setLoad d wide b))
          else if within then s.loadRemote u t addr d wide true (t.off / 64 * 64) 64
          else s.loadRemote u t addr d wide false t.off n)) s

/-- A store updates buffered lines it touches (R249). -/
def WSlot.storeThrough (x : WSlot) (t : Tgt) (bs : List Byte) : WSlot :=
  let base := lineKey t
  let upd (l : RdLine) : RdLine :=
    if l.line = base then
      let o := t.off % 64
      { l with data := (l.data.take o ++ bs ++ l.data.drop (o + bs.length)).take 64 }
    else if l.line = base + 1 ∧ 64 < t.off % 64 + bs.length then
      let k := t.off % 64 + bs.length - 64
      { l with data := bs.drop (bs.length - k) ++ l.data.drop k }
    else l
  { x with rb := x.rb.map upd }

/-- Remember an access of the slot that has not completed. -/
def WSlot.issue (x : WSlot) (id : Nat) : WSlot := { x with outst := x.outst ++ [id], outPc := tput x.outPc id x.pc }

def execCGst (u : SlotRef) (s : State) : Res :=
  cellRun .gst u (fun w s =>
    let x := s.slot u
    let wide := bit w 0
    let n := if wide then 8 else 4
    let d := wD w
    let bs := if wide then leBytes 8 (x.pair d).toNat else leBytes 4 (x.s d).toNat
    let cn := s.residentAt u.comb
    heldOr x (match s.translate cn (x.pair (wA w)) n with
    | .error e => .fault s e
    | .ok t =>
      if t.own u.comb && s.ownBehind u then .hold else
      if t.space = 3 then .fault s 0x4403#16
      else if t.space = 4 then .fault s 0x4504#16
      else if t.own u.comb then
        if s.lockWait t then .hold else
        match s.performWrite cn t.c t.space t.off bs (s.epLow cn) with
        | (s1, some code) => .fault s1 code
        | (s1, none) => .next (s1.setSlot u ((s1.slot u).storeThrough t bs))
      else
        let m : Master := .worker u.comb u.cell u.slot
        let dst := s.dstOf t
        if !s.canSend m dst 0 then .hold else
        let r := s.newReq
        let s1 := (r.2.setSlot u (((r.2.slot u).storeThrough t bs).issue r.1)).writeIssued cn (s.epLow cn)
        .next (s1.sendPkt m { dst := dst, cls := 0, ptype := 1, ctx := t.ctx, space := t.space, off := t.off, payload := bs,
                              epochLo := s.epLow cn, reqId := r.1 }))) s

/-! Messages and counters (R262-R266, R271, R281) -/

/-- The landing buffer of a Comb has room for a message of class `k` (R266). -/
def Comb.landRoom (m : Comb) (k : Nat) : Bool := decide ((m.landing.filter (fun l => l.cls = k)).length < 64)
/-- A message or add of a Comb's own master enters its landing unit (R266). -/
def State.landLocal (s : State) (c k : Nat) (p : Pkt) : State :=
  s.setComb c { s.comb c with landing := (s.comb c).landing ++ [⟨k, p, true⟩] }

/-- The checks of a header after R30 (R281). -/
def msgFault (h : Nat) : Option W16 :=
  let kind := fld h 38 2
  let ix := fld h 28 10
  if fld h 6 4 ≠ 0 then some 0x4501#16
  else if kind ≠ 3 ∧ fld h 1 3 ≠ 0 then some 0x4501#16
  else if kind = 3 ∧ fld h 10 2 ≠ b2n (bit h 1) then some 0x4501#16
  else if kind = 0 ∧ (ix > 639 ∨ isStore ix) then some 0x4502#16
  else none

/-- Translation of a message header (R263): module, context number there, and Comb. -/
def State.msgTarget (s : State) (n : Option Nat) (h : Nat) : Except W16 (Option Nat × Nat × Nat) :=
  match s.toModule n (bit h 0) (fld h 50 14) with
  | .error e => .error e
  | .ok (rem, cn) =>
    match s.toComb n (fld h 44 6) (fld h 40 4) with
    | .error e => .error e
    | .ok c =>
      if rem = none ∧ (s.comb c).lost then .error 0x3004#16 else
      match msgFault h with
      | some e => .error e
      | none => .ok (rem, cn, c)

/-- The header with its `CTX` filled and logical module and Comb in bits [63:40], and the payload words, as the bytes of a
message. `dst` is the 24-bit destination of R320. -/
def msgBytes (h cn dst : Nat) (ws : List W32) : List Byte :=
  leBytes 8 (h % 2 ^ 40 + cn % 16 * 64 + dst % 2 ^ 24 * 2 ^ 40) ++ bytes32 ws

def execCWsnd (u : SlotRef) (s : State) : Res :=
  cellRun .wsnd u (fun w s =>
    let x := s.slot u
    let h := (x.pair (wA w)).toNat
    let ws := (x.vec (wB w)).take (fld h 10 2 + 1)
    let cls := fld h 4 2
    let m : Master := .worker u.comb u.cell u.slot
    heldOr x (match s.msgTarget (s.residentAt u.comb) h with
    | .error e => .fault s e
    | .ok (rem, cn, c) =>
      let dst := dstField (rem.getD s.ownModule) c
      let p (id : Nat) : Pkt := { dst := dst, src := dstField s.ownModule u.comb, master := masterField m, cls := cls, ptype := 5,
                                  ctx := cn, payload := msgBytes h cn dst ws, reqId := id }
      if rem.isNone ∧ c = u.comb then
        if !(s.comb c).landRoom cls then .hold else
        let r := s.newReq
        .next ((r.2.setSlot u ((r.2.slot u).issue r.1)).landLocal c cls (p r.1))
      else if !s.canSend m dst cls then .hold
      else
        let r := s.newReq
        .next ((r.2.setSlot u ((r.2.slot u).issue r.1)).sendPkt m (p r.1)))) s

/-- The amount of a `CADD`: a word or a pair. -/
def caddAmt (w : Nat) (x : WSlot) : Nat := if bit w 0 then (x.pair (wA w)).toNat else (x.s (wA w)).toNat

def execCCadd (u : SlotRef) (s : State) : Res :=
  cellRun .cadd u (fun w s =>
    let x := s.slot u
    heldOr x
      (if s.ownBehind u then .hold else
       let r := s.newReq
       let s1 := r.2.setSlot u ((r.2.slot u).issue r.1)
       .next (s1.passAdd u.comb { ctx := (s.residentAt u.comb).getD 16, ix := wIdx w, amt := caddAmt w x,
                                  who := some (.worker u.comb u.cell u.slot), id := r.1 }))) s

def execCCaddRemote (u : SlotRef) (s : State) : Res :=
  cellRun .caddRemote u (fun w s =>
    let x := s.slot u
    let n := if bit w 0 then 8 else 4
    let m : Master := .worker u.comb u.cell u.slot
    heldOr x (match s.translate (s.residentAt u.comb) (x.pair (wD w)) n with
    | .error e => .fault s e
    | .ok t =>
      if t.space ≠ 3 then .fault s 0x4403#16 else
      let dst := s.dstOf t
      let p (id : Nat) : Pkt := { dst := dst, src := dstField s.ownModule u.comb, master := masterField m, cls := 0, ptype := 6,
                                  ctx := t.ctx, space := 3, off := t.off, payload := leBytes n (caddAmt w x), reqId := id }
      if t.own u.comb then
        if !(s.comb u.comb).landRoom 0 then .hold else
        let r := s.newReq
        .next ((r.2.setSlot u ((r.2.slot u).issue r.1)).landLocal u.comb 0 (p r.1))
      else if !s.canSend m dst 0 then .hold
      else
        let r := s.newReq
        .next ((r.2.setSlot u ((r.2.slot u).issue r.1)).sendPkt m (p r.1)))) s

def execCCwait (u : SlotRef) (s : State) : Res :=
  cellRun .cwait u (fun w s =>
    let v := (s.slot u).pair (wA w)
    if v.toNat ≤ (s.area u.comb).counter (wIdx w) then .next s else .wait (.counter (wIdx w) v)) s
def execCCtest (u : SlotRef) (s : State) : Res :=
  cellRun .ctest u (fun w s =>
    let x := s.slot u
    heldOr x (.next (s.setSlot u (x.setS (wD w) (if (x.pair (wA w)).toNat ≤ (s.area u.comb).counter (wIdx w) then 1 else 0))))) s
def execCCrd (u : SlotRef) (s : State) : Res :=
  cellRun .crd u (fun w s =>
    let x := s.slot u
    heldOr x (.next (s.setSlot u (x.setPair (wD w) (BitVec.ofNat 64 ((s.area u.comb).counter (wIdx w))))))) s

/-! Store Cell registers over the row bus (R194) -/

/-- The Store Cell an `IDX` names, if its form is right. -/
def srCell (k i : Nat) : Option Nat :=
  let col := fld i 5 5
  if fld i 10 2 ≠ 0 ∨ col % 4 ≠ 3 then none else some (k / 32 * 32 + col)
/-- The registers a Store Cell has, and how they are reached: readable, writable. -/
def srAccess (k r : Nat) : Bool × Bool :=
  if r < 0x08 then (false, true) else if r < 0x0C then (true, false) else if r = 0x0C then (false, true)
  else if r = 0x0D then (true, true)
  else if isEdge k then (if r = 0x10 ∨ r = 0x11 ∨ r = 0x13 then (true, true) else if r = 0x12 then (true, false) else (false, false))
  else (false, false)

/-- `SQ_STATEs`. -/
def StoreCell.sqState (t : StoreCell) (i : Nat) : W32 :=
  let x := tget {} t.slots i
  BitVec.ofNat 32 ((x.q.length + b2n x.part.isSome) % 16 + 16 * b2n x.part.isSome + 32 * b2n x.stopped + x.fault.toNat * 65536)
def StoreCell.readReg (t : StoreCell) (r : Nat) : W32 :=
  if r < 0x0C then t.sqState (r - 8) else if r = 0x0D then t.ptCfg else if r = 0x10 then t.edgeBase
  else if r = 0x11 then t.edgeSlots else if r = 0x12 then t.edgeWr else t.edgeRd

def execCSrr (u : SlotRef) (s : State) : Res :=
  cellRun .srr u (fun w s =>
    let x := s.slot u
    heldOr x (match srCell u.cell (wIdx w) with
    | none => .fault s 0x4205#16
    | some k =>
      let r := wIdx w % 32
      if (srAccess k r).1 then .next (s.setSlot u (x.setS (wD w) ((s.store u.comb k).readReg r))) else .fault s 0x4205#16)) s

def execCSrw (u : SlotRef) (s : State) : Res :=
  cellRun .srw u (fun w s =>
    let x := s.slot u
    heldOr x (match srCell u.cell (wIdx w) with
    | none => .fault s 0x4205#16
    | some k =>
      let r := wIdx w % 32
      if !(srAccess k r).2 then .fault s 0x4205#16 else
      let q := s.newReq
      let s1 := q.2.setSlot u ((q.2.slot u).issue q.1)
      let t := s1.store u.comb k
      .next (s1.setStore u.comb k { t with regQ := t.regQ ++ [(r, x.s (wA w), u.cell * 4 + u.slot, q.1, x.pc)] }))) s

/-! Waking (R163, R164, R272) -/

/-- Units of what a condition waits for that are there now. -/
def State.waitUnits (s : State) (u : SlotRef) : Wait → Nat
  | .ready => 0
  | .counter i v => if v.toNat ≤ (s.area u.comb).counter i then 4 else 0
  | .portIn d => ((s.portsOf u.comb u.cell).inQ d).length
  | .queue => (((s.worker u.comb u.cell).wq).map (fun t => t.words.length - t.popped)).foldl (· + ·) 0
  | .portOut d => if s.canPut u.comb u.cell d then 8 - tget 0 (s.portsOf u.comb u.cell).used d else 0

/-- The slot returns once its condition clears; of several on one queue or credit, in first-waiting order, one for each
arrival. -/
def execSlotWake (u : SlotRef) (s : State) : Res :=
  onUnit (isSlot u)
    (let k := s.worker u.comb u.cell
     let x := k.slot u.slot
     let shared := match x.wait with | .counter _ _ => false | _ => true
     let earlier := (List.range 4).any (fun i => i != u.slot && (k.slot i).wait = x.wait && decide ((k.slot i).since < x.since))
     let back := ((List.range 4).filter (fun i => i != u.slot && (k.slot i).woke = x.wait)).length
     if x.wait = .ready || (shared && earlier) || decide (s.waitUnits u x.wait ≤ (if shared then back else 0)) then s
     else s.setSlot u { x with wait := .ready, woke := x.wait })

end Sys2Proof.Machine
end

