-- ==== Sys2Proof/Machine/EngRun.lean ====
section
/-! DEFINITION. What the Engine does for a Clause: start, tiles, loads, swaps, activation reads, K segments, drains, output
segments, pair checks, completion and Fallback (R59-R64, R74, R75, R77, R82, R83, R87, R98-R104, R111, R129-R134, R535). -/

namespace Sys2Proof.Machine

open Sys2Proof

/-! The start of a Clause (R77, R90, R102, R111) -/

/-- Offset of the Clause at the head of slot `sl` (R76). -/
def Engine.headOff (e : Engine) (sl : Nat) : Nat :=
  (tget 0 e.cqBase sl).toNat + 64 * ((tget 0 e.cqHead sl).toNat % max 1 (tget 0 e.cqSize sl).toNat)

/-- A stopped slot of the Engine resumes at its faulted tile after `RETRY` (R116). -/
def Engine.resumes (e : Engine) (sl : Nat) : Bool :=
  let r := e.run sl
  r.phase = .nextTile && !r.cl.isEmpty

/-- The slot is ready: its head Clause's start condition holds (R77, R102); a group count above 1,024 names no groups to wait for
(DEDUCED, log entry 61). -/
def Area.slotReady (a : Area) (sl : Nat) : Bool :=
  let e := a.eng
  if !e.hasClause sl || (e.stoppedAt sl).isSome then false
  else if e.resumes sl then true
  else
    let v := leNat (cellsRead a.mem.bytes (e.headOff sl) 64)
    (!clWaitEn v || decide (clWaitVal v ≤ a.counter (clWaitCtr v)))
    && (clOpcode v != 3 || decide (1024 < clGroups v) || e.fullStuck v || (List.range (clGroups v)).any (e.groupReady v)
        || (List.range (clGroups v)).all e.groupComplete)

/-- The slot that is next in turn (R77). -/
def Area.turn (a : Area) : Option Nat := (cyclicAfter 4 a.eng.lastServed).find? a.slotReady

/-- Read a list of descriptors through the narrow port (R90): their numbers, or the first fault. -/
def State.readDescs (s : State) (n : Option Nat) (c v : Nat) : Nat → Except W16 (List (Option Nat)) × State
  | 0 => (.ok [], s)
  | i + 1 =>
    match s.readDescs n c v i with
    | (.error e, s) => (.error e, s)
    | (.ok l, s) =>
      let p := clPtr v i
      if !ptrEn p then (.ok (l ++ [none]), s) else
      match s.readSpace0 n c (ptrOff p) 32 with
      | (.bad code _, s) => (.error code, s)
      | (.ok b, s) => (.ok (l ++ [some (leNat b)]), s)

def descWords (o : Option Nat) : List W32 := match o with | some d => words32 (leBytes 32 d) | none => []

/-- Start the Clause at the head of slot `sl`. -/
def State.clauseBegin (s : State) (c sl : Nat) : State :=
  let n := s.residentAt c
  let e := s.eng c
  let clean (e : Engine) : Engine := { e with weights := none, shadow := none, terms := [], active := some sl }
  if e.resumes sl then s.setEng c (let r := e.run sl; (clean e).setRun sl { r with wide := r.wideNow (r.geo e.pairEn) })
  else
    match s.readSpace0 n c (e.headOff sl) 64 with
    | (.bad code _, s1) => (s1.setEng c ((s1.eng c).setRun sl {})).clauseFault c sl 1 code 0 {}
    | (.ok bytes, s1) =>
      let v := leNat bytes
      let r0 : Run := { cl := words32 bytes, xbias := tget 0 e.xbias sl, lastGroup := clGroups v - 1 }
      let s2 := s1.setEng c ((s1.eng c).setRun sl r0)
      if clOpcode v > 3 then s2.clauseFault c sl 1 0x1001#16 v {} else
      match ptrFault v with
      | some code => s2.clauseFault c sl 1 code v {}
      | none =>
        match s2.readDescs n c v 6 with
        | (.error code, s3) => s3.clauseFault c sl 1 code v {}
        | (.ok l, s3) =>
          let g (i : Nat) : Option Nat := lget none l i
          let d : Descs := ⟨g 0, g 1, g 2, g 3, g 4, g 5⟩
          match s3.startFault n c v d e.pairEn e.gqPub with
          | some code => s3.clauseFault c sl 1 code v {}
          | none =>
            let r1 : Run := { r0 with a := descWords d.a, b := descWords d.b, c := descWords d.c, cin := descWords d.cin,
                                      alo := descWords d.alo, blo := descWords d.blo
                                      phase := if clOpcode v = 0 then .ending else .nextTile }
            let r2 := if clOpcode v = 0 then r1 else { r1 with wide := r1.wideNow (r1.geo e.pairEn) }
            (s3.setEng c ((clean (s3.eng c)).setRun sl r2)).trace c 3 3 0 (clTag v + sl * 65536)

def execClauseStart (c sl : Nat) (s : State) : Res :=
  onUnit (isComb c && decide (sl < 4))
    (let e := s.eng c
     if e.active.isNone ∧ !e.halted ∧ !(List.range 4).any (tget false e.frozen) ∧ !(s.dead c) ∧ !(s.engGated c) ∧ s.ctxRuns c ∧ (s.area c).turn = some sl
     then s.clauseBegin c sl else s)

/-! Tiles (R98, R105-R107, R113, R114) -/

/-- Close a unit whose tiles have all drained: the next segment of a ragged group, or the group last served (R105,
R107, R203). -/
def Run.closeUnit (r : Run) : Run :=
  let r1 := { r with unitOpen := false, tiles := 0, kseg := 0, entries := [] }
  if clOpcode r.v = 3 then { r1 with lastGroup := r.group, forced := none } else { r1 with segment := r.segment + 1 }

/-- The run as the sequencer sees it when it looks for the next tile. -/
def Run.settled (r : Run) (m : PMem) (ge : Geo) : Run := if r.unitOpen && r.exhausted m ge then r.closeUnit else r

/-- Consume `n` entries of a group in order of arrival (R68, R70, R107): the Engine afterwards, the entries kept and how
many were discarded with 0x4102. -/
def Engine.consume (e : Engine) (g n rowsA : Nat) : Engine × List GEntry × Nat :=
  let mine := (e.gq.filter (fun q => q.group = g)).take n
  let gq := (e.gq.foldl (fun (acc : List GEntry × Nat) q =>
    if q.group = g ∧ acc.2 < n then (acc.1, acc.2 + 1) else (acc.1 ++ [q], acc.2)) ([], 0)).1
  let good := mine.filter (fun q => decide ((lget 0 q.words 0).toNat % 2 ^ 24 < rowsA))
  let badN := mine.length - good.length
  let e1 := { e with gq := gq, consumed := tset 0 e.consumed g (tget 0 e.consumed g + mine.length) }
  (if badN = 0 then e1 else e1.portFault 0x4102#16 g, good, badN)

/-- Values the bank starts from for a tile: zero, `CIN` with its subnormals flushed, or partial sums (R42, R63, R99). -/
def State.initAcc (s : State) (c sl : Nat) (r : Run) (ge : Geo) (ps : List (Nat × Nat × Nat)) : Tbl W32 :=
  let m := (s.area c).mem
  let e := s.eng c
  let cols := min ge.nt (ge.n - r.nt * ge.nt)
  let flush (w : W32) : W32 := fvWord 24 (fv w)
  let val (p : Nat × Nat × Nat) (j : Nat) : W32 :=
    if r.kseg ≠ 0 then tget 0 e.scratch ((sl * 2 ^ 24 + p.1) * 2 ^ 24 + r.nt * ge.nt + j)
    else if clAccInit r.v && p.2.1 = 0 then
      flush (BitVec.ofNat 32 (m.w32 (mBase r.dcin + (r.row0 + p.1) * mStride r.dcin + 4 * (r.nt * ge.nt + j))))
    else 0
  (ps.zip (List.range ps.length)).foldl (fun t q =>
    (List.range cols).foldl (fun t j => tset 0 t ((r.bank * 256 + q.2) * 2048 + j) (val q.1 j)) t)
    (e.acc.filter (fun x => x.1 / (256 * 2048) != r.bank))

/-- The tile begins: the other bank, its values, its flags (R63, R83, R104). -/
def State.tileOpen (s : State) (c sl : Nat) (r : Run) (ge : Geo) (ps : List (Nat × Nat × Nat)) : State :=
  let e := s.eng c
  let pin := s.pairedIn c
  let r1 := { r with phase := .stream, kc := 0, pass := 0, pos := 0, bank := 1 - r.bank
                     anyFallback := r.anyFallback || e.fallback, anyUnchecked := r.anyUnchecked || (e.pairEn && !pin)
                     allPaired := r.allPaired && pin }
  let acc := s.initAcc c sl r1 ge ps
  let r2 := if (r1.chunkList (s.area c).mem ge).isEmpty then { r1 with phase := .drain } else r1
  (s.setEng c { (e.setRun sl r2) with acc := acc, terms := [] }).havocScratch c r.v (if r.kseg = 0 then r.scratchNeed ge ps else 0)

/-- The checks and the start of the tile the run stands at; `first`: the first tile of its unit, whose gather entries
are consumed once the checks pass. -/
def State.tileCheck (s0 s : State) (c sl : Nat) (r : Run) (ge : Geo) (first : Bool) : State :=
  let m := (s.area c).mem
  -- a unit that faults at its first tile stays to be chosen, with its entries queued (R115, R116)
  let rf := if first then { r with unitOpen := false, lastGroup := (r.group + clGroups r.v - 1) % max (clGroups r.v) 1 } else r
  let sf := s.setEng c ((s.eng c).setRun sl rf)
  let ps := r.positions m ge r.mt
  match r.rlFault m ge ps with
  | some code => s0.tileFault sf c sl code 0
  | none =>
    match (if r.kseg = 0 then r.resourceFault m ge first ps else none) with
    | some code => s0.tileFault sf c sl code 0
    | none =>
      let e := s.eng c
      let k := if first && clOpcode r.v = 3 then e.consume r.group r.rows (mRows r.da) else (e, r.entries, 0)
      let n := s.residentAt c
      let s := if k.2.2 = 0 then s else s.event n 0x4102#16 c (masterField (.engine c sl)) 0
      let r := if first && clOpcode r.v = 3 then
          { r with entries := k.2.1, rows := k.2.1.length, nextRow := r.nextRow + k.2.1.length
                   computed := tset 0 r.computed r.group (tget 0 r.computed r.group + k.2.1.length) } else r
      let r := { r with wide := r.wideNow ge }
      let ps := r.positions m ge r.mt
      if ps.isEmpty then s.setEng c (k.1.setRun sl r) else
      let s := s.setEng c (k.1.setRun sl r)
      let cin := if clAccInit r.v && r.kseg = 0 then r.cinRanges ge ps r.nt else []
      match s.wideRead c sl cin with
      | (some code, s1) => s0.tileFault s1 c sl code (lget 0 (r.chunkList m ge) 0)
      | (none, s1) => s1.tileOpen c sl r ge ps

/-- Outputs must have left before the next tile starts: in paired mode and under the Pruner, where one may still be
withheld or refused (log entry 23). -/
def Engine.mustDrain (e : Engine) (r : Run) : Bool := (e.pairEn || clPrune r.v != 0) && !e.outQ.isEmpty

/-- Start the next tile of the running Clause. -/
def State.tileStart (s : State) (c : Nat) : State :=
  let e := s.eng c
  match e.active with
  | none => s
  | some sl =>
    let a := s.area c
    let r0 := e.run sl
    let ge := r0.geo e.pairEn
    if r0.phase ≠ .nextTile ∨ e.mustDrain r0 then s else
    let r := r0.settled a.mem ge
    let place (r : Run) : Run := let t := r.tileAt (r.nm a.mem ge) (r.nn ge) r.tiles; { r with mt := t.1, nt := t.2 }
    if r.unitOpen then s.tileCheck s c sl (place r) ge false
    else
      match e.nextUnit r a.mem ge with
      | .wait => s
      | .done => s.setEng c (e.setRun sl { r with phase := .ending })
      | .unit g k a0 row0 rows =>
        let r1 := place { r with unitOpen := true, group := g, segment := k, aRow0 := a0, row0 := row0, rows := rows, tiles := 0, kseg := 0 }
        -- a ragged vector is read at the unit's first tile through the narrow port (R201, R210)
        if clOpcode r.v = 2 then
          match s.readSpace0 (s.residentAt c) c (mRagged r.da) (4 * clGroups r.v) with
          | (.bad code _, s1) => s.tileFault (s1.setEng c ((s1.eng c).setRun sl { r1 with unitOpen := false })) c sl code 0
          | (.ok _, s1) => s.tileCheck s1 c sl r1 ge true
        else s.tileCheck s c sl r1 ge true

/-- The Engine can take a step: no slot of it is frozen or halted at a K-chunk boundary (R79, R376). -/
def Engine.steps (e : Engine) : Bool :=
  match e.active with
  | none => false
  | some sl =>
    let r := e.run sl
    !((List.range 4).any (tget false e.frozen) || e.halted) || (r.phase = .stream && decide (0 < r.pos ∨ 0 < r.pass))

/-- An Engine whose context is being switched out goes on to its next swap point and ends its drain (R78, R356). -/
def State.engStays (s : State) (c : Nat) : Bool :=
  let e := s.eng c
  match s.residentAt c, e.active with
  | some n, some sl =>
    let r := e.run sl
    (s.ctx n).moving = 0 || r.phase = .drain || (r.phase = .stream && decide (0 < r.pos ∨ 0 < r.pass))
  | _, _ => true
/-- A step of the arrays: not in Fallback, on a Comb that is not lost. -/
def State.engOn (s : State) (c : Nat) : Bool := (s.eng c).steps && !(s.eng c).fallback && !(s.dead c) && !(s.engGated c) && s.engStays c

def execTileStart (c : Nat) (s : State) : Res := onUnit (isComb c) (if s.engOn c then s.tileStart c else s)

/-! Loads and swaps (R59, R60, R135, R139, R535) -/

/-- The weight tile the current stream needs: chunk and slice. -/
def Run.need (r : Run) (m : PMem) (ge : Geo) : Nat × Bool := (r.chunk m ge, r.stream.1)
/-- The weight tile that a later stream of the tile needs, if another is needed. -/
def Run.needNext (r : Run) (m : PMem) (ge : Geo) : Option (Nat × Bool) :=
  let rest := ((passStreams (clPasses r.v)).drop (r.pass + 1)).map (fun x => (r.chunk m ge, x.1))
  let later := ((r.chunkList m ge).drop (r.kc + 1)).take 1
  (rest ++ later.map (fun k => (k, false))).find? (fun x => x != r.need m ge)

/-- Byte ranges a weight tile's load reads. -/
def Run.tileRanges (r : Run) (ge : Geo) (d nt kc : Nat) : List (Nat × Nat) :=
  (tileExtents r.v d ge nt kc).flatMap (fun e => e.1.flatMap (fun row => rowRanges d r.sh row e.2.1 e.2.2))

/-- Load a weight tile of the run into the shadow buffers. A chunk whose check or read fails never becomes active; the
slot stops once the chunk before it has streamed (R139, R210). -/
def State.shadowLoad (s : State) (c : Nat) : State :=
  let e := s.eng c
  match e.active with
  | none => s
  | some sl =>
    let r := e.run sl
    let ge := r.geo e.pairEn
    let m := (s.area c).mem
    if r.phase ≠ .stream then s else
    let g := if clOpcode r.v ≥ 2 then r.group else 0
    let now := r.need m ge
    let want := if tileIs e.weights g r.nt now.1 now.2 then r.needNext m ge else some now
    match want with
    | none => s
    | some w =>
      if tileIs e.shadow g r.nt w.1 w.2 then s else
      let d := if w.2 then r.dblo else r.db
      -- the tile would be used by the stream that stands now, before its first read
      let atOnce := w == now && r.pos = 0
      let stop (s1 : State) (code : W16) : State := if atOnce then s.tileFault s1 c sl code w.1 else s
      match s.wideRead c sl (r.tileRanges ge d r.nt w.1) with
      | (some code, s1) => stop s1 code
      | (none, s1) =>
        let m1 := (s1.area c).mem
        let sf := if mSparse r.db = 0 then none else
          structFault m1 r.v r.db (if clPasses r.v ≥ 2 then some r.dblo else none) r.sh ge r.nt w.1
        match sf with
        | some code => stop s1 code
        | none => s1.setEng c { s1.eng c with shadow := some ⟨g, r.nt, w.1, w.2, tileElems m1 r.v d r.sh ge r.nt w.1⟩ }

def execShadowLoadDone (c : Nat) (s : State) : Res := onUnit (isComb c) (if s.engOn c then s.shadowLoad c else s)

/-! Activation reads (R39, R41, R57, R63, R64, R73, R98, R122, R125, R126) -/

/-- Size of a reduction group (R39, R65, R122). -/
def Run.groupSize (r : Run) : Nat :=
  let ga := mG r.da
  let gb := if mSparse r.db = 0 then mG r.db else 8 * mG r.db / keepOf (mSparse r.db)
  if clTB r.v then (if clTA r.v then min ga (mG r.db) else ga)
  else if clTA r.v then gb else min ga gb

/-- The activation elements of a position in a chunk: K position, element code, scale code, reduction group. -/
def Run.actElems (r : Run) (m : PMem) (ge : Geo) (d chunk : Nat) (p : Nat × Nat × Nat) : List (Nat × Nat × Nat × Nat) :=
  if mSparse r.da = 3 then
    let row := rlRow m d p.1
    let mine := ((row.zip (List.range row.length)).filter (fun x => x.2 % p.2.2 = p.2.1 && x.1.1 / ge.chunk = chunk)).map (·.1)
    (mine.zip (List.range mine.length)).map (fun x => (x.1.1, x.1.2.1, x.1.2.2, x.2 / 16))
  else
    let g := r.groupSize
    (List.range ge.chunk).map (fun i =>
      let k := chunk * ge.chunk + i
      let q := if clTA r.v then denseAt m d 0 k (r.aRow p.1) else denseAt m d 0 (r.aRow p.1) k
      (k, q.1, q.2, i / g))

/-- Byte ranges an activation read takes. -/
def Run.actRanges (r : Run) (m : PMem) (ge : Geo) (d chunk : Nat) (ps : List (Nat × Nat × Nat)) : List (Nat × Nat) :=
  if mSparse r.da = 3 then
    let w := fmtW (mFmt d)
    ps.flatMap (fun p =>
      let v0 := (rlEntry m d p.1).2
      let n := (rlCols m d p.1).length
      if n = 0 then [] else [(mBase d + w * v0 / 8, cdiv (w * (v0 + n)) 8 - w * v0 / 8), (mScale d + v0 / mG d, cdiv (v0 + n) (mG d) - v0 / mG d)])
  else if clTA r.v then
    ps.flatMap (fun p => (List.range ge.chunk).flatMap (fun i => rowRanges d 0 (chunk * ge.chunk + i) (r.aRow p.1) 1))
  else ps.flatMap (fun p => rowRanges d 0 (r.aRow p.1) (chunk * ge.chunk) ge.chunk)

/-- A product with the slot's biases added to its scale exponents (R73). -/
def biased (xb : W32) : Prod → Prod
  | .nan => .nan
  | .val m e => .val m (e + sgn 8 xb.toNat + sgn 8 (xb.toNat / 256))

/-- Key of the terms of a position, column of the tile and reduction group. -/
def termKey (p n g : Nat) : Nat := (p * 2048 + n) * 64 + g

/-- The products of a position with the active tile, added to the terms of their groups. -/
def addTerms (r : Run) (ge : Geo) (fa fb : Nat) (tile : List WElem) (q : Nat) (as : List (Nat × Nat × Nat × Nat))
    (t : Tbl (List Prod)) : Tbl (List Prod) :=
  as.foldl (fun t a => (tile.filter (fun w => w.k = a.1)).foldl (fun t w =>
    let k := termKey q (w.n - r.nt * ge.nt) a.2.2.2
    tput t k (tget [] t k ++ [biased r.xbias (prodOf fa a.2.1 a.2.2.1 fb w.code w.scale)])) t) t

/-- Add the sums of a position's groups to its accumulators, groups in ascending order, and forget their terms. -/
def foldTerms (bank q : Nat) (t : Tbl (List Prod)) (acc : Tbl W32) : Tbl W32 :=
  (t.filter (fun x => x.1 / (64 * 2048) = q)).foldl (fun acc x =>
    let k := (bank * 256 + q) * 2048 + x.1 / 64 % 2048
    tset 0 acc k (accAdd (tget 0 acc k) (groupSum x.2))) acc

/-- Positions that a stream of a chunk reads: all, or for a row-list those that hold entries (R125). -/
def Run.readList (r : Run) (m : PMem) (ge : Geo) (chunk : Nat) (ps : List (Nat × Nat × Nat)) : List (Nat × (Nat × Nat × Nat)) :=
  let all := (List.range ps.length).zip ps
  if mSparse r.da = 3 then all.filter (fun x => !(r.actElems m ge r.da chunk x.2).isEmpty) else all

/-- What follows the last read of a stream: the chunk's next stream, the next chunk, or the drain. -/
def Run.advance (r : Run) (chunks : Nat) : Run :=
  if r.pass + 1 < (passStreams (clPasses r.v)).length then { r with pass := r.pass + 1, pos := 0 }
  else if r.kc + 1 < chunks then { r with kc := r.kc + 1, pass := 0, pos := 0 }
  else { r with phase := .drain, pass := 0, pos := 0 }

/-- Issue one activation read of up to four positions of the current stream, and update terms and accumulators. `tile`
are the active weights. -/
def State.actRead (s : State) (c sl : Nat) (tile : List WElem) : State :=
  let e := s.eng c
  let r := e.run sl
  let ge := r.geo e.pairEn
  let m := (s.area c).mem
  let chunk := r.chunk m ge
  let st := r.stream
  let da := if st.2 then r.dalo else r.da
  let rd := r.readList m ge chunk (r.positions m ge r.mt)
  let four := (rd.drop (4 * r.pos)).take 4
  match s.wideRead c sl (r.actRanges m ge da chunk (four.map (·.2))) with
  | (some code, s1) => s.tileFault s1 c sl code chunk
  | (none, s1) =>
    let m1 := (s1.area c).mem
    let e1 := s1.eng c
    let terms := four.foldl (fun t x => addTerms r ge (mFmt da) (mFmt r.db) tile x.1 (r.actElems m1 ge da chunk x.2) t) e1.terms
    let last := r.pass + 1 = (passStreams (clPasses r.v)).length
    let acc := if last then four.foldl (fun acc x => foldTerms r.bank x.1 terms acc) e1.acc else e1.acc
    let terms := if last then terms.filter (fun t => !(four.any (fun x => x.1 = t.1 / (64 * 2048)))) else terms
    let r1 := { r with pos := r.pos + 1 }
    let r2 := if rd.length ≤ 4 * r1.pos then r1.advance (r.chunkList m ge).length else r1
    let macs := four.length * min ge.chunk (ge.k - chunk * ge.chunk) * min ge.nt (ge.n - r.nt * ge.nt)
    let a := s1.area c
    s1.setArea c ({ a with eng := { (e1.setRun sl r2) with terms := terms, acc := acc } }.count 3 0 (if ge.fp4 then 8 else 7) macs)

/-- The next activation read, from weights that are active. -/
def State.activation (s : State) (c : Nat) : State :=
  let e := s.eng c
  match e.active, e.weights with
  | some sl, some w =>
    let r := e.run sl
    let ge := r.geo e.pairEn
    let m := (s.area c).mem
    let g := if clOpcode r.v ≥ 2 then r.group else 0
    let nd := r.need m ge
    if r.phase = .stream ∧ tileIs e.weights g r.nt nd.1 nd.2 then s.actRead c sl w.elems else s
  | _, _ => s

def execActivationRead (c : Nat) (s : State) : Res := onUnit (isComb c) (if s.engOn c then s.activation c else s)

/-- The swap, once the shadow tile is complete, and the new tile's first activation read with it (R59). -/
def State.swapTiles (s : State) (c : Nat) : State :=
  let e := s.eng c
  match e.active with
  | none => s
  | some sl =>
    let r := e.run sl
    let ge := r.geo e.pairEn
    let m := (s.area c).mem
    let g := if clOpcode r.v ≥ 2 then r.group else 0
    let nd := r.need m ge
    if r.phase = .stream ∧ r.pos = 0 ∧ !(tileIs e.weights g r.nt nd.1 nd.2) ∧ tileIs e.shadow g r.nt nd.1 nd.2 then
      (s.setEng c { e with weights := e.shadow, shadow := e.weights }).activation c
    else s

def execWeightSwap (c : Nat) (s : State) : Res := onUnit (isComb c) (if s.engOn c then s.swapTiles c else s)

/-! K segments (R99) -/

def State.kmnStart (s : State) (c : Nat) : State :=
  let e := s.eng c
  match e.active with
  | none => s
  | some sl =>
    let r := e.run sl
    if r.phase = .kWait ∧ (!clWaitEn r.v ∨ clWaitVal r.v + r.kseg ≤ (s.area c).counter (clWaitCtr r.v)) then
      s.setEng c (e.setRun sl { r with phase := .nextTile })
    else s
def execKmnSegmentStart (c : Nat) (s : State) : Res := onUnit (isComb c) (if s.engOn c then s.kmnStart c else s)

/-! Drains (R63, R74, R101, R129-R133) -/

/-- Ranking magnitude of the Pruner: NaN above infinity above finite values; zeros of either sign equal (R131). -/
def pruneMag (w : W32) : Nat := let m := w.toNat % 2 ^ 31; if m > 0x7F800000 then 0x7F800001 else m
/-- Columns of a group of `t` real columns that the Pruner keeps (R131, R132). -/
def pruneKeep (n t : Nat) (g : List W32) : List Nat :=
  if t = 0 then List.range n else
  let m (j : Nat) : Nat := pruneMag (lget 0 g j)
  (List.range t).filter (fun j => decide (((List.range t).filter (fun i => decide (m i > m j ∨ (m i = m j ∧ i < j)))).length < n))
/-- Values and in-group indices of a pruned segment; `real`: its columns below N. -/
def pruneSeg (n real : Nat) (vals : List W32) : List W32 × List Nat :=
  let gs := (List.range 32).map (fun g => ((vals.drop (8 * g)).take 8, pruneKeep n (min 8 (real - 8 * g)) ((vals.drop (8 * g)).take 8)))
  (gs.flatMap (fun g => g.2.map (fun j => lget 0 g.1 j)), gs.flatMap (·.2))
/-- Index bytes (R120). -/
def idxBytes (l : List Nat) : List Byte := leBytes (3 * l.length / 8) (packCodes 3 l)
/-- Bytes of a segment: values, then indices (R133). -/
def Seg.body (g : Seg) : List Byte := bytes32 g.vals ++ (if g.form = 0 then [] else idxBytes g.idx)

/-- One output segment from its 256 values. -/
def mkSeg (r : Run) (ge : Geo) (row six : Nat) (vals : List W32) : Seg :=
  let p := if clPrune r.v = 0 then (vals, []) else pruneSeg (keepOf (clPrune r.v)) (min 256 (ge.n - 256 * six)) vals
  let tr := BitVec.ofNat 32 ((r.row0 + row) % 2 ^ 24) ::
    (if clOpcode r.v = 3 then ((lget ⟨0, []⟩ r.entries row).words.drop 1).take 3 else [0, 0, 0])
  let g : Seg := { row := r.row0 + row, six := six, vals := p.1, idx := p.2, form := clPrune r.v, trailer := tr,
                   tag := BitVec.ofNat 16 (clTag r.v), crc := 0, first := false, mt := r.mt, nt := r.nt }
  { g with crc := crc32c g.body }

/-- The tile's output rows with the sums of their pieces, in ascending piece order (R129): row and positions. -/
def rowSums (e : Engine) (r : Run) (ps : List (Nat × Nat × Nat)) (j : Nat) : List (Nat × W32) :=
  ((List.range ps.length).zip ps).foldl (fun (acc : List (Nat × W32)) q =>
    let x := tget 0 e.acc ((r.bank * 256 + q.1) * 2048 + j)
    if q.2.2.1 = 0 then acc ++ [(q.2.1, x)]
    else match acc.getLast? with
      | some l => acc.dropLast ++ [(l.1, fadd32 l.2 x)]
      | none => [(q.2.1, x)]) []

/-- All segments of the drained tile, rows ascending and segments ascending in a row (R74, R101). -/
def tileSegs (e : Engine) (r : Run) (ge : Geo) (ps : List (Nat × Nat × Nat)) : List Seg :=
  let pad := BitVec.ofNat 32 (mPad r.dc)
  let cols := (List.range ge.nt).map (fun j => (rowSums e r ps j).map (·.2))
  let rows := (ps.filter (fun p => p.2.1 = 0)).map (·.1)
  ((List.range rows.length).zip rows).flatMap (fun q =>
    ((List.range (ge.nt / 256)).filter (fun sx => decide (r.nt * ge.nt + 256 * sx < ge.n))).map (fun sx =>
      let vals := (List.range 256).map (fun i =>
        let col := 256 * sx + i
        if r.nt * ge.nt + col < ge.n then lget 0 (lget [] cols col) q.1 else pad)
      mkSeg r ge q.2 (r.nt * ge.nt / 256 + sx) vals))

/-- The bank drains: output segments, or under `KMN` the partial tile to scratch; the walk goes on (R98, R99). -/
def State.bankDrain (s : State) (c : Nat) : State :=
  let e := s.eng c
  match e.active with
  | none => s
  | some sl =>
    let r := e.run sl
    let ge := r.geo e.pairEn
    let m := (s.area c).mem
    if r.phase ≠ .drain ∨ !e.outQ.isEmpty then s else
    let ps := r.positions m ge r.mt
    let tiles := r.nm m ge * r.nn ge
    let clear (e : Engine) : Engine := { e with acc := e.acc.filter (fun x => x.1 / (256 * 2048) != r.bank) }
    if r.kseg + 1 < r.nseg ge then
      let cols := min ge.nt (ge.n - r.nt * ge.nt)
      let scr := ((List.range ps.length).zip ps).foldl (fun t q => (List.range cols).foldl (fun t j =>
        tset 0 t ((sl * 2 ^ 24 + q.2.1) * 2 ^ 24 + r.nt * ge.nt + j) (tget 0 e.acc ((r.bank * 256 + q.1) * 2048 + j))) t) e.scratch
      let r1 := if r.tiles + 1 < tiles then { r with phase := .nextTile, tiles := r.tiles + 1 }
        else { r with phase := .kWait, tiles := 0, kseg := r.kseg + 1 }
      s.setEng c { ((clear e).setRun sl r1) with scratch := scr }
    else
      let segs := tileSegs e r ge ps
      let r1 := { r with phase := .nextTile, tiles := r.tiles + 1, segCount := segs.length, skipSegs := 0 }
      s.setEng c { ((clear e).setRun sl r1) with outQ := segs.drop r.skipSegs, pairCrc := [] }

def execBankDrainStart (c : Nat) (s : State) : Res := onUnit (isComb c) (if s.engOn c then s.bankDrain c else s)

/-! The output port (R74, R82, R133, R156, R157, R308, R401) -/

/-- A segment is withheld: the Clause stops at its tile, and `RETRY` resumes emission at the segment (R401, R402). -/
def State.segFault (s : State) (c sl : Nat) (code : W16) (g : Seg) : State :=
  let e := s.eng c
  let r := e.run sl
  let r1 := { r with tiles := r.tiles - 1, skipSegs := r.segCount - e.outQ.length, mt := g.mt, nt := g.nt }
  (s.setEng c { (e.setRun sl r1) with outQ := [], pairCrc := [] }).clauseFault c sl 2 code r.v ⟨r.group, r.row0, g.mt, g.nt, 0⟩

/-- A mismatch of the pair's check values (R401): counted, and the event names both logical Combs. -/
def State.pairMismatch (s : State) (c sl : Nat) (g : Seg) : State :=
  let s1 := (s.incObj 0x2900 9 32 1).segFault c sl 0xB005#16 g
  s1.event (s.residentAt c) 0xB005#16 (partnerOf c) (masterField (.engine c sl)) 0

/-- Ports of an edge-port group, by cell index (R156). -/
def edgePorts (g : Nat) : List Nat :=
  let two (lo n : Nat) : List Nat := (List.range n).flatMap (fun r => [(lo + r) * 32 + 7, (lo + r) * 32 + 23])
  if g = 0 then two 0 20 else if g = 1 then (List.range 20).map (fun r => r * 32 + 7)
  else if g = 2 then (List.range 20).map (fun r => r * 32 + 23) else if g = 3 then two 0 10 else two 10 10

/-- The ring of an enabled edge port has a free slot (R158). -/
def StoreCell.ringRoom (t : StoreCell) : Bool := t.edgeSlots != 0 && (t.edgeWr - t.edgeRd) != t.edgeSlots
/-- A segment reaches edge port `k` mod P of a group: none while another waits there (R157, R158). -/
def Area.toEdge (a : Area) (grp k : Nat) (g : Seg) : Option Area :=
  let ports := edgePorts grp
  let cell := lget 0 ports (k % max ports.length 1)
  let st := a.store cell
  if st.edgeQ.isEmpty && st.ringRoom then some (a.setStore cell { st with edgeQ := [g] }) else none

/-- Write a segment under route 0 (R96, R133, R209): the area, and the code of a refused write. -/
def State.segToMem (s : State) (c sl : Nat) (r : Run) (g : Seg) : State × Option W16 :=
  let n := s.residentAt c
  let ep := s.epLow n
  let at0 := mBase r.dc + g.row * mStride r.dc + 1024 * g.six
  let s := if r.clash then
      let e := s.eng c
      let d := (s.setEng c (e.setRun sl { r with clash := false })).drawChoice 16
      let a := d.2.area c
      d.2.setArea c { a with mem := { a.mem with poison := tset 0 a.mem.poison (at0 / 64 + d.1) 0x300A#16 } }
    else s
  let m := s.pmem n c 0
  if g.form = 0 then
    let m1 := m.writeBlock (at0 / 1024) g.body g.crc ep
    let m2 := if r.clash then { m1 with poison := (linesOf at0 1024).foldl (fun t l => tset 0 t l (tget 0 m.poison l)) m1.poison } else m1
    -- every word of the block is written anew
    let ecc := m2.ecc.filter (fun e => !(decide (at0 / 1024 = e.1 / 128)))
    (s.setPmem n c 0 { m2 with ecc := ecc }, none)
  else
    match s.store0 n c at0 (bytes32 g.vals) ep with
    | (s1, some (code, _)) => (s1, some code)
    | (s1, none) =>
      let w2 := s1.store0 n c (mMeta r.dc + g.row * (64 * cdiv (mCols r.dc) 256) + 64 * g.six) (idxBytes g.idx) ep
      (w2.1, w2.2.map (·.1))

/-- Emit the segment at the head of the output port. -/
def State.emitSeg (s : State) (c : Nat) : State :=
  let e := s.eng c
  match e.active, e.outQ with
  | some sl, g :: rest =>
    let r := e.run sl
    let pin := s.pairedIn c
    let chk : Option Bool := if pin then e.pairCrc.head?.map (fun x => x == g.crc) else some true
    match chk with
    | none => s
    | some false => s.pairMismatch c sl g
    | some true =>
      let g1 := { g with first := r.emitted = 0 }
      let gone (s1 : State) : State :=
        let e1 := s1.eng c
        s1.setEng c { (e1.setRun sl { (e1.run sl) with emitted := r.emitted + 1 }) with outQ := rest, pairCrc := e1.pairCrc.drop 1 }
      if clRoute r.v = 0 then
        match s.segToMem c sl r g1 with
        | (s1, none) => gone s1
        | (s1, some code) => s1.segFault c sl code g
      else if clRoute r.v = 1 then
        match (s.area c).toEdge (clRouteArg r.v) r.emitted g1 with
        | some a => gone (s.setArea c a)
        | none => s
      else
        let d := clRouteArg r.v % 4
        let a := s.area c
        if (match slNeighbour c d with | some c' => s.linkCut c' | none => false) then s.segFault c sl 0xB009#16 g
        else if (tget none a.slOut d).isNone then gone (s.setArea c { a with slOut := tput a.slOut d (some g1) }) else s
  | _, _ => s

def execOutputSegmentEmit (c : Nat) (s : State) : Res :=
  onUnit (isComb c) (if (s.eng c).active.isSome && !(s.dead c) && !(s.engGated c) then s.emitSeg c else s)

/-- The partner's check value for the next unchecked segment (R82); a first segment that differs is withheld at once. -/
def execPairCheckArrival (c : Nat) (crc : W32) (s : State) : Res :=
  onUnit (isComb c)
    (let e := s.eng c
     if !(s.pairedIn c) || decide (e.outQ.length ≤ e.pairCrc.length) then s else
     match e.active, e.outQ, e.pairCrc with
     | some sl, g :: _, [] => if g.crc = crc then s.setEng c { e with pairCrc := [crc] } else s.pairMismatch c sl g
     | some _, _ :: _, l => s.setEng c { e with pairCrc := l ++ [crc] }
     | _, _, _ => s)

/-! The end of a Clause (R69, R75, R103, R107, R396) -/

def State.clauseEnd (s : State) (c : Nat) : State :=
  let e := s.eng c
  match e.active with
  | none => s
  | some sl =>
    let r0 := e.run sl
    let ge := r0.geo e.pairEn
    let r := if clOpcode r0.v = 0 then r0 else r0.settled (s.area c).mem ge
    let fin := r.phase = .ending || (r.phase = .nextTile && !r.unitOpen && e.nextUnit r (s.area c).mem ge = .done)
    if !fin || !e.outQ.isEmpty then s else
    let n := s.residentAt c
    -- the increment would pass the counter's limit (R273)
    if clDoneEn r.v && s.willSaturate c (n.getD 16) (clDoneCtr r.v) 1 then s.clauseFault c sl 2 0x4401#16 r.v (r.fpos 0) else
    -- groups' counts of rows, when C has a ragged vector (R107)
    let s1 := if clOpcode r.v = 3 ∧ mRagEn r.dc then
        (s.performWrite n c 0 (mRagged r.dc)
          ((List.range (clGroups r.v)).flatMap (fun g => leBytes 4 (tget 0 r.computed g))) (s.epLow n)).1 else s
    let s2 := s1.writeCrec c r.v 0 0 r {}
    let s3 := if clDoneEn r.v then s2.passAdd c { ctx := n.getD 16, ix := clDoneCtr r.v, amt := 1, who := some (.engine c sl) } else s2
    let d := s3.draw
    let s4 := if clOpcode r.v = 0 then s3 else d.2.incObj 0x2900 0x0A 64 d.1.toNat
    let e1 := s4.eng c
    let e2 := if clOpcode r.v = 3 then
        { e1 with closes := e1.closes.filter (fun x => decide (clGroups r.v ≤ x.1))
                  consumed := e1.consumed.filter (fun x => decide (clGroups r.v ≤ x.1)) } else e1
    let e3 := { e2 with runs := tdel e2.runs sl, cqHead := tset 0 e2.cqHead sl (tget 0 e2.cqHead sl + 1), lastServed := sl
                        active := none, scratch := e2.scratch.filter (fun x => x.1 / 2 ^ 48 != sl) }
    (s4.setEng c e3).trace c 4 3 0 (clTag r.v)

def execClauseComplete (c : Nat) (s : State) : Res :=
  onUnit (isComb c) (if s.dead c || s.engGated c then s else s.clauseEnd c)

/-- The full port (R108): the fullest group is made ready, or the Clause faults with 0x1011 once its drains have ended. -/
def execGatherFullResolve (c : Nat) (s : State) : Res :=
  onUnit (isComb c)
    (let e := s.eng c
     match e.active with
     | none => s
     | some sl =>
       let r := (e.run sl).settled (s.area c).mem ((e.run sl).geo e.pairEn)
       if clOpcode r.v = 3 ∧ r.phase = .nextTile ∧ !r.unitOpen ∧ r.forced.isNone ∧ e.fullStuck r.v then
         match e.fullest r.v with
         | some g => s.setEng c (e.setRun sl { r with forced := some g })
         | none =>
           if !e.outQ.isEmpty then s else
           let low := ((List.range (clGroups r.v)).find? (fun g => !(e.groupComplete g))).getD 0
           (s.setEng c (e.setRun sl r)).clauseFault c sl 2 0x1011#16 r.v ⟨low, r.nextRow, 0, 0, 0⟩
       else s)

/-! Fallback (R25, R26, R85-R87, R169-R171, R416) -/

/-- The Engine's Clauses run in Fallback: the tile in progress is recomputed from its first K chunk, its bank initialised again (R87). -/
def State.fallbackEng (s : State) (c : Nat) : State :=
  let e := s.eng c
  let e1 := { e with fallback := true, weights := none, shadow := none, terms := [] }
  match e.active with
  | none => s.setEng c e1
  | some sl =>
    let r := e.run sl
    let r1 := { r with anyFallback := true, anyUnchecked := r.anyUnchecked || e.pairEn, allPaired := false }
    if r.phase ≠ .stream ∧ r.phase ≠ .drain then s.setEng c (e1.setRun sl r1) else
    let ge := r.geo e.pairEn
    let ps := r.positions (s.area c).mem ge r.mt
    let r2 := { r1 with phase := .stream, kc := 0, pass := 0, pos := 0 }
    s.setEng c { (e1.setRun sl r2) with acc := s.initAcc c sl r2 ge ps }
/-- The Comb enters Fallback; the context receives no fault (R87). -/
def State.enterFallback (s : State) (c : Nat) : State :=
  if (s.eng c).fallback then s else
  let n := s.residentAt c
  ((s.setComb c { s.comb c with engDead := true }).cperAdd ⟨0xB00A#16, 2, n, 0, c, 0, s.faultEpoch n, 0, 0⟩ 2 1 2 false).fallbackEng c

def execEngineFallbackEntry (c : Nat) (s : State) : Res := onUnit (isComb c) (s.enterFallback c)

/-- The watchdog of a busy Engine (R416): logged with 0xB00A, and the Comb enters Fallback. Firmware without a free
cycle is no failure (R171). -/
def execEngineWatchdogExpire (c : Nat) (s : State) : Res :=
  onUnit (isComb c)
    (if (s.eng c).busy && !(s.eng c).fallback then
       let n := s.residentAt c
       (s.enterFallback c).report ⟨0xB00A#16, 2, n, 0, c, 0, s.faultEpoch n, 0, 0⟩
     else s)

/-- Some Worker Cell slot of context programs can issue in the cell: the service slot does not (R170). -/
def Worker.ctxReady (w : Worker) : Bool :=
  w.slots.any (fun e => e.2.running && !e.2.frozen && !e.2.halted && e.2.wait = .ready)

/-- The firmware in the service slot of a Worker Cell takes the running Clause one step on (log entry 27). It computes
with the same tiles, groups and checks, from the operands in Comb Memory. -/
def State.fallbackStep (s : State) (c : Nat) : State :=
  let e := s.eng c
  match e.active with
  | none => s
  | some sl =>
    let r := e.run sl
    let ge := r.geo e.pairEn
    let m := (s.area c).mem
    match r.phase with
    | .nextTile => s.tileStart c
    | .kWait => s.kmnStart c
    | .drain => s.bankDrain c
    | .stream =>
      let g := if clOpcode r.v ≥ 2 then r.group else 0
      let nd := r.need m ge
      if tileIs e.weights g r.nt nd.1 nd.2 then s.activation c
      else
        let s1 := s.shadowLoad c
        if tileIs (s1.eng c).shadow g r.nt nd.1 nd.2 then s1.swapTiles c else s1
    | _ => s

def execFallbackIssue (c k : Nat) (s : State) : Res :=
  onUnit (isWorkerCell c k)
    (if (s.eng c).fallback && (s.eng c).steps && !(s.dead c) && !(s.worker c k).ctxReady && !(s.worker c k).svcHalt
        && s.engStays c then
       let a := s.area c
       (s.setArea c (a.count 0 (k * 5 + 4) 1 1)).fallbackStep c
     else s)

end Sys2Proof.Machine
end

