-- ==== Sys2Proof/Machine/Store.lean ====
section
/-! DEFINITION. Store Cells: posted register writes, slot queues, address generators, control words, edge rings, and
segments that arrive over a Scheduled Link (R147-R151, R157-R159, R194-R197, R309, R400). -/

namespace Sys2Proof.Machine

open Sys2Proof

def StoreCell.slot (t : StoreCell) (i : Nat) : SSlot := tget {} t.slots i
def StoreCell.setSlot (t : StoreCell) (i : Nat) (v : SSlot) : StoreCell := { t with slots := tput t.slots i v }
def StoreCell.gen (t : StoreCell) (g : Nat) : Gen := tget {} t.gens g
def StoreCell.setGen (t : StoreCell) (g : Nat) (v : Gen) : StoreCell := { t with gens := tput t.gens g v }

/-- A generator runs an entry of the slot. -/
def StoreCell.running (t : StoreCell) (i : Nat) : Bool := (List.range 2).any (fun g => (t.gen g).slot = some i)

/-- A slot of a Store Cell stops with a code, and its context receives an event (R151, R195, R196, R350); `head`: the
head entry is the faulted one. -/
def State.storeStop (s : State) (c k i : Nat) (code : W16) (head : Bool) : State :=
  let t := s.store c k
  let t1 := t.setSlot i { t.slot i with stopped := true, fault := code, headBad := head }
  let t2 := { t1 with gens := t1.gens.map (fun g => (g.1, if g.2.slot = some i then { g.2 with slot := none, pos := 0 } else g.2)) }
  ((s.setStore c k t2).event (s.residentAt c) code c (masterField (.worker c k i)) 0).trace c 7 1 (k * 2 + i % 2) code.toNat

/-! Register writes (R158, R194, R195, R197) -/

/-- A word for a push register (R195): the slot, and a code where it stops. `n` words make an entry. -/
def SSlot.push (x : SSlot) (ctw : Bool) (v : W32) : SSlot × Option W16 :=
  let n := if ctw then 4 else 10
  let entry (ws : List W32) : SEntry := if ctw then .ctw ws else .desc ws
  match x.part with
  | none => if 8 ≤ x.q.length then (x, some 0x4207#16) else ({ x with part := some (ctw, [v]) }, none)
  | some (k, ws) =>
    if k != ctw then ({ x with part := none }, some 0x4203#16)
    else if ws.length + 1 = n then ({ x with part := none, q := x.q ++ [entry (ws ++ [v])] }, none)
    else ({ x with part := some (k, ws ++ [v]) }, none)

/-- `SKIP` (R197). -/
def SSlot.skip (x : SSlot) : SSlot :=
  if x.stopped then { x with q := if x.headBad then x.q.drop 1 else x.q, stopped := false, fault := 0, headBad := false } else x
/-- `FLUSH` (R197); `run`: a generator runs the head entry. -/
def SSlot.flush (x : SSlot) (run : Bool) : SSlot :=
  { x with q := if run then x.q.take 1 else [], part := none, stopped := false, fault := 0, headBad := false }

/-- The ring lies within the SRAM (R158). -/
def edgeOk (base slots : Nat) : Bool := decide (base + 1152 * slots ≤ 0x30000)

/-- A register write reaches the Store Cell: the cell afterwards, the code with which the writer is refused, and the
stop of a slot of the Store Cell. -/
def StoreCell.write (t : StoreCell) (r : Nat) (v : W32) : StoreCell × Option W16 × Option (Nat × W16) :=
  let n := v.toNat
  let i := r % 4
  if r < 8 then
    let p := (t.slot i).push (decide (4 ≤ r)) v
    (t.setSlot i p.1, none, p.2.map (fun code => (i, code)))
  else if r = 0x0C then
    (if 16 ≤ n then (t, some 0x4205#16, none) else
     let j := n % 4
     let x := t.slot j
     let x1 := if bit n 2 then x.skip else x
     let x2 := if bit n 3 then x1.flush (t.running j) else x1
     (t.setSlot j x2, none, none))
  else if r = 0x0D then (if ptCfgOk n then ({ t with ptCfg := v }, none, none) else (t, some 0x4202#16, none))
  else if r = 0x10 then
    (if n % 64 = 0 ∧ n < 0x30000 ∧ edgeOk n t.edgeSlots.toNat then ({ t with edgeBase := v }, none, none) else (t, some 0x4205#16, none))
  else if r = 0x11 then
    (if n ≤ 128 ∧ edgeOk t.edgeBase.toNat n then ({ t with edgeSlots := v }, none, none) else (t, some 0x4205#16, none))
  else ({ t with edgeRd := v }, none, none)

/-- A Worker Cell slot stops at an access that failed later: the slot stops at the instruction boundary, and the
access's own address is named (R189). -/
def State.accessFault (s : State) (u : SlotRef) (id pc : Nat) (code : W16) : State :=
  let x := (s.slot u).completed id
  let y := { x.rollback with running := false, fault := code.setWidth 32, fpc := BitVec.ofNat 32 pc, wait := .ready, held := false,
                             pend := x.pend.filter (fun p => p.id != id) }
  ((s.setSlot u y).event (s.residentAt u.comb) code u.comb (masterField (.worker u.comb u.cell u.slot)) 0).trace
    u.comb 7 0 (u.cell * 5 + u.slot) code.toNat

/-- The oldest posted write on the row bus for the Store Cell arrives (R194). -/
def execStoreCellRegWriteArrival (c k : Nat) (s : State) : Res :=
  onUnit (isStoreCell c k)
    (let t := s.store c k
     match t.regQ with
     | [] => s
     | (r, v, who, id, pc) :: rest =>
       let u : SlotRef := ⟨c, who / 4, who % 4⟩
       let w := { t with regQ := rest }.write r v
       let s1 := s.setStore c k w.1
       match w.2.1 with
       | some code => s1.accessFault u id pc code
       | none =>
         let s2 := s1.completeOk (.worker u.comb u.cell u.slot) id
         match w.2.2 with
         | some (i, code) => s2.storeStop c k i code false
         | none => s2)

/-! Generators (R148-R151) -/

def gBase (d : Nat) : Nat := fld d 0 18
def gSize (d : Nat) : Nat := if bit d 18 then 8 else 4
def gIn (d : Nat) : Bool := bit d 19
def gPort (d : Nat) : Nat := fld d 20 3
def gCnt (d i : Nat) : Nat := fld d (32 + 16 * i) 16 + 1
def gStr (d i : Nat) : Int := sgn 19 (fld d (96 + 32 * i) 19)
def gTotal (d : Nat) : Nat := gCnt d 0 * gCnt d 1 * gCnt d 2 * gCnt d 3
/-- The address of element `e` in the order of R149. -/
def gAddr (d e : Nat) : Int :=
  let i0 := e % gCnt d 0
  let i1 := e / gCnt d 0 % gCnt d 1
  let i2 := e / (gCnt d 0 * gCnt d 1) % gCnt d 2
  let i3 := e / (gCnt d 0 * gCnt d 1 * gCnt d 2)
  (gBase d : Int) + i0 * gStr d 0 + i1 * gStr d 1 + i2 * gStr d 2 + i3 * gStr d 3
/-- A reserved bit is set or the port is reserved (R151). -/
def gBad (d : Nat) : Bool :=
  fld d 25 7 != 0 || bit d 115 || bit d 147 || fld d 179 13 != 0 || fld d 211 45 != 0 || decide (4 ≤ gPort d)

/-- A start condition of the Comb's counters (R149, R196). -/
def Area.waitOk (a : Area) (en : Bool) (ctr val : Nat) : Bool := !en || decide (val ≤ a.counter ctr)
/-- The head entry's start condition holds (R149, R196). -/
def Area.entryReady (a : Area) (k : Nat) : SEntry → Bool
  | .desc ws => let d := wnum ws; a.waitOk (bit d 23) (fld d 116 12) (fld d 256 64)
  | .ctw ws =>
    let d := wnum ws
    a.waitOk (bit d 4) (fld d 8 12) (fld d 64 64)
    && (fld d 0 4 != 1 || !isEdge k || decide (fld d 32 16 ≤ ((a.store k).edgeWr - (a.store k).edgeRd).toNat))

/-- Slot `i` is ready for generator `g` (R150). -/
def Area.genReady (a : Area) (k i : Nat) : Bool :=
  let t := a.store k
  let x := t.slot i
  !x.stopped && !t.running i && (match x.q with | [] => false | e :: _ => a.entryReady k e)
/-- The slot that is next in turn for a generator (R150). -/
def Area.genTurn (a : Area) (k g : Nat) : Option Nat :=
  let ge := (a.store k).gen g
  if ge.slot.isSome || ge.halted then none else (cyclicAfter 4 ge.last).find? (a.genReady k)

def execGenDescStart (c k g : Nat) (s : State) : Res :=
  onUnit (isStoreCell c k && decide (g < 2))
    (let t := s.store c k
     if !s.ctxRuns c ∨ s.dead c then s else
     match (s.area c).genTurn k g with
     | none => s
     | some i =>
       match (t.slot i).q with
       | .desc ws :: _ =>
         let t1 := t.setGen g { t.gen g with slot := some i, pos := 0, last := i }
         if gBad (wnum ws) then (s.setStore c k t1).storeStop c k i 0x4203#16 true else s.setStore c k t1
       | _ => s)

/-- The descriptor a generator runs ends: its counter is raised (R149). -/
def State.genDone (s : State) (c k g i d : Nat) : State :=
  let t := s.store c k
  let x := t.slot i
  let s1 := s.setStore c k ((t.setSlot i { x with q := x.q.drop 1 }).setGen g { t.gen g with slot := none, pos := 0 })
  if bit d 24 then
    s1.passAdd c { ctx := (s.residentAt c).getD 16, ix := fld d 148 12, amt := 1, who := some (.worker c k i) }
  else s1

/-- Count a moved element (R168). -/
def State.genMoved (s : State) (c k g i d : Nat) : State :=
  let s1 := s.setArea c ((s.area c).count 1 (k * 2 + g) 1 1)
  let t := s1.store c k
  let ge := t.gen g
  if gTotal d ≤ ge.pos + 1 then s1.genDone c k g i d else s1.setStore c k (t.setGen g { ge with pos := ge.pos + 1 })

/-- Move one element of the running descriptor (R149, R151, R154, R155). -/
def execGenElementMove (c k g : Nat) (s : State) : Res :=
  onUnit (isStoreCell c k && decide (g < 2))
    (let t := s.store c k
     let ge := t.gen g
     match ge.slot with
     | none => s
     | some i =>
       if ge.halted ∨ !s.ctxRuns c ∨ s.dead c then s else
       match (t.slot i).q with
       | .desc ws :: _ =>
         let d := wnum ws
         let a := gAddr d ge.pos
         let n := gSize d
         let p := gPort d
         if a < 0 ∨ 0x2FFFF < a ∨ a % (n : Int) ≠ 0 then s.storeStop c k i 0x3006#16 true
         else if gIn d then
           if ptNames t.ptCfg.toNat p then s.storeStop c k i 0x4201#16 true else
           match t.ports.inQ p with
           | [] => s
           | v :: _ =>
             let s1 := s.popWord c k p
             let t1 := s1.store c k
             (s1.setStore c k { t1 with mem := cellsWrite t1.mem a.toNat (leBytes n v.toNat) }).genMoved c k g i d
         else if ptEn t.ptCfg.toNat p then s.storeStop c k i 0x4201#16 true
         else if s.canPut c k p then
           (s.putWord c k p (BitVec.ofNat 64 (leNat (cellsRead t.mem a.toNat n)))).genMoved c k g i d
         else s
       | _ => s)

/-! Control words (R196) -/

/-- The control word is malformed for its cell. -/
def ctwBad (k d : Nat) : Bool :=
  decide (2 ≤ fld d 0 4) || fld d 6 2 != 0 || fld d 48 16 != 0 || (fld d 0 4 = 0 && !bit d 5) || (fld d 0 4 = 1 && !isEdge k)

/-- An idle generator takes the ready control word at the head of slot `i`; `kind`: 0 `SIGNAL`, 1 `RELEASE`. -/
def State.ctwTake (s : State) (c k i kind : Nat) : State :=
  let a := s.area c
  let t := a.store k
  match (List.range 2).find? (fun g => a.genTurn k g = some i), (t.slot i).q with
  | some g, .ctw ws :: rest =>
    let d := wnum ws
    if ctwBad k d then s.storeStop c k i 0x4203#16 true
    else if fld d 0 4 ≠ kind then s
    else
      let t1 := (t.setSlot i { t.slot i with q := rest }).setGen g { t.gen g with last := i }
      let t2 := if kind = 1 then { t1 with edgeRd := t1.edgeRd + BitVec.ofNat 32 (fld d 32 16) } else t1
      let s1 := s.setStore c k t2
      if bit d 5 then
        s1.passAdd c { ctx := (s.residentAt c).getD 16, ix := fld d 20 12, amt := if kind = 0 then fld d 32 16 else 1,
                       who := some (.worker c k i) }
      else s1
  | _, _ => s

def execCtwSignal (c k i : Nat) (s : State) : Res := onUnit (isStoreCell c k && decide (i < 4)) (if s.ctxRuns c && !(s.dead c) then s.ctwTake c k i 0 else s)
def execCtwRelease (c k i : Nat) (s : State) : Res := onUnit (isStoreCell c k && decide (i < 4)) (if s.ctxRuns c && !(s.dead c) then s.ctwTake c k i 1 else s)

/-! Edge rings (R157-R159, R309, R400) -/

/-- Slot header of R159. -/
def Seg.header (g : Seg) : Nat := g.src % 8 + g.form % 4 * 8 + g.tag.toNat * 2 ^ 16 + g.crc.toNat * 2 ^ 32
/-- The segment waiting at the edge port goes into its ring; a wrong check value is raised to the context (R400). -/
def execEdgeSlotWrite (c k : Nat) (s : State) : Res :=
  onUnit (isEdgePort c k)
    (let t := s.store c k
     match t.edgeQ with
     | [] => s
     | g :: rest =>
       if !t.ringRoom then s else
       let i := t.edgeWr.toNat % t.edgeSlots.toNat
       let at0 := t.edgeBase.toNat + 1152 * i
       let m1 := cellsWrite t.mem at0 (bytes32 g.vals)
       let m2 := if g.form = 0 then m1 else cellsWrite m1 (at0 + 1024) (idxBytes g.idx)
       let m3 := cellsWrite (cellsWrite m2 (at0 + 1072) (bytes32 g.trailer)) (at0 + 1088) (leBytes 8 g.header)
       let s1 := s.setStore c k { t with mem := m3, edgeWr := t.edgeWr + 1, edgeQ := rest }
       if crc32c g.body = g.crc then s1 else
       let n := s.residentAt c
       (s1.event n 0xB003#16 c (masterField (.worker c k 0)) (BitVec.ofNat 64 (i + g.tag.toNat * 65536))).failParity n (s.epLow n) 0xB003#16)

/-- `SL_RX` of a context for a direction (R309). -/
def State.slRx (s : State) (n d : Nat) : Nat := s.obj (n + 1) 0x2740 (d + 1) 0

/-- The segment in transit from direction `d` reaches an edge port of the receiving Comb (R309). -/
def execSlSegmentArrival (c d : Nat) (s : State) : Res :=
  onUnit (isComb c && decide (d < 4))
    (match slNeighbour c d with
     | none => s
     | some c' =>
       let a' := s.area c'
       let d' := if d % 2 = 0 then d + 1 else d - 1
       match tget none a'.slOut d', s.residentAt c with
       | some g, some n =>
         let a := s.area c
         let k := if g.first then 0 else tget 0 a.slK d
         match a.toEdge (s.slRx n d) k { g with src := d + 1 } with
         | none => s
         | some a1 =>
           (s.setArea c { a1 with slK := tset 0 a1.slK d (k + 1) }).setArea c' { a' with slOut := tdel a'.slOut d' }
       | _, _ => s)

end Sys2Proof.Machine
end

