-- ==== Sys2Proof/Machine/Stream.lean ====
section
/-! DEFINITION. Streams of packets at both ends: acceptance, performance, halts and their acknowledgements at the
destination (R324-R326), completion, error completion and re-sending at the source (R242, R326-R328). -/

namespace Sys2Proof.Machine

open Sys2Proof

/-! Sequence numbers and incarnations -/

/-- `a` is at or before `b` among 16-bit sequence numbers. -/
def seqLe (a b : Nat) : Bool := (b + 65536 - a % 65536) % 65536 < 32768
/-- Incarnation `a` is older than `b`. -/
def incOlder (a b : Nat) : Bool := 1 ≤ (b + 256 - a % 256) % 256 && (b + 256 - a % 256) % 256 < 128
/-- Two packets belong to one stream as their destination sees it. -/
def sameStream (p q : Pkt) : Bool := p.src = q.src && p.master = q.master && p.cls = q.cls

/-! The destination -/

/-- The receive-table entry of a packet at Comb `c`. -/
def rxOf (c : Nat) (p : Pkt) (r : RxStream) : Bool := r.comb = c && r.src = p.src && r.master = p.master && r.cls = p.cls
/-- Some accepted packet of the stream is not yet performed. -/
def RxStream.pending (r : RxStream) : Bool :=
  match r.performed with
  | none => r.expect != 0
  | some q => (q + 1) % 65536 != r.expect
/-- The acknowledgement of a stream as it stands (R325): 65535 where nothing has been accepted or performed. -/
def State.rxAck (s : State) (r : RxStream) : State :=
  let p : Pkt := { dst := dstField s.ownModule r.comb, src := r.src, master := r.master, cls := r.cls, inc := r.inc }
  let perf := match r.performed with | none => 65535 | some q => q
  let hs := match r.halt with | none => 0 | some h => h.1
  let st := match r.halt with | none => 0 | some h => h.2
  s.reply r.comb p 0x10 ((r.expect + 65535) % 65536) (perf + hs * 65536) st []
/-- Change an entry; the 16th acceptance or performance since the last acknowledgement sends one (R325). -/
def State.rxSet (s : State) (i : Nat) (r : RxStream) : State :=
  if 16 ≤ r.sinceAck then { s with rx := lset s.rx i { r with sinceAck := 0 } }.rxAck r else { s with rx := lset s.rx i r }
/-- The sequence number performed next in order. -/
def RxStream.due (r : RxStream) : Nat := match r.performed with | none => 0 | some q => (q + 1) % 65536
/-- Packets performed before their turn are counted once those before them have been performed. -/
def RxStream.catchUp (r : RxStream) : Nat → RxStream
  | 0 => r
  | fuel + 1 => if r.early.contains r.due then { r with performed := some r.due, early := r.early.filter (· != r.due) }.catchUp fuel else r
/-- A packet has been performed: `OFFSET` of an `ACK` counts those performed in order (R325). -/
def RxStream.perform (r : RxStream) (seq : Nat) : RxStream :=
  if seq = r.due then { r with performed := some seq }.catchUp r.early.length else { r with early := r.early ++ [seq] }
/-- A packet of a stream has been performed at Comb `c`. -/
def State.rxDone (s : State) (c : Nat) (p : Pkt) : State :=
  match lfind (rxOf c p) s.rx with
  | none => s
  | some i =>
    match s.rx[i]? with
    | none => s
    | some r => if r.inc = p.inc then (let r1 := r.perform p.seq; s.rxSet i { r1 with sinceAck := r.sinceAck + 1 }) else s
/-- A later packet of the same stream and incarnation. -/
def laterOf (p q : Pkt) : Bool := sameStream p q && q.inc = p.inc && q.seq != p.seq && seqLe p.seq q.seq
/-- Refuse a packet: its stream halts there, the stream's later packets are discarded and the halt is acknowledged
(R326). -/
def State.rxHalt (s : State) (c : Nat) (p : Pkt) (code : W16) : State :=
  let m := s.comb c
  let s1 := s.setComb c { m with
    landing := m.landing.filter (fun l => l.loc || !(laterOf p l.pkt)), swBuf := m.swBuf.filter (fun q => !(laterOf p q))
    ctrOps := m.ctrOps.filter (fun o => match o.pkt with | some q => !(laterOf p q) | none => true) }
  match lfind (rxOf c p) s1.rx with
  | none => s1
  | some i =>
    match s1.rx[i]? with
    | none => s1
    | some r => if r.inc = p.inc then s1.rxSet i { r with halt := some (p.seq, code), held := [], sinceAck := 16 } else s1

/-! Completions at the source -/

/-- Bit 14 of a descriptor: a digested contribution (R289). -/
def fgDigest (c : FgCmd) : Bool := bit (wnum c.desc) 14

/-- The slot of a Forager whose command waits for a request. -/
def Forager.slotOf (f : Forager) (id : Nat) : Option Nat :=
  (f.slots.find? (fun e => e.2.outst.contains id)).map (·.1)

/-- An access of a Forager's command has failed: the lowest failing unit is kept (R295, R297). -/
def FgCmd.fail (c : FgCmd) (code : W16) (unit : Nat) (addr : W64) : FgCmd :=
  match c.fault with
  | some (_, u, _) => if unit < u then { c with fault := some (code, unit, addr) } else c
  | none => { c with fault := some (code, unit, addr) }

/-- An access of a master has ended in an error: its instruction, command or host command stops (R189, R297, R326,
R349). -/
def State.completeErr (s : State) (m : Master) (id : Nat) (code : W16) (c : Nat) : State :=
  s.forWaiter m id fun s =>
  match m with
  | .worker cb k sl =>
    let u : SlotRef := ⟨cb, k, sl⟩
    let x := s.slot u
    if x.outst.contains id then s.accessFault u id (tget 0 x.outPc id) code
    else match x.pend.find? (fun p => p.id = id) with
      | some p => s.accessFault u id p.pc code
      | none => s
  | .forager cb f =>
    let fg := s.forager cb f
    match fg.slotOf id with
    | none => s
    | some k =>
      let cmd := tget {} fg.slots k
      let e := match cmd.units.find? (fun e => e.1 = id) with | some e => (e.2.1, e.2.2) | none => (cmd.unitIx, 0)
      let cmd1 := { cmd.fail code e.1 e.2 with outst := cmd.outst.filter (· != id) }
      s.setForager cb f { fg with slots := tput fg.slots k cmd1 }
  | .host f =>
    let r := s.ring f
    let ep := s.faultEpoch (s.masterCtx m)
    s.setRing f { r with cmds := r.cmds.map (fun h =>
      if h.outst.contains id then
        { h with outst := h.outst.filter (· != id), comb := if h.status = none then c else h.comb
                 epoch := if h.status = none then ep else h.epoch
                 status := match h.status with | none => some (2, code) | some x => some x }
      else h) }
  | _ => s

/-- The master of a packet this module sent: Rim masters have source Comb 480 in its stream. -/
def TxStream.who (t : TxStream) : Master := masterOf t.src t.master

/-- A packet of a stream has been performed at its destination: its write is counted off, and its access completes; the
data packets of a digested contribution complete with their trailer (R247, R305). -/
def State.pktPerformed (s : State) (m : Master) (p : Pkt) : State :=
  s.forWaiter m p.reqId fun s =>
  let s1 := if p.isWrite then s.writeDone (s.masterCtx m) p.epochLo else s
  match m with
  | .forager c f =>
    let fg := s1.forager c f
    match fg.slotOf p.reqId with
    | some k => if fgDigest (tget {} fg.slots k) ∧ p.ptype ≠ 8 then s1 else s1.completeOk m p.reqId
    | none => s1
  | _ => s1.completeOk m p.reqId

/-- The other requests of the command that request `id` belongs to (R326, step 2). -/
def State.cmdIds (s : State) (m : Master) (id : Nat) : List Nat :=
  match m with
  | .forager c f =>
    let fg := s.forager c f
    match fg.slotOf id with
    | some k => (tget {} fg.slots k).outst
    | none => [id]
  | .host f => match (s.ring f).cmds.find? (fun h => h.outst.contains id) with | some h => h.outst | none => [id]
  | _ => [id]

/-- Take request identifiers off whatever waits for them. -/
def State.forget (s : State) (m : Master) (ids : List Nat) : State := ids.foldl (fun s i => s.completeOk m i) s

/-- Drop entry `i` of the send table when nothing of it is left (R324). -/
def State.txClose (s : State) (i : Nat) : State :=
  match s.tx[i]? with
  | some t => if t.unacc.isEmpty ∧ t.unperf.isEmpty then { s with tx := ldel s.tx i } else s
  | none => s

/-- An acknowledgement of acceptance up to `seq` and performance up to `perf` (R325). Reads stay until their data come
(R328). -/
def State.txAck (s : State) (i seq perf : Nat) : State :=
  match s.tx[i]? with
  | none => s
  | some t =>
    let dn := t.unperf.filter (fun p => p.ptype != 4 && seqLe p.seq perf)
    let left := t.unacc.filter (fun p => !(seqLe p.seq seq))
    let t1 := { t with unacc := left, unperf := t.unperf.filter (fun p => p.ptype = 4 || !(seqLe p.seq perf))
                       resends := if left.length < t.unacc.length then 0 else t.resends, busy := t.busy && !left.isEmpty }
    dn.foldl (fun s p => s.pktPerformed t.who p) { s with tx := lset s.tx i t1 }

/-- Send packets again, in their order, under a new incarnation (R326, step 3). -/
def State.txReopen (s : State) (i : Nat) (ps : List Pkt) : State :=
  match s.tx[i]? with
  | none => s
  | some t =>
    let key := incKey t.src t.master t.dst t.cls
    let inc := tget 0 s.incs key
    let qs := ps.zipIdx.map (fun e =>
      let q : Pkt := { e.1 with inc := inc, seq := e.2 % 65536, opn := e.2 = 0 }
      { q with e2e := q.crc })
    { s with tx := lset s.tx i { t with inc := inc, next := ps.length, unacc := qs, unperf := qs, resends := 0, busy := false }
             incs := tset 0 s.incs key ((inc + 1) % 256), net := s.net ++ qs.map (fun q => ⟨q, .source, none⟩) }

/-- The stream has halted at `hs` with a code (R326): the packet's command learns of it, its later packets are abandoned,
the others go out again. -/
def State.txHalt (s : State) (i hs : Nat) (code : W16) : State :=
  match s.tx[i]? with
  | none => s
  | some t =>
    match t.unperf.find? (fun p => p.seq = hs) with
    | none => s
    | some p =>
      let m := t.who
      s.forWaiter m p.reqId fun s =>
      let n := s.masterCtx m
      let ids := s.cmdIds m p.reqId
      let isDrop (q : Pkt) : Bool := q.seq = hs || (ids.contains q.reqId && seqLe hs q.seq)
      let gone := t.unperf.filter isDrop
      let s1 := gone.foldl (fun s q => if q.isWrite then (s.writeDone n q.epochLo).failParity n q.epochLo code else s) s
      let s2 := s1.completeErr m p.reqId code p.dstComb
      let s3 := s2.forget m ((gone.filter (fun q => q.seq != hs)).map (·.reqId))
      (s3.txReopen i (t.unperf.filter (fun q => !(isDrop q)))).txClose i

/-- The send-table entry that a reply concerns: its master, the Comb that replied, its class and incarnation. -/
def State.txFor (s : State) (p : Pkt) : Option Nat :=
  lfind (fun t => t.master = p.master && t.dst = p.src && t.cls = p.cls && t.inc = p.inc
    && (if decide (8192 ≤ p.master ∧ p.master < 12288) then t.src = 480 else t.src = p.dstComb)) s.tx

/-- Put a packet of a stream into the Fabric again. -/
def State.resend (s : State) (p : Pkt) : State := { s with net := s.net ++ [⟨p, .source, none⟩] }

end Sys2Proof.Machine
end

