-- ==== Sys2Proof/Machine/Fabric.lean ====
section
/-! DEFINITION. The Fabric: parsing and form errors (R322, R323), hops and routes (R311-R317), frames of the Tyduem ports
(R330-R332), acknowledgements, re-sends and time-outs (R325-R328), the flow-control mode (R319). -/

namespace Sys2Proof.Machine

open Sys2Proof

/-! Parsing (R322, R323) -/

def clWord0 (c : List W64) : Nat := (lget 0 c 0).toNat
/-- A clitic of type `t` is well formed: its length is its type's, and its reserved bits are zero (R322). -/
def cliticOk (t : Nat) (c : List W64) : Bool :=
  let w := clWord0 c
  let n := fld w 4 2 + 1
  fld w 6 26 = 0 &&
  (match t with
   | 1 => n = 2
   | 2 => n = 4 && fld (lget 0 c 2).toNat 32 32 = 0
   | 3 => n = 1
   | 4 => true
   | _ => false)
/-- Types of the clitics of a chain that starts with type `t`. -/
def cliticTypes (t : Nat) : List (List W64) → List Nat
  | [] => []
  | c :: r => t :: cliticTypes (clWord0 c % 16) r
/-- `NEXT` of the last clitic, or the header's `CL_NEXT`. -/
def Pkt.lastNext (p : Pkt) : Nat := match p.clitics.getLast? with | some c => clWord0 c % 16 | none => p.clNext
def ptypeOk (t : Nat) : Bool := t ≤ 10 || (16 ≤ t && t ≤ 20)
/-- The clitic a packet type requires. -/
def ptypeNeeds (t : Nat) : Option Nat := if t = 7 then some 1 else if t = 8 then some 2 else if t = 10 then some 4 else none
/-- `LEN` allowed by the packet type (R321). -/
def lenOk (t n : Nat) : Bool :=
  match t with
  | 1 | 2 | 3 => 1 ≤ n && n ≤ 512
  | 4 => 4 ≤ n && n ≤ 512
  | 5 => 12 ≤ n && n ≤ 24
  | 6 => n = 4 || n = 8
  | 19 => n ≤ 512
  | _ => n = 0
/-- The first condition of R323 that a packet fails. -/
def Pkt.formFault (p : Pkt) : Option W16 :=
  let ts := cliticTypes p.clNext p.clitics
  if !(ptypeOk p.ptype) || (ts.zip p.clitics).any (fun e => !(cliticOk e.1 e.2)) || p.rsvd || (p.arrEn && p.arrAmt = 0)
      || (match ptypeNeeds p.ptype with | some t => !(ts.contains t) | none => false) then some 0x6004#16
  else if 3 ≤ p.clitics.length ∧ (p.clitics[2]?).map (fun c => clWord0 c % 16) ≠ some 0 then some 0x6001#16
  else if (p.clitics.map List.length).foldl (· + ·) 0 ≠ p.clWords ∨ p.lastNext ≠ 0 ∨ 512 < p.len + 8 * p.clWords
      ∨ (p.ptype ≠ 4 ∧ p.payload.length ≠ p.len) ∨ !(lenOk p.ptype p.len) then some 0x6002#16
  else none

/-- A packet of, or a reply to, a Rim master (R320). -/
def Pkt.rimMaster (p : Pkt) : Bool := decide (8192 ≤ p.master ∧ p.master < 12288)
/-- A reply whose destination is a Rim master of its module. -/
def Pkt.toRim (p : Pkt) : Bool := p.isReply && p.rimMaster
/-- Channel of the router counters: class and virtual channel, or M (R500). -/
def Pkt.channel (p : Pkt) : Nat := b2n p.isReply * 17 + (if p.ptype = 10 then 16 else p.cls % 4 * 4 + p.vc % 4)
def Pkt.flits (p : Pkt) : Nat := (p.wireLen + 127) / 128
/-- Count at a Comb's router (R500, kind 6). -/
def State.routerCount (s : State) (c : Nat) (p : Pkt) (ix n : Nat) : State :=
  if c < 480 then s.setComb c { s.comb c with router := perfBump (s.comb c).router (perfKey 6 p.channel ix) n } else s

/-- Where an unparsed packet enters the mesh: its source Comb, or the Rim switch for Rim masters and for packets that
arrived over a Tyduem link. -/
def State.atComb (s : State) (p : Pkt) : Bool :=
  p.srcModule = s.ownModule && decide (p.srcComb < 480) && (p.isReply || !p.rimMaster)

/-! Routes (R312-R316) -/

/-- The edge nearest a Comb: 0 west, 1 east, 2 south, 3 north, ties in that order (R313). -/
def nearestEdge (x y : Nat) : Nat :=
  let w := x
  let e := 39 - x
  let so := y
  let no := 11 - y
  if w ≤ e ∧ w ≤ so ∧ w ≤ no then 0 else if e ≤ so ∧ e ≤ no then 1 else if so ≤ no then 2 else 3
/-- The gateway's router at the edge nearest a Comb. -/
def gatewayAt (x y : Nat) : Nat × Nat :=
  match nearestEdge x y with | 0 => (0, y) | 1 => (39, y) | 2 => (x, 0) | _ => (x, 11)
/-- One step from (x, y) towards (tx, ty), along X first (R312). -/
def stepTo (x y tx ty : Nat) : Nat × Nat :=
  if x < tx then (x + 1, y) else if tx < x then (x - 1, y) else if y < ty then (x, y + 1) else if ty < y then (x, y - 1) else (x, y)

/-- Coordinate of a module number in dimension 0 X, 1 Y, 2 Z, and the torus's size less 1 there. -/
def modDim (m d : Nat) : Nat := match d with | 0 => modX m | 1 => modY m | _ => modZ m
def State.sizeM1 (s : State) (d : Nat) : Nat := match d with | 0 => fld s.torus 0 5 | 1 => fld s.torus 5 5 | _ => fld s.torus 10 4
/-- The port and virtual channel of the next torus hop (R314, R315): X, then Y, then Z; the shorter way, ties to +; T1 on
the wrap link and after it. -/
def State.torusHop (s : State) (p : Pkt) : Option (Nat × Nat) :=
  let own := s.ownModule
  match [0, 1, 2].find? (fun d => modDim p.dstModule d != modDim own d) with
  | none => none
  | some d =>
    let sz := s.sizeM1 d + 1
    let a := modDim own d
    let dist := (modDim p.dstModule d + sz - a % sz) % sz
    let plus := decide (2 * dist ≤ sz)
    let wrap := if plus then a + 1 = sz else a = 0
    let moved := modDim p.srcModule d != a
    some (2 * d + (if plus then 0 else 1), if wrap || (moved && p.vc = 3) then 3 else 2)

/-! Frames (R330-R333) -/

/-- Channel number of a frame: 2 x class + T0/T1, or 8 for M (R331). -/
def Pkt.vcn (p : Pkt) : Nat := if p.ptype = 10 then 8 else 2 * (p.cls % 4) + (if p.vc = 3 then 1 else 0)
/-- The frame header as bytes (R331). -/
def frameHead (kind net vcn : Nat) (kph : Bool) (blen fseq : Nat) : List Byte :=
  leBytes 8 (kind + 2 * net + 4 * vcn + 64 * b2n kph + 256 * (blen % 1024) + 2 ^ 32 * (fseq % 2 ^ 32))
/-- The nonce: salt, then the frame counter big-endian (R332). -/
def frameNonce (k : LinkKey) (ctr : Nat) : List Byte := k.salt ++ (leBytes 8 ctr).reverse
/-- Send a frame on a port: sealed under the key in force; before the first key, plain with a tag of zero (R332). -/
def State.sendFrame (s : State) (p kind net vcn : Nat) (body : List Byte) : State :=
  let t := s.port p
  let ctr := t.txCtr.toNat
  let h := frameHead kind net vcn t.kph body.length ctr
  let f := match t.txKey with
    | some k => h ++ Config.gcmSeal k.key (frameNonce k ctr) h body
    | none => h ++ body ++ List.replicate 16 0
  (s.setPort p { t with txCtr := t.txCtr + 1 }).out (.frame p f)

/-- The port carries a packet now: it is up, or keying for channel M alone before its first key; until the roll call has
ended it carries channel M only (R332, R458). -/
def State.portOpen (s : State) (p : Nat) (q : Pkt) : Bool :=
  let t := s.port p
  (t.st = 3 && (q.ptype = 10 || s.boot.rolled)) || (q.ptype = 10 && t.st = 2)

/-! Ingress buffers and pause words (R317, R334) -/

/-- Channel of a packet on a port: its `VCN`, and 9 more on the Reply network (R331). -/
def Pkt.chan (q : Pkt) : Nat := q.vcn + 9 * b2n q.isReply
/-- Bytes that the packets of a channel hold in the ingress buffer of port `p`. -/
def State.chanBytes (s : State) (p ch : Nat) : Nat :=
  ((s.net.filter (fun f => f.ingress = some (p, ch))).map (fun f => f.pkt.wireLen)).foldl (· + ·) 0
/-- Free room of a channel: what is left of its two reserved packets, and of the shared part of the network's 3 MiB. -/
def State.chanRoom (s : State) (p ch : Nat) : Nat :=
  let chans : List Nat := if ch < 9 then List.range 9 else (List.range 8).map (· + 9)
  let used := (chans.map (fun c => s.chanBytes p c - 1088)).foldl (· + ·) 0
  (3145728 - 1088 * chans.length - used) + (1088 - s.chanBytes p ch)
/-- Control words (log entry 50): [3:0] 1 pause, 2 retrain, 3 drop by width, 4 add, and 10 to 12 the answers to those three.
A pause word names its channel in [8:4] and its quanta in [31:16]; a lane word its lane in [10:4], the sender's port in [13:11], its
linear coordinate in [27:14] and the frame in [63:32]. -/
def pauseWord (ch quanta : Nat) : W64 := BitVec.ofNat 64 (1 + ch * 16 + quanta * 2 ^ 16)
def State.sendPause (s : State) (p ch quanta : Nat) : State := s.sendFrame p 1 0 8 (bytes64 [pauseWord ch quanta])
/-- A packet has left the ingress buffer of a channel: at sixteen maximum packets of room the pause ends. -/
def State.roomBack (s : State) : Option (Nat × Nat) → State
  | none => s
  | some (p, ch) =>
    let t := s.port p
    if tget false t.pausing ch && decide (16 * 544 ≤ s.chanRoom p ch) then
      (s.setPort p { t with pausing := tset false t.pausing ch false }).sendPause p ch 0
    else s

/-! Hops -/

/-- PKT_PARSE (R323). -/
def State.parse (s : State) (i : Nat) : State :=
  match s.net[i]? with
  | none => s
  | some f =>
    match f.place with
    | .source =>
      let p := f.pkt
      let cb := s.atComb p
      match p.formFault with
      | some code =>
        let s1 := ({ s with net := ldel s.net i }).roomBack f.ingress
        let s2 := if cb then s1.routerCount p.srcComb p 4 1 else s1
        if p.isReply then s2 else
        let q : Pkt := { dst := p.src, src := p.dst, master := p.master, cls := p.cls, ptype := 0x11, ctx := p.ctx, seq := p.seq,
                         inc := p.inc, reqId := p.reqId, status := code }
        let q := { q with e2e := q.crc }
        { s2 with net := s2.net ++ [⟨q, if p.srcModule = s.ownModule then .arrived else .rim, none⟩] }
      | none =>
        let vc := if p.dstModule = s.ownModule && !p.toRim then 0 else 1
        if cb then { s with net := lset s.net i ⟨{ p with vc := vc }, .mesh (cxOf p.srcComb) (cyOf p.srcComb), none⟩ }
        else { s with net := lset s.net i { f with place := .rim } }
    | _ => s
def execPktParse (i : Nat) (s : State) : Res := .next (s.parse i)

/-- A request refused on its way: an error completion from the router, like R323's (R316). -/
def State.refuseRoute (s : State) (p : Pkt) (code : W16) : State :=
  if p.isReply then s else
  let q : Pkt := { dst := p.src, src := p.dst, master := p.master, cls := p.cls, ptype := 0x11, ctx := p.ctx, seq := p.seq, inc := p.inc,
                   reqId := p.reqId, status := code }
  let q := { q with e2e := q.crc }
  { s with net := s.net ++ [⟨q, if p.srcModule = s.ownModule then .arrived else .rim, none⟩] }

/-- One hop of packet `i` (R312-R317, R324). Nothing moves while the Fabric's clock is stopped or its rails are off (R424, R443). -/
def State.hop (s : State) (i : Nat) (bad : Bool) : State :=
  match s.net[i]? with
  | none => s
  | some f =>
    let p := f.pkt
    let gone := { s with net := ldel s.net i }
    if s.fabricOff then s else
    match f.place with
    | .mesh x y =>
      let c := y * 40 + x
      if bad then gone.routerCount c p 3 1
      else
        let s1 := s.routerCount c p 0 p.flits
        if p.vc = 0 then
          let tx := cxOf p.dstComb
          let ty := cyOf p.dstComb
          if (x, y) = (tx, ty) then { s1 with net := lset s.net i ⟨p, .arrived, none⟩ }
          else let q := stepTo x y tx ty; { s1 with net := lset s.net i ⟨p, .mesh q.1 q.2, none⟩ }
        else
          let g := gatewayAt x y
          if (x, y) = g then { s1 with net := lset s.net i ⟨p, .rim, none⟩ }
          else let q := stepTo x y g.1 g.2; { s1 with net := lset s.net i ⟨p, .mesh q.1 q.2, none⟩ }
    | .rim =>
      if bad then gone.roomBack f.ingress
      else if p.dstModule = s.ownModule then
        if p.toRim ∨ 480 ≤ p.dstComb then ({ s with net := lset s.net i ⟨p, .arrived, none⟩ }).roomBack f.ingress
        else
          let g := gatewayAt (cxOf p.dstComb) (cyOf p.dstComb)
          ({ s with net := lset s.net i ⟨{ p with vc := 0 }, .mesh g.1 g.2, none⟩ }).roomBack f.ingress
      else
        match s.torusHop p with
        | none => gone.roomBack f.ingress
        | some (port, vc) =>
          let q := { p with vc := vc }
          if !(s.portOpen port q) then (gone.roomBack f.ingress).refuseRoute p 0x6005#16
          else if tget 0 (s.port port).paused q.chan ≠ 0 then s
          else (gone.roomBack f.ingress).sendFrame port 0 (b2n q.isReply) q.vcn q.bytes
    | _ => s
def execPktHop (i : Nat) (bad : Bool) (s : State) : Res := .next (s.hop i bad)

/-! Replies at the source (R325-R328) -/

/-- The reply `i`, arrived and of packet type `t`. -/
def State.replyAt (s : State) (i t : Nat) : Option Pkt :=
  match s.net[i]? with
  | some f => if f.place = .arrived && f.pkt.ptype = t then some f.pkt else none
  | none => none

/-- ACK_RECEIVE (R325, R326). -/
def State.ackReceive (s : State) (i : Nat) : State :=
  match s.replyAt i 0x10 with
  | none => s
  | some p =>
    let s1 := { s with net := ldel s.net i }
    if p.crc != p.e2e then s1 else
    match s1.txFor p with
    | none => s1
    | some k =>
      let s2 := s1.txAck k p.seq (p.off % 65536)
      if p.status = 0 then s2.txClose k else s2.txHalt k (p.off / 65536 % 65536) p.status
def execAckReceive (i : Nat) (s : State) : Res := .next (s.ackReceive i)

/-- NACK_RECEIVE (R323, R327): a re-send at once, or a router's error. -/
def State.nackReceive (s : State) (i : Nat) : State :=
  match s.replyAt i 0x11 with
  | none => s
  | some p =>
    let s1 := { s with net := ldel s.net i }
    if p.crc != p.e2e then s1 else
    match s1.txFor p with
    | none => s1
    | some k =>
      if p.status ≠ 0 then s1.txHalt k p.seq p.status
      else match (s1.tx[k]?).bind (fun t => t.unacc.find? (fun q => q.seq = p.seq)) with
        | some q => s1.resend q
        | none => s1
def execNackReceive (i : Nat) (s : State) : Res := .next (s.nackReceive i)

/-- BUSY_RECEIVE (R327): the stream waits for its timer, and that re-send is not counted. -/
def State.busyReceive (s : State) (i : Nat) : State :=
  match s.replyAt i 0x12 with
  | none => s
  | some p =>
    let s1 := { s with net := ldel s.net i }
    if p.crc != p.e2e then s1 else
    match s1.txFor p with
    | none => s1
    | some k => match s1.tx[k]? with
      | some t => { s1 with tx := lset s1.tx k { t with busy := true } }
      | none => s1
def execBusyReceive (i : Nat) (s : State) : Res := .next (s.busyReceive i)

/-- The stream ends after eight timed re-sends (R327): `VOID` takes the packet's place, every unperformed packet ends with
0x6003. -/
def State.txVoid (s : State) (k : Nat) : State :=
  match s.tx[k]? with
  | none => s
  | some t =>
    match t.unacc with
    | [] => s
    | p :: _ =>
      let v : Pkt := { dst := p.dst, src := p.src, master := p.master, cls := p.cls, vc := p.vc, ctx := p.ctx, seq := p.seq, inc := p.inc, opn := p.opn }
      let s1 := ({ s with tx := ldel s.tx k }).resend { v with e2e := v.crc }
      let m := t.who
      let n := s.masterCtx m
      t.unperf.foldl (fun s q =>
        let s1 := if q.isWrite then (s.writeDone n q.epochLo).failParity n q.epochLo 0x6003#16 else s
        s1.completeErr m q.reqId 0x6003#16 q.dstComb) s1

/-- RETX_TIMEOUT (R327, R328). -/
def State.retxTimeout (s : State) (k : Nat) : State :=
  match s.tx[k]? with
  | none => s
  | some t =>
    match t.unacc with
    | [] => match t.unperf.find? (fun p => p.ptype = 4) with | some p => s.resend p | none => s
    | p :: rest =>
      if t.busy then (p :: rest).foldl (fun s q => s.resend q) { s with tx := lset s.tx k { t with busy := false } }
      else if t.resends < 8 then ({ s with tx := lset s.tx k { t with resends := t.resends + 1 } }).resend p
      else s.txVoid k
def execRetxTimeout (k : Nat) (s : State) : Res := .next (s.retxTimeout k)

/-- RX_ENTRY_EXPIRE (R324): an entry with nothing held and nothing unperformed is freed. -/
def execRxEntryExpire (k : Nat) (s : State) : Res :=
  .next (match s.rx[k]? with
    | some r => if r.held.isEmpty && !r.pending then { s with rx := ldel s.rx k } else s
    | none => s)

/-- ACK_INTERVAL_EXPIRE (R325). -/
def execAckIntervalExpire (k : Nat) (s : State) : Res :=
  .next (match s.rx[k]? with
    | some r => if r.sinceAck = 0 then s else ({ s with rx := lset s.rx k { r with sinceAck := 0 } }).rxAck r
    | none => s)

/-! Flow control (R318, R319) -/

/-- Packets of a network stand in wafer buffers. -/
def State.meshBusy (s : State) (rep : Bool) : Bool :=
  s.net.any (fun f => f.pkt.isReply == rep && (match f.place with | .mesh _ _ => true | _ => false))
/-- FC_MODE_CHANGE: the links of a network, or a port, take the mode their object names once their buffers are empty. -/
def State.fcChange (s : State) (l : Nat) : State :=
  if l < 2 then
    if s.meshBusy (l = 1) then s else { s with fcMode := tset false s.fcMode l (bit (s.obj 0 0x2500 3 0) l) }
  else
    let p := l - 2
    s.setPort p { s.port p with onOff := bit (s.obj 0 0x2501 (p + 1) 0x6000) 0, paused := [], pausing := [] }
def execFcModeChange (l : Nat) (s : State) : Res := onUnit (decide (l < 8)) (s.fcChange l)

end Sys2Proof.Machine
end

