-- ==== Sys2Proof/Machine/Accept.lean ====
section
/-! DEFINITION. Packets at their destination Comb: order, ownership and refusals (R215, R268, R325, R326, R373), what each
type does when it lands (R209, R214, R217, R218, R266, R269, R304, R393, R395), and the switch buffer (R218). -/

namespace Sys2Proof.Machine

open Sys2Proof

/-! The digest of a contribution (R303) -/

def crc64Step : Nat → W64 → W64
  | 0, c => c
  | n + 1, c => crc64Step n (if c.getLsbD 63 then (c <<< 1) ^^^ 0x42F0E1EBA9EA3693#64 else c <<< 1)
/-- CRC-64 over bytes, from a register value. -/
def crc64From (c : W64) : List Byte → W64
  | [] => c
  | b :: t => crc64From (crc64Step 8 (c ^^^ (b.setWidth 64 <<< 56))) t
/-- The bytes that follow the payload: epoch, source module and Comb, `COLL_ID`. -/
def digestTail (epoch : W64) (src coll : Nat) : List Byte := leBytes 8 epoch.toNat ++ leBytes 4 (src % 2 ^ 24) ++ leBytes 4 coll

/-- The first clitic of a type. -/
def Pkt.clitic (p : Pkt) (t : Nat) : Option (List W64) :=
  (((cliticTypes p.clNext p.clitics).zip p.clitics).find? (fun e => e.1 = t)).map (·.2)

/-! What becomes of a packet that is next in its stream -/

/-- It stays in the Fabric; it is answered `BUSY`; it is refused with a code; it is accepted and performed; it is accepted and
performed later. -/
inductive Take where
  | wait
  | busy
  | refuse (code : W16) (s : State)
  | done (s : State)
  | pend (s : State)

/-- Every earlier packet of the stream has been performed (R242). -/
def State.turn (s : State) (c : Nat) (p : Pkt) : Bool :=
  match s.rx.find? (rxOf c p) with
  | none => true
  | some r => r.inc != p.inc || (match r.performed with | none => p.seq = 0 | some q => (q + 1) % 65536 = p.seq)

/-- An operator's packet (R344, R372). -/
def Pkt.fromOperator (p : Pkt) : Bool := decide (8192 + 1024 ≤ p.master ∧ p.master < 12288)

/-- Whose area the packet acts on, or the code with which it is refused (R215, R226, R268, R373). -/
def State.pktOwner (s : State) (c : Nat) (p : Pkt) : Except W16 (Option Nat) :=
  if p.fromOperator then
    if s.ownedByAny c || (p.space = 2 && s.heldGranule c (p.off / 0x4000000)) then .error 0x8001#16 else .ok none
  else if !(s.owns p.ctx c) then .error 0x4503#16
  else if p.srcModule = s.ownModule
      || (s.ctx p.ctx).mods.any (fun e => bit e.toNat 31 && e.toNat % 2 ^ 14 = p.srcModule) then .ok (some p.ctx)
  else .error 0x8002#16

/-- The freeze request that the Keeper sends for a refusal with 0x8002 (R374, R375), and the report. A service unit and the
Keeper are not frozen. -/
def State.peerRefused (s : State) (c : Nat) (p : Pkt) : State :=
  let s1 := s.combReport 0x8002#16 1 3 c p.master (BitVec.ofNat 64 p.off)
  if 12288 ≤ p.master ∨ p.master = 8192 + 0xFFF then s1 else
  let w0 : W64 := BitVec.ofNat 64 (1 * 16 + 2 ^ 32)
  let w1 : W64 := BitVec.ofNat 64 (p.master % 2 ^ 14 + p.src % 1024 * 2 ^ 14 + 0x8002 * 2 ^ 48)
  s1.sendPkt .keeper { dst := p.srcModule * 1024 + 1023, ptype := 10, clitics := [[w0, w1]], clWords := 2, clNext := 4 }

/-- The parts of a range, line by line: address and bytes. -/
def lineParts (a : Nat) (bs : List Byte) : List (Nat × List Byte) := (linesOf a bs.length).map (linePart a bs)

/-- Add elements: FP32, or BF16 in two-byte halves (R214). -/
def redBytes (fp32 : Bool) (old add : List Byte) : List Byte :=
  if fp32 then bytes32 ((words32 old).zip (words32 add) |>.map (fun e => fadd32 e.1 e.2))
  else ((chunks 2 old.length old).zip (chunks 2 add.length add)).flatMap (fun e =>
    leBytes 2 (bfDown (faddP 8 (fv (bfUp (leNat e.1))) (fv (bfUp (leNat e.2))))))

/-- One line of a reduce-on-arrival add: read, add and write as one step (R214). -/
def State.reduceLine (s : State) (n : Option Nat) (c : Nat) (fp32 ep : Bool) (a : Nat) (bs : List Byte) : State × Option W16 :=
  match s.readSpace0 n c a bs.length with
  | (.bad code _, s1) => (s1, some code)
  | (.ok old, s1) =>
    if (s1.pmem n c 0).marked a bs.length then (s1, some 0xB002#16) else s1.performWrite n c 0 a (redBytes fp32 old bs) ep
/-- Every line in ascending order, up to the first that faults. -/
def State.reduceLines (s : State) (n : Option Nat) (c : Nat) (fp32 ep : Bool) : List (Nat × List Byte) → State × Option W16
  | [] => (s, none)
  | (a, bs) :: t =>
    match s.reduceLine n c fp32 ep a bs with
    | (s1, none) => s1.reduceLines n c fp32 ep t
    | r => r

/-- The packet's arrival counter is passed to the counter unit (R217). -/
def State.arrival (s : State) (c : Nat) (n : Option Nat) (p : Pkt) : State :=
  if p.arrEn then s.passAdd c { ctx := n.getD 16, ix := p.arrCtr, amt := p.arrAmt } else s

/-- The claim of a contribution that a packet belongs to (R304). -/
def claimOf (p : Pkt) (k : Claim) : Bool := k.src = p.src && k.master = p.master && k.cls = p.cls && k.id = p.reqId

/-- Bytes of a contribution land in its stage (R304). -/
def State.landStaged (s : State) (n : Option Nat) (c : Nat) (p : Pkt) : Take :=
  match s.performWrite n c 0 p.off p.payload p.epochLo with
  | (s1, some code) => .refuse code s1
  | (s1, none) =>
    let a := s1.areaAt n c
    let cl := a.claims.map (fun k => if claimOf p k then { k with len := k.len + p.payload.length, crc := crc64From k.crc p.payload } else k)
    .done (s1.setAreaAt n c { a with claims := cl })

/-- The marked first packet claims its stage: `ARMED` must be 1, and is cleared (R304). -/
def State.landFirst (s : State) (n : Option Nat) (c : Nat) (p : Pkt) : Take :=
  let st := p.off - 1024
  let a := s.areaAt n c
  if p.off < 1024 ∨ st % 1024 ≠ 0 ∨ !(offOk 0 p.off p.payload.length) then .refuse 0x3002#16 s
  else if !(bit (leNat (cellsRead a.mem.bytes (st + 4) 4)) 0) then .refuse 0x500A#16 s
  else
    let w := s.performWrite n c 0 (st + 4) (leBytes 4 (leNat (cellsRead a.mem.bytes (st + 4) 4) / 2 * 2)) p.epochLo
    match w.2 with
    | some code => .refuse code w.1
    | none =>
      let a1 := w.1.areaAt n c
      let k : Claim := ⟨p.src, p.master, p.cls, p.reqId, st, p.ptype, 0, 0⟩
      (w.1.setAreaAt n c { a1 with claims := a1.claims ++ [k] }).landStaged n c p

/-- The second 512-byte half of a block follows its first half in the stream: the block's value is computed from the bytes
received (R393). -/
def State.halves (s : State) (n : Option Nat) (c : Nat) (p : Pkt) : State :=
  match lfind (rxOf c p) s.rx with
  | none => s
  | some i =>
    match s.rx[i]? with
    | none => s
    | some r =>
      let whole := p.ptype = 1 && p.payload.length = 512 && p.off % 512 = 0 && p.space != 1
      let b := p.off / 1024
      let s1 := if whole && p.off % 1024 = 512 && r.half = some (p.space, b) then
          let m := s.pmem n c p.space
          s.setPmem n c p.space { m with chk := tset 0 m.chk b 0, mark := tset false m.mark b false }
        else s
      { s1 with rx := lset s1.rx i { r with half := if whole && p.off % 1024 = 0 then some (p.space, b) else none } }

/-- A write lands (R209, R217, R218, R393). -/
def State.landWrite (s : State) (n : Option Nat) (c : Nat) (p : Pkt) (live : Bool) : Take :=
  if p.space = 3 then .refuse 0x4403#16 s
  else if 4 ≤ p.space then .refuse 0x4504#16 s
  else if p.first then s.landFirst n c p
  else if (s.areaAt n c).claims.any (claimOf p) then s.landStaged n c p
  else if !(offOk p.space p.off p.payload.length) then .refuse 0x3002#16 s
  else if p.space = 1 && live && !isStore (fld p.off 18 10) && (s.worker c (fld p.off 18 10)).locked then .wait
  else
    match s.performWrite n c p.space p.off p.payload p.epochLo with
    | (s1, some code) => .refuse code s1
    | (s1, none) => .done ((s1.halves n c p).arrival c n p)

/-- A reduce-on-arrival packet: the operation unit's on a resident Comb, else applied to the image (R211, R214, R218). -/
def State.landReduce (s : State) (n : Option Nat) (c : Nat) (p : Pkt) (live : Bool) : Take :=
  if p.first then s.landFirst n c p
  else if (s.areaAt n c).claims.any (claimOf p) then s.landStaged n c p
  else if p.space ≠ 0 then .refuse 0x5005#16 s
  else if !(offOk 0 p.off p.payload.length) then .refuse 0x3002#16 s
  else if live then
    let a := s.area c
    .pend (s.setArea c { a with ops := a.ops ++ [{ kind := .reduce p, ctx := n.getD 16 }] })
  else
    match s.reduceLines n c (p.ptype = 2) p.epochLo (lineParts p.off p.payload) with
    | (s1, some code) => .refuse code s1
    | (s1, none) => .done (s1.arrival c n p)

/-- A read is served: the reply `DATA` carries the bytes (R218, R271, R395). -/
def State.serveRead (s : State) (n : Option Nat) (c : Nat) (p : Pkt) (live : Bool) : Take :=
  if !(offOk p.space p.off p.len) then .refuse 0x3002#16 s
  else if p.space = 3 then
    if p.len ≠ 8 then .refuse 0x4403#16 s
    else .done (s.reply c p 0x13 p.seq p.off 0 (leBytes 8 ((s.areaAt n c).counter (p.off / 8))))
  else if p.space = 4 then
    if fld p.off 12 2 ≠ 2 then .refuse 0x4504#16 s
    else
      let v := leBytes 4 ((s.areaAt n c).eng.readReg (s.eng (partnerOf c)).fallback (fld p.off 2 10)).toNat
      if p.len = 4 then .done (s.reply c p 0x13 p.seq p.off 0 v)
      else let d := s.draw; .done (d.2.reply c p 0x13 p.seq p.off 0 (v ++ leBytes 4 d.1.toNat))
  else if p.space = 1 && live && !isStore (fld p.off 18 10) && (s.worker c (fld p.off 18 10)).locked then .wait
  else
    match s.performRead n c p.space p.off p.len (if p.len = 512 ∧ p.off % 512 = 0 ∧ p.space ≠ 1 then [p.off / 1024] else []) with
    | (.error code, s1) => .refuse code s1
    | (.ok b, s1) => .done (s1.reply c p 0x13 p.seq p.off 0 b)

/-- A message, add or watch registration enters the landing buffer: 64 for each class, of which those of contexts that are
not resident take at most 32 (R266, R269). -/
def State.landPkt (s : State) (c : Nat) (p : Pkt) (live : Bool) : Take :=
  let m := s.comb c
  let inClass := m.landing.filter (fun l => l.cls = p.cls)
  let away := inClass.filter (fun l => !(s.ctx l.pkt.ctx).resident)
  if !live && decide (32 ≤ away.length) then .busy
  else if 64 ≤ inClass.length then .wait
  else .pend (s.setComb c { m with landing := m.landing ++ [⟨p.cls, p, false⟩] })

/-- Bytes in a Comb's switch buffer. -/
def Comb.swBytes (m : Comb) : Nat := (m.swBuf.map Pkt.wireLen).foldl (· + ·) 0

/-- A packet that its stream expects next (R218, R234, R268, R304, R325, R414). `buf`: it comes out of the switch buffer. -/
def State.takePkt (s : State) (c : Nat) (p : Pkt) (buf : Bool) : Take :=
  if p.ptype = 0 then .done s
  else if p.ptype = 10 then .done (s.out (.keeper 6 1 p.clBytes))
  else match s.pktOwner c p with
  | .error code => .refuse code (if code = 0x8002#16 then s.peerRefused c p else s)
  | .ok n =>
    let m := s.comb c
    let x := n.map s.ctx
    let live := match x with | some x => x.resident | none => true
    let mv := match x with | some x => x.moving != 0 | none => false
    if m.lost then .refuse 0x3004#16 s
    else if m.failing && live then .refuse 0xB009#16 s
    else if m.failing then .wait
    else if m.refusing && live then .refuse 0xB009#16 s
    else if (match x with | some x => x.refuse | none => false) then .refuse 0x7006#16 s
    else if mv then
      if buf then .wait
      else if m.swBytes + p.wireLen ≤ 65536 then .pend (s.setComb c { m with swBuf := m.swBuf ++ [p] })
      else .busy
    else if !buf && m.swBuf.any (fun q => q.ctx = p.ctx) then (if m.swBytes + p.wireLen ≤ 65536 then .pend (s.setComb c { m with swBuf := m.swBuf ++ [p] }) else .busy)
    else match p.ptype with
    | 5 => s.landPkt c p live
    | 6 => s.landPkt c p live
    | 7 => s.landPkt c p live
    | 9 =>
      if m.watches.any (fun w => w.sent && w.pkt.src = p.src && w.pkt.reqId = p.reqId) then
        .pend (s.setComb c { m with landing := m.landing ++ [⟨p.cls, p, false⟩] })
      else .done s
    | t =>
      if !(s.turn c p) then (if live then .wait else .busy)
      else if t = 1 then s.landWrite n c p live
      else if t = 2 ∨ t = 3 then s.landReduce n c p live
      else if t = 4 then s.serveRead n c p live
      else
        let a := s.areaAt n c
        .pend (s.setAreaAt n c { a with trailers := a.trailers ++ [p] })

/-! PKT_ACCEPT (R325) -/

/-- The destination's `PKT_IN` record of a sampled packet, where the same context is resident and traces (R508). -/
def State.tracedIn (s : State) (c : Nat) (p : Pkt) : State :=
  match p.clitic 3 with
  | some w => if s.residentAt c = some p.ctx then s.trace c 11 6 0 (clWord0 w / 2 ^ 32) else s
  | none => s

/-- Accept a packet in order at entry `i`: false where it must stay. -/
def State.acceptOne (s : State) (i c : Nat) (p : Pkt) : Bool × State :=
  let accepted (s : State) : State :=
    match s.rx[i]? with
    | some r => (s.rxSet i { r with expect := (p.seq + 1) % 65536, sinceAck := r.sinceAck + 1 }).tracedIn c p
    | none => s
  let s0 := match s.rx[i]? with
    | some r => if p.ptype = 1 then s else { s with rx := lset s.rx i { r with half := none } }
    | none => s
  match s0.takePkt c p false with
  | .wait => (false, s)
  | .busy => (true, s.reply c p 0x12 p.seq 0 0 [])
  | .refuse code s1 => (true, s1.rxHalt c p code)
  | .done s1 => (true, (accepted s1).rxDone c p)
  | .pend s1 => (true, accepted s1)

/-- Held packets that now come next are accepted in their turn; one that has to wait stands in the router from then on. -/
def State.acceptHeld (s : State) (i c : Nat) : Nat → State
  | 0 => s
  | fuel + 1 =>
    match s.rx[i]? with
    | none => s
    | some r =>
      match r.held.find? (fun q => q.seq = r.expect) with
      | none => s
      | some q =>
        let s1 := { s with rx := lset s.rx i { r with held := r.held.filter (fun e => e.seq != q.seq) } }
        let r1 := s1.acceptOne i c q
        if r1.1 then r1.2.acceptHeld i c fuel else { s1 with net := s1.net ++ [⟨q, .arrived, none⟩] }

/-- Bytes a Comb holds for later packets. -/
def State.heldBytes (s : State) (c : Nat) : Nat :=
  ((s.rx.filter (fun r => r.comb = c)).map (fun r => (r.held.map Pkt.wireLen).foldl (· + ·) 0)).foldl (· + ·) 0

/-- A `NACK` that asks for a packet again. -/
def State.nackFor (s : State) (c : Nat) (p : Pkt) (seq : Nat) : State := s.reply c p 0x11 seq 0 0 []
/-- A duplicate is answered by `ACK`; a duplicate read that was performed is served again (R325, R328). -/
def State.dupAnswer (s : State) (c : Nat) (p : Pkt) (r : RxStream) : State :=
  let s1 := s.rxAck r
  if p.ptype = 4 && r.inc = p.inc && (match r.performed with | some q => seqLe p.seq q | none => false) then
    match s1.pktOwner c p with
    | .ok n =>
      (match s1.serveRead n c p (match n with | some n => (s.ctx n).resident | none => true) with
       | .done s2 => s2
       | _ => s1)
    | .error _ => s1
  else s1

/-- A packet of a stream that has an entry of its own incarnation. -/
def State.acceptIn (s : State) (k i c : Nat) (p : Pkt) (r : RxStream) : State :=
  let gone := { s with net := ldel s.net k }
  if r.halt.isSome then gone.rxAck r
  else if p.seq = r.expect then
    let q := gone.acceptOne i c p
    if q.1 then q.2.acceptHeld i c 17 else s
  else if seqLe p.seq r.expect then gone.dupAnswer c p r
  else if r.held.length < 16 && decide (s.heldBytes c + p.wireLen ≤ 32768) && !(r.held.any (fun q => q.seq = p.seq)) then
    ({ gone with rx := lset gone.rx i { r with held := r.held ++ [p] } }).nackFor c p r.expect
  else gone.nackFor c p r.expect

/-- A packet in flight is accepted at its destination, held, or answered (R324, R325). -/
def State.accept (s : State) (k : Nat) : State :=
  match s.net[k]? with
  | none => s
  | some f =>
    let p := f.pkt
    if f.place != .arrived || p.isReply then s else
    let c := p.dstComb
    let gone := { s with net := ldel s.net k }
    if p.crc != p.e2e then gone.nackFor c p p.seq
    else if 480 ≤ c ∧ p.ptype ≠ 10 ∧ p.ptype ≠ 0 then gone.refuseRoute p 0x3003#16
    else
      let fresh : RxStream := { comb := c, src := p.src, master := p.master, cls := p.cls, inc := p.inc }
      match lfind (rxOf c p) s.rx with
      | some i =>
        let r := lget fresh s.rx i
        if r.inc = p.inc then s.acceptIn k i c p r
        else if incOlder p.inc r.inc ∨ !p.opn then gone.dupAnswer c p r
        else { s with rx := lset s.rx i fresh }.acceptIn k i c p fresh
      | none =>
        if !p.opn then gone.rxAck { fresh with expect := (p.seq + 1) % 65536, performed := some p.seq }
        else if 4096 ≤ (s.rx.filter (fun r => r.comb = c)).length then gone.reply c p 0x12 p.seq 0 0 []
        else { s with rx := s.rx ++ [fresh] }.acceptIn k s.rx.length c p fresh

/-- PKT_ACCEPT (R325). A failed Comb's router is bypassed, one of a module whose clocks stand still accepts nothing. -/
def execPktAccept (i : Nat) (s : State) : Res := .next (if s.fabricOff then s else s.accept i)

/-- SWITCH_BUFFER_DRAIN (R218): the oldest buffered packet whose context is not being moved is applied. -/
def State.swDrain (s : State) (c : Nat) : State :=
  let m := s.comb c
  match lfind (fun q => (s.ctx q.ctx).moving = 0) m.swBuf with
  | none => s
  | some j =>
    match m.swBuf[j]? with
    | none => s
    | some p =>
      let s0 := s.setComb c { m with swBuf := ldel m.swBuf j }
      match s0.takePkt c p true with
      | .wait => s
      | .busy => s
      | .refuse code s1 => s1.rxHalt c p code
      | .done s1 => s1.rxDone c p
      | .pend s1 => s1
def execSwitchBufferDrain (c : Nat) (s : State) : Res := onUnit (isComb c) (s.swDrain c)

end Sys2Proof.Machine
end

