-- ==== Sys2Proof/Machine/Can.lean ====
section
/-! DEFINITION. The two CAN buses of the Management Port: frames sent, bus-off, and the reset of communication (R479, R480). -/

namespace Sys2Proof.Machine

open Sys2Proof

/-- A bus is off. -/
def Mgmt.off (m : Mgmt) (b : Nat) : Bool := if b = 0 then m.offA else m.offB
/-- A frame goes out on each enabled bus that is not off (R479). -/
def State.canOut (s : State) (cob : Nat) (bytes : List Byte) : State :=
  [0, 1].foldl (fun (s : State) b => if bit s.mgmt.busEn b && !(s.mgmt.off b) then s.out (.can b cob bytes) else s) s
/-- An answer goes out on one bus. -/
def State.canTo (s : State) (b cob : Nat) (bytes : List Byte) : State :=
  if bit s.mgmt.busEn b && !(s.mgmt.off b) then s.out (.can b cob bytes) else s
/-- Reset communication: the settings of 0x2010 take effect, an open transfer ends, and the boot-up message is sent (R479, R480). -/
def State.commReset (s : State) : State :=
  let o (sub d : Nat) : Nat := s.obj 0 0x2010 sub d
  let m := s.mgmt
  State.canOut { s with mgmt := { m with nmt := 127, node := o 1 127, nomRate := o 2 1, dataRate := o 3 1, busEn := o 4 3, lss := 0, lssMatch := 0,
                                         sdo := none, peekBus := none } } (0x700 + o 1 127) [0]
/-- An SDO frame of 8 bytes to the client, and an abort (R480, R482). -/
def State.sdoOut (s : State) (b : Nat) (l : List Byte) : State := s.canTo b (0x580 + s.mgmt.node) ((l ++ List.replicate 8 0).take 8)
def State.sdoAbort (s : State) (b idx sub : Nat) (code : W32) : State :=
  s.sdoOut b ([0x80#8] ++ leBytes 2 idx ++ leBytes 1 sub ++ leBytes 4 code.toNat)
/-- CAN_BUS_OFF (R479). -/
def execCanBusOff (b : Nat) (s : State) : Res :=
  onUnit (decide (b < 2)) { s with mgmt := if b = 0 then { s.mgmt with offA := true } else { s.mgmt with offB := true } }
/-- CAN_BUS_RECOVER (R479): the bus keeps its enable. -/
def execCanBusRecover (b : Nat) (s : State) : Res :=
  onUnit (decide (b < 2)) { s with mgmt := if b = 0 then { s.mgmt with offA := false } else { s.mgmt with offB := false } }

end Sys2Proof.Machine
end

