-- ==== Sys2Proof/Machine/CellAlu.lean ====
section
/-! DEFINITION. Worker Cell instructions: no operation, scalar arithmetic, branches, jumps, local memory, locks and the
slot's end (R176-R178, R188-R193). -/

namespace Sys2Proof.Machine

open Sys2Proof

/-- sd := f sa sb. -/
def sAlu (f : W32 → W32 → W32) (w : Nat) (x : WSlot) : WSlot := x.setS (wD w) (f (x.s (wA w)) (x.s (wB w)))
/-- sd := f sa IMM. -/
def sImm (f : W32 → Nat → W32) (w : Nat) (x : WSlot) : WSlot := x.setS (wD w) (f (x.s (wA w)) (wImm w))

/-- A flag as a word. -/
def b2w (b : Bool) : W32 := if b then 1 else 0
def w5 (v : W32) : Nat := v.toNat % 32

def execCNop (u : SlotRef) (s : State) : Res := cellPure .nop u (fun _ x => x) s
def execCAdd (u : SlotRef) (s : State) : Res := cellPure .add u (sAlu (fun a b => a + b)) s
def execCSub (u : SlotRef) (s : State) : Res := cellPure .sub u (sAlu (fun a b => a - b)) s
def execCAnd (u : SlotRef) (s : State) : Res := cellPure .and u (sAlu (fun a b => a &&& b)) s
def execCOr (u : SlotRef) (s : State) : Res := cellPure .or u (sAlu (fun a b => a ||| b)) s
def execCXor (u : SlotRef) (s : State) : Res := cellPure .xor u (sAlu (fun a b => a ^^^ b)) s
def execCShl (u : SlotRef) (s : State) : Res := cellPure .shl u (sAlu (fun a b => a <<< w5 b)) s
def execCShr (u : SlotRef) (s : State) : Res := cellPure .shr u (sAlu (fun a b => a >>> w5 b)) s
def execCSra (u : SlotRef) (s : State) : Res := cellPure .sra u (sAlu (fun a b => a.sshiftRight (w5 b))) s
def execCSlt (u : SlotRef) (s : State) : Res := cellPure .slt u (sAlu (fun a b => b2w (a.slt b))) s
def execCSltu (u : SlotRef) (s : State) : Res := cellPure .sltu u (sAlu (fun a b => b2w (a.ult b))) s
def execCMul (u : SlotRef) (s : State) : Res := cellPure .mul u (sAlu (fun a b => a * b)) s
def execCMulhu (u : SlotRef) (s : State) : Res := cellPure .mulhu u (sAlu (fun a b => BitVec.ofNat 32 (a.toNat * b.toNat / 2 ^ 32))) s

/-- `IMM` sign-extended. -/
def immS (i : Nat) : W32 := BitVec.ofInt 32 (sgn 16 i)
/-- The shift of `SHI`: `IMM`[6:5] 0 left, 1 logical right, 2 arithmetic right. -/
def shiOf (a : W32) (i : Nat) : W32 :=
  let n := i % 32
  if fld i 5 2 = 0 then a <<< n else if fld i 5 2 = 1 then a >>> n else a.sshiftRight n
def execCAddi (u : SlotRef) (s : State) : Res := cellPure .addi u (sImm (fun a i => a + immS i)) s
def execCAndi (u : SlotRef) (s : State) : Res := cellPure .andi u (sImm (fun a i => a &&& BitVec.ofNat 32 i)) s
def execCOri (u : SlotRef) (s : State) : Res := cellPure .ori u (sImm (fun a i => a ||| BitVec.ofNat 32 i)) s
def execCXori (u : SlotRef) (s : State) : Res := cellPure .xori u (sImm (fun a i => a ^^^ BitVec.ofNat 32 i)) s
def execCShi (u : SlotRef) (s : State) : Res := cellPure .shi u (sImm (fun a i => shiOf a i)) s
def execCLui (u : SlotRef) (s : State) : Res :=
  cellPure .lui u (fun w x => x.setS (wD w) (BitVec.ofNat 32 (wImm21 w * 2 ^ 11))) s

/-- An address `4 * OFF` words away; negative sums lie outside the local memory. -/
def pcPlus (pc : Nat) (off : Int) : Nat :=
  let t := (pc : Int) + 4 * off
  if t < 0 then 0x4000 else t.toNat

/-- A branch: `A` and `B` stand in [25:21] and [20:16] (R174, R177). -/
def branch (o : COp) (p : W32 → W32 → Bool) (u : SlotRef) (s : State) : Res :=
  cellRun o u (fun w s =>
    let x := s.slot u
    if p (x.s (wD w)) (x.s (wA w)) then .jump s (pcPlus x.pc (wSImm w)) else .next s) s

def execCBeq (u : SlotRef) (s : State) : Res := branch .beq (fun a b => a == b) u s
def execCBne (u : SlotRef) (s : State) : Res := branch .bne (fun a b => a != b) u s
def execCBlt (u : SlotRef) (s : State) : Res := branch .blt (fun a b => a.slt b) u s
def execCBge (u : SlotRef) (s : State) : Res := branch .bge (fun a b => !a.slt b) u s
def execCBltu (u : SlotRef) (s : State) : Res := branch .bltu (fun a b => a.ult b) u s
def execCBgeu (u : SlotRef) (s : State) : Res := branch .bgeu (fun a b => !a.ult b) u s

/-- The link value PC + 4. -/
def linkOf (x : WSlot) : W32 := BitVec.ofNat 32 (x.pc + 4)

def execCJal (u : SlotRef) (s : State) : Res :=
  cellRun .jal u (fun w s =>
    let x := s.slot u
    .jump (s.setSlot u (x.setS (wD w) (linkOf x))) (pcPlus x.pc (wSImm w))) s
def execCJr (u : SlotRef) (s : State) : Res :=
  cellRun .jr u (fun w s =>
    let x := s.slot u
    .jump (s.setSlot u (x.setS (wD w) (linkOf x))) (x.s (wA w)).toNat) s

/-! Local memory (R178, R192) -/

/-- The byte a slot sees at `a`: its lock buffer stands before local memory (R192). -/
def seenByte (w : Worker) (x : WSlot) (a : Nat) : Byte :=
  match x.lock with
  | none => tget 0 w.mem a
  | some l => match l.buf.find? (fun e => e.1 = a) with | some e => e.2 | none => tget 0 w.mem a

/-- The number of the `n` bytes a slot sees at `a`, little-endian. -/
def seenNat (w : Worker) (x : WSlot) (a n : Nat) : Nat := leNat ((List.range n).map (fun i => seenByte w x (a + i)))

/-- The address sa + IMM, modulo 2^32. -/
def memAddr (w : Nat) (x : WSlot) : Nat := (x.s (wA w) + immS (wImm w)).toNat
/-- An access of `n` bytes is aligned and inside local memory (R178). -/
def memOk (a n : Nat) : Bool := decide (a % n = 0 ∧ a + n ≤ 0x4000)

/-- Put bytes into a lock buffer; none: a fifth distinct line (R191, R192). -/
def LockRec.put (l : LockRec) (a : Nat) (bs : List Byte) : Option LockRec :=
  let ln := a / 64
  let lines := if l.lines.contains ln then l.lines else l.lines ++ [ln]
  if lines.length > 4 then none else
  some { l with lines := lines, buf := (bs.zip (List.range bs.length)).foldl (fun (t : Tbl Byte) (e : Byte × Nat) => tput t (a + e.2) e.1) l.buf }

/-- A store of bytes to local memory, into the lock buffer inside a sequence. -/
def storeLocal (u : SlotRef) (a : Nat) (bs : List Byte) (s : State) : CRes :=
  let w := s.worker u.comb u.cell
  let x := w.slot u.slot
  match x.lock with
  | none => .next (s.setWorker u.comb u.cell { w with mem := cellsWrite w.mem a bs })
  | some l =>
    match l.put a bs with
    | none => .fault s 0x4206#16
    | some l => .next (s.setSlot u { x with lock := some l })

def execCLd (u : SlotRef) (s : State) : Res :=
  cellRun .ld u (fun w s =>
    let k := s.worker u.comb u.cell
    let x := k.slot u.slot
    let a := memAddr w x
    if memOk a 4 then .next (s.setSlot u (x.setS (wD w) (BitVec.ofNat 32 (seenNat k x a 4)))) else .fault s 0x3006#16) s
def execCSt (u : SlotRef) (s : State) : Res :=
  cellRun .st u (fun w s =>
    let x := s.slot u
    let a := memAddr w x
    if memOk a 4 then storeLocal u a (leBytes 4 (x.s (wD w)).toNat) s else .fault s 0x3006#16) s
def execCVld (u : SlotRef) (s : State) : Res :=
  cellRun .vld u (fun w s =>
    let k := s.worker u.comb u.cell
    let x := k.slot u.slot
    let a := memAddr w x
    if memOk a 64 then
      .next (s.setSlot u (x.setVec (wD w) ((List.range 16).map (fun i => BitVec.ofNat 32 (seenNat k x (a + 4 * i) 4)))))
    else .fault s 0x3006#16) s
def execCVst (u : SlotRef) (s : State) : Res :=
  cellRun .vst u (fun w s =>
    let x := s.slot u
    let a := memAddr w x
    if memOk a 64 then storeLocal u a (bytes32 (x.vec (wD w))) s else .fault s 0x3006#16) s

/-! Slots and locks (R188, R190-R193) -/

/-- A slot started at an address, with zeroed registers (R173, R188); accesses still out stay counted against it. -/
def startedAt (y : WSlot) (pc : Nat) : WSlot := { running := true, pc := pc, outst := y.outst, halted := y.halted }

/-- `SPAWN`. "Running, frozen or descheduled" faults with 0x4208, and so does the issuing slot itself, which runs. -/
def execCSpawn (u : SlotRef) (s : State) : Res :=
  cellRun .spawn u (fun w s =>
    let k := s.worker u.comb u.cell
    let x := k.slot u.slot
    let t := (x.s (wA w)).toNat % 4
    let pc := (x.s (wB w)).toNat
    let y := k.slot t
    if !pcOk pc then .fault s 0x3006#16
    else if t = u.slot || y.running || y.frozen || y.wait != .ready then .fault s 0x4208#16
    else .next (s.setSlot ⟨u.comb, u.cell, t⟩ (startedAt y pc))) s

/-- `LOCK` records the slot's registers, generator and address (R190, R193). -/
def execCLock (u : SlotRef) (s : State) : Res :=
  cellRun .lock u (fun _ s =>
    let x := s.slot u
    .next (s.setSlot u { x with lock := some ⟨x.sregs, x.vregs, x.rng, x.pc, 0, [], []⟩ })) s

/-- `UNLOCK` writes the lock buffer to local memory at once (R192). -/
def execCUnlock (u : SlotRef) (s : State) : Res :=
  cellRun .unlock u (fun _ s =>
    let k := s.worker u.comb u.cell
    let x := k.slot u.slot
    let buf := match x.lock with | some l => l.buf | none => []
    let k1 := { k with mem := buf.foldl (fun (m : Tbl Byte) (e : Nat × Byte) => tset 0 m e.1 e.2) k.mem }
    .next (s.setWorker u.comb u.cell (k1.setSlot u.slot { x with lock := none }))) s

def execCEnd (u : SlotRef) (s : State) : Res := cellRun .endSlot u (fun _ s => .stop s) s

end Sys2Proof.Machine
end

