-- ==== Sys2Proof/Machine/CellVec.lean ====
section
/-! DEFINITION. Worker Cell instructions: vector arithmetic, reductions, moves, quantise and slice, and Ellipsis
expansion (R175, R176, R179-R186). -/

namespace Sys2Proof.Machine

open Sys2Proof

/-- Lane-wise: vd := f va vb on FP32 lanes, or on both BF16 halves of each lane when `FN`[4] is set (R175, R179).
`f` takes the precision in bits. -/
def vArith (f : Nat → FV → FV → W32) (w : Nat) (x : WSlot) : WSlot :=
  let va := x.vec (wA w)
  let vb := x.vec (wB w)
  x.setVec (wD w)
    (if bit w 4 then packHalves (((halves va).zip (halves vb)).map (fun p => bfDown (f 8 (fv (bfUp p.1)) (fv (bfUp p.2)))))
     else (va.zip vb).map (fun p => f 24 (fv p.1) (fv p.2)))

/-- vd := vd + va × vb, one rounding. -/
def vFma (w : Nat) (x : WSlot) : WSlot :=
  let va := x.vec (wA w)
  let vb := x.vec (wB w)
  let vd := x.vec (wD w)
  x.setVec (wD w)
    (if bit w 4 then packHalves (((halves vd).zip ((halves va).zip (halves vb))).map (fun p =>
       bfDown (ffmaP 8 (fv (bfUp p.1)) (fv (bfUp p.2.1)) (fv (bfUp p.2.2)))))
     else (vd.zip (va.zip vb)).map (fun p => ffmaP 24 (fv p.1) (fv p.2.1) (fv p.2.2)))

/-- Lane-wise function of one operand. -/
def vFun (f : Nat → W32 → W32) (w : Nat) (x : WSlot) : WSlot :=
  let va := x.vec (wA w)
  x.setVec (wD w) (if bit w 4 then packHalves ((halves va).map (fun h => bfDown (f 8 (bfUp h)))) else va.map (f 24))

def execCVadd (u : SlotRef) (s : State) : Res := cellPure .vadd u (vArith faddP) s
def execCVsub (u : SlotRef) (s : State) : Res := cellPure .vsub u (vArith (fun p a b => faddP p a (fnegV b))) s
def execCVmul (u : SlotRef) (s : State) : Res := cellPure .vmul u (vArith fmulP) s
def execCVfma (u : SlotRef) (s : State) : Res := cellPure .vfma u vFma s
def execCVmax (u : SlotRef) (s : State) : Res := cellPure .vmax u (vArith fmaxP) s
def execCVmin (u : SlotRef) (s : State) : Res := cellPure .vmin u (vArith fminP) s
def execCVexp (u : SlotRef) (s : State) : Res := cellPure .vexp u (vFun fexpP) s
def execCVrcp (u : SlotRef) (s : State) : Res := cellPure .vrcp u (vFun frcpP) s
def execCVrsq (u : SlotRef) (s : State) : Res := cellPure .vrsq u (vFun frsqP) s

/-- vd := 32 BF16 of the 32 FP32 of pair va, each rounded once (R176, R179). -/
def execCVcvtFp32ToBf16 (u : SlotRef) (s : State) : Res :=
  cellPure .vcvtDown u (fun w x =>
    x.setVec (wD w) (packHalves ((x.vec (wA w) ++ x.vec (wA w + 1)).map (fun v => bfDown (fvWord 8 (fv v)))))) s
/-- Pair vd := 32 FP32 of the 32 BF16 of va. -/
def execCVcvtBf16ToFp32 (u : SlotRef) (s : State) : Res :=
  cellPure .vcvtUp u (fun w x =>
    let l := (halves (x.vec (wA w))).map (fun h => fvWord 24 (fv (bfUp h)))
    (x.setVec (wD w) (l.take 16)).setVec (wD w + 1) (l.drop 16)) s

/-- INT32 lanes: vd := f va vb. -/
def vInt (f : W32 → W32 → W32) (w : Nat) (x : WSlot) : WSlot :=
  x.setVec (wD w) (((x.vec (wA w)).zip (x.vec (wB w))).map (fun p => f p.1 p.2))

def execCViadd (u : SlotRef) (s : State) : Res := cellPure .viadd u (vInt (fun a b => a + b)) s
def execCVisub (u : SlotRef) (s : State) : Res := cellPure .visub u (vInt (fun a b => a - b)) s
def execCVimul (u : SlotRef) (s : State) : Res := cellPure .vimul u (vInt (fun a b => a * b)) s
def execCVand (u : SlotRef) (s : State) : Res := cellPure .vand u (vInt (fun a b => a &&& b)) s
def execCVor (u : SlotRef) (s : State) : Res := cellPure .vor u (vInt (fun a b => a ||| b)) s
def execCVxor (u : SlotRef) (s : State) : Res := cellPure .vxor u (vInt (fun a b => a ^^^ b)) s
def execCVshl (u : SlotRef) (s : State) : Res := cellPure .vshl u (vInt (fun a b => a <<< (b.toNat % 32))) s
def execCVshr (u : SlotRef) (s : State) : Res := cellPure .vshr u (vInt (fun a b => a >>> (b.toNat % 32))) s
def execCVsra (u : SlotRef) (s : State) : Res := cellPure .vsra u (vInt (fun a b => a.sshiftRight (b.toNat % 32))) s
def execCVilt (u : SlotRef) (s : State) : Res := cellPure .vilt u (vInt (fun a b => if a.slt b then 1 else 0)) s

/-- One level of the reduction tree: neighbours 2i and 2i + 1 (R180). -/
def redLevel (f : W32 → W32 → W32) : List W32 → List W32
  | a :: b :: t => f a b :: redLevel f t
  | l => l
/-- The four levels of the tree. -/
def redTree (f : W32 → W32 → W32) (l : List W32) : W32 :=
  lget 0 (redLevel f (redLevel f (redLevel f (redLevel f l)))) 0
def vRed (f : W32 → W32 → W32) (w : Nat) (x : WSlot) : WSlot := x.setS (wD w) (redTree f (x.vec (wA w)))

def execCVredFp32Sum (u : SlotRef) (s : State) : Res := cellPure .vredFSum u (vRed fadd32) s
def execCVredFp32Max (u : SlotRef) (s : State) : Res := cellPure .vredFMax u (vRed (fun a b => fmaxP 24 (fv a) (fv b))) s
def execCVredInt32Sum (u : SlotRef) (s : State) : Res := cellPure .vredISum u (vRed (fun a b => a + b)) s
def execCVredInt32Max (u : SlotRef) (s : State) : Res := cellPure .vredIMax u (vRed (fun a b => if a.slt b then b else a)) s

def execCVbc (u : SlotRef) (s : State) : Res :=
  cellPure .vbc u (fun w x => x.setVec (wD w) (List.replicate 16 (x.s (wA w)))) s
def execCVget (u : SlotRef) (s : State) : Res :=
  cellPure .vget u (fun w x => x.setS (wD w) (x.lane (wA w) (fld w 7 4))) s
def execCVset (u : SlotRef) (s : State) : Res :=
  cellPure .vset u (fun w x => x.setLane (wD w) (fld w 7 4) (x.s (wA w))) s
def execCVmov (u : SlotRef) (s : State) : Res := cellPure .vmov u (fun w x => x.setVec (wD w) (x.vec (wA w))) s

/-! Quantise and slice -/

/-- The source block of `QNT` and `QSL` as FP32 words (R181). -/
def qSource (w : Nat) (x : WSlot) : List W32 :=
  let g := if bit w 2 then 16 else 32
  if bit w 3 then ((halves (x.vec (wA w))).take g).map bfUp
  else (x.vec (wA w) ++ (if bit w 2 then [] else x.vec (wA w + 1))).take g

/-- One step of the stochastic generator (R185). -/
def rngStep (v : W64) : W64 :=
  let a := if v = 0 then 1 else v
  let a := a ^^^ (a <<< 13)
  let a := a ^^^ (a >>> 7)
  a ^^^ (a <<< 17)
/-- `n` draws: the values and the state after them. -/
def rngDraws : Nat → W64 → List Nat × W64
  | 0, v => ([], v)
  | n + 1, v => let v1 := rngStep v; let r := rngDraws n v1; ((v1 >>> 48).toNat :: r.1, r.2)

/-- The lanes of a bit string (R182). -/
def bitLanes (v : Nat) : List W32 := (List.range 16).map (fun i => BitVec.ofNat 32 (v / 2 ^ (32 * i)))

/-- `QNT` (R182): the bit string to vd, the scale to sb. -/
def qntOp (w : Nat) (x : WSlot) : WSlot :=
  let f := fld w 0 2
  let src := (qSource w x).map fv
  let rnd := bit w 4
  let gs := bit w 5
  let d := if rnd then rngDraws src.length x.rng else (src.map (fun _ => 0), x.rng)
  let given := if gs then some ((x.s (wB w)).toNat % 256) else none
  let q := quantBlock f rnd given src d.1
  let x1 := { x with rng := d.2 }.setVec (wD w) (bitLanes (packCodes (fmtW f) q.2))
  -- a given scale stands unless a NaN of the block replaces it
  if gs then (if given ≠ some 255 ∧ src.any (fun v => v = .nan) then x1.setS (wB w) 0xFF else x1)
  else x1.setS (wB w) (BitVec.ofNat 32 q.1)

def execCQnt (u : SlotRef) (s : State) : Res := cellPure .qnt u qntOp s

/-- `QSL` (R45, R183): high slice to vd, low slice to vd + 1, both scales to sb. -/
def qslOp (w : Nat) (x : WSlot) : WSlot :=
  let f := fld w 0 2
  let src := qSource w x
  let zs := src.map (fun _ => 0)
  let hi := quantBlock f false none (src.map fv) zs
  let res := (src.zip hi.2).map (fun p => faddP 24 (fv p.1) (fnegV (fv (dequant f hi.1 p.2))))
  let lo := if hi.1 = 255 then (255, zs) else quantBlock f false none (res.map fv) zs
  ((x.setVec (wD w) (bitLanes (packCodes (fmtW f) hi.2))).setVec (wD w + 1) (bitLanes (packCodes (fmtW f) lo.2))).setS (wB w)
    (BitVec.ofNat 32 (hi.1 + 256 * lo.1))

def execCQsl (u : SlotRef) (s : State) : Res := cellPure .qsl u qslOp s

/-- `DQT` (R184). -/
def dqtOp (w : Nat) (x : WSlot) : WSlot :=
  let f := fld w 0 2
  let g := if bit w 2 then 16 else 32
  let v := wnum (x.vec (wA w))
  let l := (unpackCodes (fmtW f) g v).map (dequant f ((x.s (wB w)).toNat % 256))
  if bit w 2 then x.setVec (wD w) l else (x.setVec (wD w) (l.take 16)).setVec (wD w + 1) (l.drop 16)

def execCDqt (u : SlotRef) (s : State) : Res := cellPure .dqt u dqtOp s

/-! Ellipsis expansion (R186) -/

/-- Indices strictly ascend. -/
def ascending : List Nat → Bool
  | a :: b :: t => decide (a < b) && ascending (b :: t)
  | _ => true

/-- The fault of one group: range before order, as R138 orders the table of R137 and R135 gives these instructions the
same checks (log entry 22); none: its indices are good. -/
def groupFault (ix : List Nat) (lim : Nat) : Option W16 :=
  if ix.any (fun i => decide (lim ≤ i)) then some 0x2002#16 else if !ascending ix then some 0x2003#16 else none

/-- The 8 columns of a group. -/
def spread (ix : List Nat) (vs : List W32) : List W32 :=
  (List.range 8).map (fun c => match (ix.zip vs).find? (fun p => p.1 = c) with | some p => p.2 | none => 0)

def execCSpx (u : SlotRef) (s : State) : Res :=
  cellRun .spx u (fun w s =>
    let x := s.slot u
    let n := if bit w 0 then 2 else 4
    let vs := ((x.vec (wA w)).drop (2 * n * fld w 1 2)).take (2 * n)
    let ix := (List.range (2 * n)).map (fun j => fld (x.s (wB w)).toNat (3 * j) 3)
    let lim (t : Nat) := if t = 0 then 8 else t
    match groupFault (ix.take n) (lim (fld w 3 3)), groupFault (ix.drop n) (lim (fld w 6 3)) with
    | some c, _ => .fault s c
    | none, some c => .fault s c
    | none, none =>
      .next (s.setSlot u (x.setVec (wD w) (spread (ix.take n) (vs.take n) ++ spread (ix.drop n) (vs.drop n))))) s

end Sys2Proof.Machine
end

