-- ==== Sys2Proof/Machine/Deliver.lean ====
section
/-! DEFINITION. The landing unit, the counter unit, watches and wakes (R264-R274, R328), the operation unit (R208-R214), the
check of digested contributions (R305), owner-change fills (R219) and diagonal windows (R205-R207). -/

namespace Sys2Proof.Machine

open Sys2Proof

/-! Delivery (R264, R267-R269) -/

/-- A packet that came over the row access bus completes at its sender; one that came over the Fabric is performed in its
stream. -/
def State.landDone (s : State) (c : Nat) (l : Land) : State :=
  if l.loc then s.completeOk (masterOf c l.pkt.master) l.pkt.reqId else s.rxDone c l.pkt
/-- The packet ends in an error at its sender (R189, R281). -/
def State.landFail (s : State) (c : Nat) (l : Land) (code : W16) : State :=
  if l.loc then s.completeErr (masterOf c l.pkt.master) l.pkt.reqId code c else s.rxHalt c l.pkt code

/-- Header and words of a message. -/
def Pkt.msgHead (p : Pkt) : Nat := leNat (p.payload.take 8)
def Pkt.msgWords (p : Pkt) : List W32 := words32 (p.payload.drop 8)
/-- A message, by its kind; 3 for a counter add of either form. -/
def Pkt.msgKind (p : Pkt) : Nat := if p.ptype = 6 then 3 else fld p.msgHead 38 2
/-- Counter index and amount of an add (R262, R264, R275). -/
def Pkt.addIx (p : Pkt) : Nat :=
  if p.ptype = 6 then p.off / 8 % 4096
  else fld p.msgHead 28 10 + 1024 * b2n (bit p.msgHead 2) + 2048 * b2n (bit p.msgHead 3)
def Pkt.addAmt (p : Pkt) : Nat :=
  if p.ptype = 6 then leNat p.payload
  else leNat ((p.payload.drop 8).take (if bit p.msgHead 1 then 8 else 4))

/-- The endpoint has a credit (R264, R267). -/
def Area.credit (a : Area) (p : Pkt) : Bool :=
  match p.msgKind with
  | 0 => decide ((a.worker (fld p.msgHead 28 10)).wq.length < 32)
  | 1 => decide (a.eng.gq.length < 8192)
  | _ => true

/-- Deliver a message to its endpoint in the area of its context. A counter operation is passed on and performed later. -/
def State.deliver (s : State) (c : Nat) (l : Land) : State :=
  let p := l.pkt
  let n := p.ctx
  let h := p.msgHead
  let ix := fld h 28 10
  match p.msgKind with
  | 0 =>
    if 639 < ix ∨ isStore ix then s.landFail c l 0x4502#16 else
    let a := s.areaOf n c
    let w := a.worker ix
    (s.setAreaOf n c (a.setWorker ix { w with wq := w.wq ++ [⟨BitVec.ofNat 16 (fld h 12 16), p.msgWords, 0⟩] })).landDone c l
  | 1 =>
    let a := s.areaOf n c
    let g := a.eng.gather ix p.msgWords
    let s1 := s.setAreaOf n c { a with eng := g.1 }
    let s2 := match g.2 with
      | none => s1
      | some code => s1.event (some n) code c (masterField (.engine c 0)) 0
    s2.landDone c l
  | 2 => (s.engPortWrite (some n) c ix p.msgWords).landDone c l
  | _ =>
    s.passAdd c { ctx := n, ix := p.addIx, amt := p.addAmt, who := if l.loc then some (masterOf c p.master) else none,
                  id := p.reqId, pkt := if l.loc then none else some p }

/-- Earlier entries of the buffer from the same stream, or from the same slot over the row bus in the same class. -/
def blocked (ls : List Land) (i : Nat) (l : Land) : Bool :=
  (ls.take i).any (fun e => e.loc == l.loc && e.cls = l.cls && sameStream e.pkt l.pkt)
/-- A slot's earlier counter operation on its own Comb, in the same class, is still to be applied. -/
def Comb.addBefore (m : Comb) (c : Nat) (l : Land) : Bool :=
  l.loc && m.ctrOps.any (fun o => o.who = some (masterOf c l.pkt.master))
/-- How many earlier packets of the stream are not performed. -/
def State.ahead (s : State) (c : Nat) (p : Pkt) : Nat :=
  match s.rx.find? (rxOf c p) with
  | none => 0
  | some r => if r.inc != p.inc then 0 else match r.performed with | none => p.seq | some q => (p.seq + 65535 - q) % 65536
/-- Spilled messages of the same stream. -/
def Area.spilled (a : Area) (p : Pkt) : Nat := (a.spill.filter (fun q => sameStream q p && q.inc = p.inc)).length

/-- Entry `i` can leave the buffer now: delivered to its endpoint, or (true) placed in the spill area of its context
(R267-R269). -/
def State.landReady (s : State) (c i : Nat) (l : Land) : Option Bool :=
  let m := s.comb c
  let p := l.pkt
  let x := s.ctx p.ctx
  if !(p.ptype = 5 ∨ p.ptype = 6) ∨ x.moving ≠ 0 ∨ blocked m.landing i l ∨ m.addBefore c l then none
  else
    let a := s.areaOf p.ctx c
    let first := l.loc || s.turn c p
    if first && a.credit p then some false
    else if !x.resident && decide (s.ahead c p = a.spilled p) && decide (a.spill.length < 65536) then some true
    else none

/-- The first entry of class `k` that can leave. -/
def State.landNext (s : State) (c k : Nat) : List Land → Nat → Option (Nat × Land × Bool)
  | [], _ => none
  | l :: t, i =>
    if l.cls = k then
      match s.landReady c i l with
      | some sp => some (i, l, sp)
      | none => s.landNext c k t (i + 1)
    else s.landNext c k t (i + 1)

/-- MSG_DELIVER (R267, R268). -/
def State.msgDeliver (s : State) (c k : Nat) : State :=
  let m := s.comb c
  match s.landNext c k m.landing 0 with
  | none => s
  | some (i, l, sp) =>
    let s1 := s.setComb c { m with landing := ldel m.landing i }
    if sp then
      let a := s1.areaOf l.pkt.ctx c
      s1.setAreaOf l.pkt.ctx c { a with spill := a.spill ++ [l.pkt] }
    else s1.deliver c l
def execMsgDeliver (c k : Nat) (s : State) : Res :=
  onUnit (isComb c && decide (k < 4)) (if s.dead c then s else s.msgDeliver c k)

/-- SPILL_DELIVER (R269): the oldest spilled message of the resident context that its endpoint can take. -/
def State.spillDeliver (s : State) (c : Nat) : State :=
  let a := s.area c
  match lfind (fun p => s.turn c p && a.credit p) a.spill with
  | none => s
  | some i =>
    match a.spill[i]? with
    | none => s
    | some p => (s.setArea c { a with spill := ldel a.spill i }).deliver c ⟨p.cls, p, false⟩
def execSpillDeliver (c : Nat) (s : State) : Res :=
  onUnit (isComb c) (if s.settled c && !(s.dead c) then s.spillDeliver c else s)

/-! The counter unit (R271-R273, R276) -/

/-- The adding master learns of a saturation (R273). -/
def State.satFault (s : State) (c : Nat) (o : CtrOp) : State :=
  match o.pkt with
  | some p => s.rxHalt c p 0x4401#16
  | none =>
    match o.who with
    | some (.worker cb k sl) => if isStore k then s.storeStop cb k sl 0x4401#16 false else s.completeErr (.worker cb k sl) o.id 0x4401#16 cb
    | some m => s.event (if o.ctx < 16 then some o.ctx else none) 0x4401#16 c (masterField m) 0
    | none => s.event (if o.ctx < 16 then some o.ctx else none) 0x4401#16 c (masterField (.service c)) 0
/-- An operation is performed. -/
def State.addDone (s : State) (c : Nat) (o : CtrOp) : State :=
  match o.pkt with
  | some p => s.rxDone c p
  | none => match o.who with | some m => s.completeOk m o.id | none => s

/-- Apply an add (R271, R273, R276): to the counter of a resident context, to the pending sum of one swapped out. -/
def State.applyAdd (s : State) (c : Nat) (o : CtrOp) : State :=
  let live := decide (16 ≤ o.ctx) || (s.ctx o.ctx).resident
  if live then
    let a := s.area c
    let v := (tget 0 a.ctr o.ix).toNat
    let s1 := s.setArea c { a with ctr := tset 0 a.ctr o.ix (BitVec.ofNat 64 (min (v + o.amt) (2 ^ 64 - 1))) }
    if 2 ^ 64 ≤ v + o.amt then s1.satFault c o else s1.addDone c o
  else
    let a := s.areaOf o.ctx c
    (s.setAreaOf o.ctx c { a with pendSum := tset 0 a.pendSum o.ix (tget 0 a.pendSum o.ix + o.amt) }).addDone c o

/-- COUNTER_ADD (R272): the oldest operation passed to the counter unit. -/
def State.counterAdd (s : State) (c : Nat) : State :=
  let m := s.comb c
  match m.ctrOps with
  | [] => s
  | o :: rest =>
    if o.ctx < 16 ∧ (s.ctx o.ctx).moving ≠ 0 ∧ !(s.ctx o.ctx).resident then s
    else (s.setComb c { m with ctrOps := rest }).applyAdd c o
def execCounterAdd (c : Nat) (s : State) : Res := onUnit (isComb c) (if s.dead c then s else s.counterAdd c)

/-! Watches (R274, R277, R278, R328) -/

/-- WATCH_REGISTER (R274): the oldest registration whose context has an entry free. -/
def State.watchRegister (s : State) (c : Nat) : State :=
  let m := s.comb c
  match lfind (fun l => l.pkt.ptype = 7 && (s.turn c l.pkt) && (s.ctx l.pkt.ctx).moving = 0
      && decide ((m.watches.filter (fun w => w.ctx = l.pkt.ctx)).length < 64)) m.landing with
  | none => s
  | some i =>
    match m.landing[i]? with
    | none => s
    | some l =>
      let v := match l.pkt.clitic 1 with | some w => lget 0 w 1 | none => 0
      let w : Watch := { ctx := l.pkt.ctx, ctr := l.pkt.off / 8 % 4096, val := v, pkt := l.pkt }
      (s.setComb c { m with landing := ldel m.landing i, watches := m.watches ++ [w] }).landDone c l
def execWatchRegister (c : Nat) (s : State) : Res := onUnit (isComb c) (if s.dead c then s else s.watchRegister c)

/-- The status with which watch `w` wakes now: `POISONED`, or OK once its counter has reached its value. -/
def State.wakes (s : State) (c : Nat) (w : Watch) : Option W16 :=
  match w.woken with
  | some st => some st
  | none => if w.val.toNat ≤ (s.areaOf w.ctx c).counter w.ctr then some 0 else none
/-- The wake reply (R274, R321). -/
def State.sendWake (s : State) (c : Nat) (w : Watch) (st : W16) : State := s.reply c w.pkt 0x14 0 0 st []

/-- WATCH_WAKE (R274). -/
def State.watchWake (s : State) (c k : Nat) : State :=
  let m := s.comb c
  match m.watches[k]? with
  | none => s
  | some w =>
    if w.sent then s else
    match s.wakes c w with
    | none => s
    | some st => (s.setComb c { m with watches := lset m.watches k { w with woken := some st, sent := true } }).sendWake c w st
def execWatchWake (c k : Nat) (s : State) : Res := onUnit (isComb c) (s.watchWake c k)

/-- WAKE_RESEND (R328). -/
def execWakeResend (c k : Nat) (s : State) : Res :=
  onUnit (isComb c)
    (match (s.comb c).watches[k]? with
     | some w => (match w.woken with | some st => if w.sent then s.sendWake c w st else s | none => s)
     | none => s)

/-- WAKE_ACK (R328): the acknowledgement of watch `k` has landed; the watch leaves the table. -/
def State.wakeAcked (s : State) (c k : Nat) : State :=
  let m := s.comb c
  match m.watches[k]? with
  | none => s
  | some w =>
    match lfind (fun l => l.pkt.ptype = 9 && w.sent && l.pkt.src = w.pkt.src && l.pkt.reqId = w.pkt.reqId) m.landing with
    | none => s
    | some i =>
      match m.landing[i]? with
      | none => s
      | some l => (s.setComb c { m with landing := ldel m.landing i, watches := ldel m.watches k }).landDone c l
def execWakeAck (c k : Nat) (s : State) : Res := onUnit (isComb c) (s.wakeAcked c k)

/-! The operation unit (R208-R214) -/

/-- REDUCE_ON_ARRIVAL_ADD (R214): the next line of the oldest packet that has lines left. -/
def State.reduceStep (s : State) (c : Nat) : State :=
  let a := s.area c
  match lfind (fun o => !o.fin && (match o.kind with | .reduce _ => true | _ => false)) a.ops with
  | none => s
  | some i =>
    match a.ops[i]? with
    | none => s
    | some o =>
      match o.kind with
      | .reduce p =>
        let n := if o.ctx < 16 then some o.ctx else none
        let ls := lineParts p.off p.payload
        match ls[o.pos]? with
        | none => s.setArea c { a with ops := lset a.ops i { o with fin := true } }
        | some (adr, bs) =>
          let r := s.reduceLine n c (p.ptype = 2) p.epochLo adr bs
          let a1 := r.1.area c
          let o1 := match r.2 with
            | some code => { o with fin := true, fault := code, addr := adr }
            | none => { o with pos := o.pos + 1, fin := decide (ls.length ≤ o.pos + 1) }
          r.1.setArea c { a1 with ops := lset a1.ops i o1 }
      | _ => s
def execReduceOnArrivalAdd (c : Nat) (s : State) : Res :=
  onUnit (isComb c) (if s.settled c && !(s.dead c) then s.reduceStep c else s)

/-- Form of a fill or copy (R212). -/
def opForm (a d n : Nat) : Bool := a % 4 = 0 && d % 4 = 0 && n % 4 = 0 && decide (4 ≤ n ∧ d + n ≤ 0x3000000 ∧ a + n ≤ 0x3000000)
/-- Compute the values of whole blocks just written (R213, R397). -/
def PMem.computed (m : PMem) (bs : List Nat) : PMem :=
  bs.foldl (fun m b => { m with chk := tset 0 m.chk b 0, mark := tset false m.mark b false }) m
/-- The bytes a pattern lays over `n` bytes from offset `d` (R212). -/
def patBytes (d n : Nat) (pat : W32) : List Byte := (List.range n).map (fun i => BitVec.ofNat 8 (pat.toNat / 2 ^ (8 * ((d + i) % 4))))

/-- Where an operation stopped: the code, the offset, and whether that is a read of its source. -/
abbrev OpStop := Option (W16 × Nat × Bool)
/-- A fill. -/
def State.opFill (s : State) (n : Option Nat) (c d len : Nat) (pat : W32) : State × OpStop :=
  if !(opForm d d len) then (s, some (0x3008#16, d, false)) else
  let w := s.narrow0 n c d (patBytes d len pat) (s.epLow n)
  match w.2 with
  | some (code, l) => (w.1, some (code, max d (64 * l), false))
  | none => (w.1.setPmem n c 0 ((w.1.pmem n c 0).computed (wholeBlocks d len)), none)

/-- No line of block `b` is bad. -/
def PMem.sound (m : PMem) (b : Nat) : Bool := (m.poisoned (1024 * b) 1024).isNone && m.ecc.all (fun e => decide (e.2 < 2) || e.1 / 128 != b)
/-- The lines of a copy, one by one; `vs` are the source blocks to verify before their first byte is written (R395). -/
def State.copyLines (s : State) (n : Option Nat) (c a d : Nat) (vs : List Nat) : List Nat → Nat → State × OpStop
  | [], _ => (s, none)
  | l :: t, len =>
    let lo := max a (64 * l)
    let hi := min (a + len) (64 * l + 64)
    match s.performRead n c 0 lo (hi - lo) (vs.filter (fun b => lo = 1024 * b && (s.pmem n c 0).sound b)) with
    | (.error code, s1) => (s1, some (code, lo, true))
    | (.ok bs, s1) =>
      let at0 := d + (lo - a)
      match s1.narrow0 n c at0 bs (s.epLow n) with
      | (s2, some (code, k)) => (s2, some (code, max at0 (64 * k), false))
      | (s2, none) => s2.copyLines n c a d vs t len

/-- A copy within the Comb's memory (R212, R213). -/
def State.opCopy (s : State) (n : Option Nat) (c a d len : Nat) : State × OpStop :=
  if !(opForm a d len) then (s, some (0x3008#16, a, true))
  else if a < d + len ∧ d < a + len then (s, some (0x3009#16, a, true))
  else
    let carry := a % 1024 = d % 1024
    let old := (s.pmem n c 0).chk
    let r := s.copyLines n c a d (if carry then [] else wholeBlocks a len) (linesOf a len) len
    match r.2 with
    | some f => (r.1, some f)
    | none =>
      if carry then
        let m := r.1.pmem n c 0
        let m1 := (wholeBlocks d len).foldl (fun m b =>
          { m with chk := tset 0 m.chk b (tget 0 old ((1024 * b + a - d) / 1024)), mark := tset false m.mark b false }) m
        (r.1.setPmem n c 0 m1, none)
      else (r.1, none)

/-- Run the oldest operation of a kind that has not run. -/
def State.opRun (s : State) (c : Nat) (isFill : Bool) : State :=
  let a := s.area c
  match lfind (fun o => !o.fin && (match o.kind with | .fill _ _ _ => isFill | .copy _ _ _ => !isFill | _ => false)) a.ops with
  | none => s
  | some i =>
    match a.ops[i]? with
    | none => s
    | some o =>
      let n := if o.ctx < 16 then some o.ctx else none
      let r := match o.kind with
        | .fill d len pat => s.opFill n c d len pat
        | .copy x d len => s.opCopy n c x d len
        | .reduce _ => (s, none)
      let a1 := r.1.area c
      let o1 := match r.2 with
        | some (code, adr, src) => { o with fin := true, fault := code, addr := adr, atSrc := src }
        | none => { o with fin := true }
      r.1.setArea c { a1 with ops := lset a1.ops i o1 }
def execOpFill (c : Nat) (s : State) : Res := onUnit (isComb c) (if s.settled c && !(s.dead c) then s.opRun c true else s)
def execOpCopy (c : Nat) (s : State) : Res := onUnit (isComb c) (if s.settled c && !(s.dead c) then s.opRun c false else s)

/-- OP_UNIT_DONE (R213): completion of the oldest finished operation is reported. -/
def State.opDone (s : State) (c : Nat) : State :=
  let a := s.area c
  match lfind (fun o => o.fin) a.ops with
  | none => s
  | some i =>
    match a.ops[i]? with
    | none => s
    | some o =>
      let s1 := s.setArea c { a with ops := ldel a.ops i }
      match o.kind with
      | .reduce p =>
        if o.fault ≠ 0 then s1.rxHalt c p o.fault
        else (s1.arrival c (if o.ctx < 16 then some o.ctx else none) p).rxDone c p
      | _ =>
        match o.who with
        | none => s1
        | some (f, k) =>
          let fg := s1.forager c f
          if (fg.slots.find? (fun e => e.1 = k)).isNone then s1.writeDone (if o.ctx < 16 then some o.ctx else none) o.ep else
          let cmd := tget {} fg.slots k
          let cmd1 := if o.fault ≠ 0 then cmd.fail o.fault 0 (BitVec.ofNat 64 (fld (wnum cmd.desc) (if o.atSrc then 100 else 164) 28 * 2 ^ 36 + o.addr)) else cmd
          (s1.setForager c f { fg with slots := tput fg.slots k { cmd1 with opDone := true } }).writeDone
            (if o.ctx < 16 then some o.ctx else none) o.ep
def execOpUnitDone (c : Nat) (s : State) : Res := onUnit (isComb c) (if s.settled c then s.opDone c else s)

/-- ECC_WRITEBACK (R208): a word read with one bad bit is written back. -/
def execEccWriteback (c w : Nat) (s : State) : Res :=
  onUnit (isComb c && decide (w < 0x600000))
    (let a := s.area c
     if tget 0 a.mem.ecc w = 1 then s.setArea c { a with mem := { a.mem with ecc := tset 0 a.mem.ecc w 0 } } else s)

/-! The check of a contribution (R305) -/

/-- Apply the payload: copied to the destination, or added to it. -/
def State.applyPayload (s : State) (n : Option Nat) (c : Nat) (k : Claim) (p : Pkt) (bs : List Byte) : State × Option W16 :=
  if k.red = 1 then s.performWrite n c p.space p.off bs p.epochLo
  else s.reduceLines n c (k.red = 2) p.epochLo (lineParts p.off bs)

/-- Free bytes over a range (log entry 2). -/
def State.freeBytes (s : State) (c a : Nat) : Nat → State
  | 0 => s
  | n + 1 =>
    let d := s.draw
    let ar := d.2.area c
    (d.2.setArea c { ar with mem := ar.mem.put (a + 4 * n) (leBytes 4 d.1.toNat) (tget false ar.mem.ep ((a + 4 * n) / 1024)) }).freeBytes c a n

/-- DIGEST_CHECK (R305): the oldest trailer of the resident context. -/
def State.digestCheck (s : State) (c : Nat) : State :=
  let a := s.area c
  match a.trailers with
  | [] => s
  | p :: rest =>
    let n := s.residentAt c
    match a.claims.find? (claimOf p), p.clitic 2 with
    | some k, some w =>
      let s0 := s.setArea c { a with trailers := rest, claims := a.claims.filter (fun e => !(claimOf p e)) }
      let coll := leNat (cellsRead a.mem.bytes k.stage 4)
      let dig := crc64From k.crc (digestTail (lget 0 w 1) p.src coll)
      if dig = lget 0 w 3 ∧ k.len = (lget 0 w 2).toNat % 2 ^ 32 then
        match s0.performRead n c 0 (k.stage + 1024) k.len [] with
        | (.error code, s1) => s1.rxHalt c p code
        | (.ok bs, s1) =>
          match s1.applyPayload n c k p bs with
          | (s2, some code) => s2.rxHalt c p code
          | (s2, none) => (s2.arrival c n p).rxDone c p
      else
        let hd := leNat (cellsRead a.mem.bytes (k.stage + 4) 4)
        let s1 := (s0.performWrite n c 0 (k.stage + 4) (leBytes 4 (hd / 2 * 2 + 1)) p.epochLo).1
        let s2 := s1.freeBytes c (k.stage + 1024) (k.len / 4)
        let det := p.src % 2 ^ 24 + coll * 2 ^ 32
        let s3 := (s2.report ⟨0x500B#16, 1, n, 0, c, 0, s.faultEpoch n, BitVec.ofNat 64 k.stage, BitVec.ofNat 64 det⟩).event n
          0x500B#16 c (masterField (.service c)) (BitVec.ofNat 64 det)
        s3.rxHalt c p 0x500B#16
    | _, _ => (s.setArea c { a with trailers := rest }).rxHalt c p 0x500A#16
def execDigestCheck (c : Nat) (s : State) : Res :=
  onUnit (isComb c) (if s.settled c && !(s.dead c) then s.digestCheck c else s)

/-! Owner change and windows (R205-R207, R219) -/

/-- OWNER_CHANGE_FILL (R219): the Keeper has all 48 MiB filled with zero before a master of a new owner can reach the Comb;
while a context runs or has its data there, no owner changes. -/
def execOwnerChangeFill (c : Nat) (s : State) : Res :=
  onUnit (isComb c)
    (match s.residentAt c with
     | some n => if (s.ctx n).st = 1 ∨ (s.ctx n).st = 6 then s.setArea c { s.area c with mem := {} } else s
     | none => if s.ownedByAny c then s else s.setArea c { s.area c with mem := {} })

/-- Fields of a window (R205). -/
def dwBase (v : Nat) : Nat := fld v 0 10
def dwSize (v : Nat) : Nat := fld v 10 10
def dwEn (v : Nat) : Bool := bit v 31
/-- R206: the window's own form. -/
def dwOk (v : Nat) : Bool :=
  fld v 24 7 = 0 && (!dwEn v || decide (1 ≤ dwSize v ∧ 5 ≤ fld v 20 4 ∧ dwBase v + dwSize v ≤ 768))
/-- Two windows overlap, both enabled. -/
def dwMeet (v w : Nat) : Bool := dwEn v && dwEn w && decide (dwBase v < dwBase w + dwSize w ∧ dwBase w < dwBase v + dwSize v)
/-- Rotation of the aligned block of 32 lines that starts at line `l`, within a window (R205). -/
def dwShift (v l : Nat) : Nat :=
  if dwEn v && decide (dwBase v * 1024 ≤ l ∧ l < (dwBase v + dwSize v) * 1024) then (l - dwBase v * 1024) / 2 ^ fld v 20 4 % 32 else 0
/-- Line at which the bytes of line `l` are read after a window changes from `v` to `w` (R207). -/
def dwMove (v w l : Nat) : Nat :=
  let b := l / 32 * 32
  b + (l % 32 + dwShift v b + 32 - dwShift w b) % 32
/-- A memory after a change of window: lines move within their blocks; the stored check values stay where they are. -/
def PMem.rewindow (m : PMem) (v w : Nat) : PMem :=
  let bytes : Tbl Byte := m.bytes.foldl (fun (t : Tbl Byte) (e : Nat × Byte) => tset 0 t (dwMove v w (e.1 / 64) * 64 + e.1 % 64) e.2) []
  let m1 := { m with bytes := bytes
                     poison := m.poison.foldl (fun (t : Tbl W16) (e : Nat × W16) => tset 0 t (dwMove v w e.1) e.2) []
                     ecc := m.ecc.foldl (fun (t : Tbl Nat) (e : Nat × Nat) => tset 0 t (dwMove v w (e.1 / 8) * 8 + e.1 % 8) e.2) [] }
  let bl : List Nat := ((m.bytes.map (fun (e : Nat × Byte) => e.1 / 1024)) ++ (bytes.map (fun (e : Nat × Byte) => e.1 / 1024))).eraseDups
  { m1 with chk := bl.foldl (fun (t : Tbl W32) (b : Nat) => tset 0 t b (tget 0 m.chk b ^^^ crc32c (m.block b) ^^^ crc32c (m1.block b))) m.chk }

/-- The effect of a write of `CM_DWn` (R206, R207). -/
def dwEff (p : Path) (n : Nat) (v : W64) : Eff := fun s =>
  let i := s.instOf p 0x2710 (n + 1)
  let cx := i - 1
  let get (k : Nat) : Nat := s.obj i 0x2710 (k + 1) 0
  if !(dwOk v.toNat) || (List.range 8).any (fun k => k != n && dwMeet v.toNat (get k)) then (some badValue, s)
  else
    let s1 := s.setObj i 0x2710 (n + 1) v.toNat
    let s2 := if (s.ctx cx).resident then
        s1.onAreas cx (fun _ a => { a with mem := a.mem.rewindow (get n) v.toNat }) else s1
    (none, s2)
/-- CM_DW_WRITE (R206). -/
def execCmDwWrite (p : Path) (n : Nat) (v : W64) (s : State) : Res :=
  onUnit (isPath p && decide (n < 8)) (s.writeAnswer p 0x2710 (n + 1) v (dwEff p n v))

end Sys2Proof.Machine
end

