-- ==== Sys2Proof/Machine/Arbiter.lean ====
section
/-! DEFINITION. The maintenance arbiter: scopes, conflicts, admission in order, and the end of an activity (R465-R468). -/

namespace Sys2Proof.Machine

open Sys2Proof

/-- Scope word of a Comb, target and lane or channel, as `MAINT_REQ` [22:3] gives it. -/
def scopeOf (c tgt lane : Nat) : Nat := combField c + tgt * 1024 + lane * 8192
def Maint.comb (m : Maint) : Nat := (combOfField (m.scope % 1024)).getD 480
def Maint.tgt (m : Maint) : Nat := fld m.scope 10 3
def Maint.lane (m : Maint) : Nat := fld m.scope 13 7
/-- The Combs of a rectangle in the layout of `ARG0` of R351. -/
def rectCombs (v : Nat) : List Nat :=
  (List.range 480).filter (fun c => decide (fld v 0 6 ≤ cxOf c ∧ cxOf c ≤ fld v 0 6 + fld v 10 6 ∧ fld v 6 4 ≤ cyOf c
    ∧ cyOf c ≤ fld v 6 4 + fld v 16 4))
/-- Combs whose Comb, region or channel an activity's scope names (R465). -/
def Maint.combs (m : Maint) : List Nat :=
  match m.cls with
  | 0 => [m.comb]
  | 1 => if m.tgt = 6 then [m.comb] else []
  | 2 => rectCombs m.scope
  | 3 => []
  | 4 => (List.range 480).filter (fun c => frameOf c = frameOf m.comb)
  | _ => rectCombs m.scope
/-- The scopes share a port, a channel, a region, a Comb or the flash. -/
def scopesMeet (a b : Maint) : Bool :=
  (a.combs.any (fun c => b.combs.contains c) && !(a.cls = 1 && b.cls = 1 && a.lane != b.lane))
  || (a.cls = 1 && b.cls = 1 && decide (a.tgt < 6) && a.tgt = b.tgt)
  || ((a.cls = 2 || a.cls = 3) && (b.cls = 2 || b.cls = 3))
/-- The class matrix of R466. -/
def classConflict (a b : Nat) : Bool :=
  let row (a : Nat) : List Nat := match a with
    | 0 => [0, 2, 4] | 1 => [1, 2, 4] | 2 => [0, 1, 2, 3, 4, 5] | 3 => [2, 3] | 4 => [0, 1, 2, 4, 5] | _ => [2, 4, 5]
  (row a).contains b
def conflicts (a b : Maint) : Bool := classConflict a.cls b.cls && scopesMeet a b

/-- A remap of a Comb waits while the Comb is owned (R469). -/
def State.maintWaits (s : State) (m : Maint) : Bool := m.cls = 4 && m.tgt != 6 && s.ownedByAny m.comb
/-- Start each deferred activity that conflicts with nothing running and nothing deferred before it (R467). -/
def maintStart (waits : Maint → Bool) (before : List Maint) : List Maint → List Maint
  | [] => before
  | m :: t =>
    if m.deferred && !(waits m) && !((before ++ t.filter (fun e => !e.deferred)).any (fun e => conflicts e m)) then
      maintStart waits (before ++ [{ m with deferred := false }]) t
    else maintStart waits (before ++ [m]) t

/-- `MAINT_RESULT` (R471). -/
def State.maintResult (s : State) (ticket st code : Nat) : State :=
  s.setObj 0 0x2C20 2 (ticket % 256 + st * 256 + code * 65536)

/-- A request enters the arbiter: the queue holds 64, of which an operator's requests may hold 48 (R467). Answers the entry,
or none where it is refused. -/
def State.maintAsk (s : State) (m : Maint) : Option Maint × State :=
  let ours := (s.maint.filter (fun e => !e.own)).length
  if 64 ≤ s.maint.length ∨ (!m.own ∧ 48 ≤ ours) then (none, s)
  else
    let t := s.ticket % 256
    let e := { m with ticket := t, deferred := s.maint.any (fun q => conflicts q m) || s.maintWaits m }
    (some e, { s with ticket := s.ticket + 1, maint := s.maint ++ [e] })

/-- The device starts an activity of its own; `MAINT_RESULT` names the last request. -/
def State.maintOwn (s : State) (cls scope : Nat) (ctx : Option Nat) : State :=
  match s.maintAsk { ticket := 0, cls := cls, deferred := false, scope := scope, own := true, ctx := ctx } with
  | (some e, s1) => s1.maintResult e.ticket (b2n e.deferred) 0
  | (none, s1) => s1

/-- An activity leaves the queue, and what it held back may start. -/
def State.maintEnd (s : State) (ticket : Nat) : State :=
  { s with maint := maintStart s.maintWaits [] (s.maint.filter (fun e => e.ticket != ticket)) }

/-- What waited for a Comb to have no owner may start. -/
def State.maintKick (s : State) : State := { s with maint := maintStart s.maintWaits [] s.maint }

/-- A running activity of a class over a Comb. -/
def State.maintRuns (s : State) (cls c : Nat) : Bool := s.maint.any (fun e => e.cls = cls && !e.deferred && e.combs.contains c)

/-- A Comb failure ends every activity that overlaps its Frame: each is aborted; an aborted pattern bundle shows refused with
0xB009 (R468). -/
def State.maintAbort (s : State) (c : Nat) : State :=
  let hit (e : Maint) : Bool := e.combs.any (fun d => frameOf d = frameOf c)
  let gone := s.maint.filter hit
  let s1 := { s with maint := maintStart s.maintWaits [] (s.maint.filter (fun e => !(hit e))) }
  gone.foldl (fun s e =>
    let s2 := s.maintResult e.ticket 4 0xB009
    if e.cls = 2 then s2.setObj 0 0x2910 4 (3 + 0xB009 * 65536) else s2) s1

end Sys2Proof.Machine
end

