-- ==== Sys2Proof/Machine/MemWafer.lean ====
section
/-! DEFINITION. The Memory Wafer: frames and scrub (R223, R224, R233, R399), reservations (R227-R229), row sparing (R232), lane
training (R237, R238), partition reset (R234-R236). -/

namespace Sys2Proof.Machine

open Sys2Proof

/-! Frames (R224) -/

/-- Lines of the requesters with reserved units, first (R224). -/
def reserved (s : State) (demand : List (Nat × Nat)) : List (Nat × Nat) :=
  demand.map (fun d => (d.1, if d.1 < 16 then min d.2 (s.ctx d.1).unitsNow else 0))
/-- Lend `k` slots, one at a time, in round-robin order after requester `last`, to those with lines left. -/
def lend (demand : List (Nat × Nat)) : Nat → Nat → List (Nat × Nat) → Nat × List (Nat × Nat)
  | 0, last, g => (last, g)
  | k + 1, last, g =>
    let left (r : Nat) : Bool := decide (tget 0 g r < tget 0 demand r)
    match (cyclicAfter 17 last).find? left with
    | none => (last, g)
    | some r => lend demand k r (tset 0 g r (tget 0 g r + 1))

/-- The epoch that a mismatch in a block counts to (R398): an uncommitted epoch of its parity, else the committed plus 1. -/
def Ctx.blockEpoch (x : Ctx) (lo : Bool) : W64 :=
  match (x.uncommitted).find? (fun e => bit e 0 == lo) with
  | some e => BitVec.ofNat 64 e
  | none => x.epDone + 1

/-- The context that holds a granule of a Comb. -/
def State.holder (s : State) (c g : Nat) : Option Nat := (List.range 16).find? (fun n => s.holds n c g)

/-- Scrub compares block `b` once its last line has been read (R399). -/
def State.scrubBlock (s : State) (c b : Nat) : State :=
  let m := (s.comb c).mw.mem
  if m.agrees b || tget false m.mark b || (m.poisoned (1024 * b) 1024).isSome then s else
  let s1 := s.setPmem none c 2 { m with mark := tset false m.mark b true }
  let n := s.holder c (b / 65536)
  let off : W64 := BitVec.ofNat 64 (1024 * b)
  let ep := match n with | some n => (s.ctx n).blockEpoch (tget false m.ep b) | none => 0
  let s2 := s1.report ⟨0xB004#16, if n.isSome then 1 else 2, n, 2, c, 0, ep, off,
    BitVec.ofNat 64 ((m.chkOf b).toNat + 2 ^ 32 * (crc32c (m.block b)).toNat)⟩
  match n with
  | none => s2
  | some n =>
    let ev : Event := ⟨some n, 0xB004#16, c, masterField (.service c), off, ep⟩
    let s3 := { s2 with events := s2.events ++ [ev] }
    s3.failParity (some n) (tget false m.ep b) 0xB004#16

/-- Scrub reads line `l`; after the last line of a block it compares the block (R230, R232, R233, R399). -/
def State.scrubAt (s : State) (c l : Nat) : State :=
  let ch := l % 16
  let b := l / 16
  let m := (s.comb c).mw.mem
  let e := tget 0 m.ecc l
  let sub := l % 16 * 32 + l / 16 % 32
  let adr : W64 := BitVec.ofNat 64 (64 * l)
  if tget 0 m.poison l ≠ 0 then s
  else if e = 0 then (if ch = 15 then s.scrubBlock c b else s)
  else if e ≤ 3 then
    let k := (s.comb c).mw
    let row := (ch * 32 + l / 16 % 32) * 5120 + l / 16384
    let s1 := s.setComb c { s.comb c with mw := { k with mem := { m with ecc := tset 0 m.ecc l 0 }
                                                         corrPasses := tset 0 k.corrPasses row (tget 0 k.corrPasses row + 1) } }
    let s2 := (s1.incObj 0x2600 3 64 1).combReport 0x7007#16 0 2 c sub adr
    if ch = 15 then s2.scrubBlock c b else s2
  else
    let s1 := s.setPmem none c 2 { m with ecc := tset 0 m.ecc l 0, poison := tset 0 m.poison l 0x7002#16 }
    s1.combReport 0x7003#16 1 2 c sub adr
/-- Slot 96: scrub reads the next line of the channel (R233). -/
def State.scrubLine (s : State) (c ch : Nat) : State :=
  let cm := s.comb c
  let b := tget 0 cm.mw.scrub ch
  (s.setComb c { cm with mw := { cm.mw with scrub := tset 0 cm.mw.scrub ch ((b + 1) % 5242880) } }).scrubAt c (16 * b + ch)
/-- A whole pass over a region: only lines with latent errors and blocks that disagree change anything. -/
def State.scrubPass (s : State) (c : Nat) : State :=
  let m := (s.comb c).mw.mem
  let s1 := m.ecc.foldl (fun s (e : Nat × Nat) => s.scrubAt c e.1) s
  m.chk.foldl (fun s (e : Nat × W32) => s.scrubBlock c e.1) s1

/-- MW_FRAME (R224, R233): the frame's slots go to the requesters; its last slot scrubs a line. Under Floor one reserved slot in
four is served, and lent slots are withheld there and while the governor throttles memory (R428, R429). -/
def State.mwFrame (s : State) (c ch : Nat) (demand : List (Nat × Nat)) : State :=
  let dm := demand.filter (fun d => decide (d.1 ≤ 16))
  let floor := s.floorLevel
  let g0 := (reserved s dm).foldl (fun t d => tset 0 t d.1 (if floor then d.2 / 4 else d.2)) []
  let used := (g0.map (·.2)).foldl (· + ·) 0
  let k := (s.comb c).mw
  let r := lend dm (if floor || s.power.memThr then 0 else 125 - used) (tget 16 k.rr ch) g0
  let s1 := s.setComb c { s.comb c with mw := { k with grant := tput k.grant ch r.2, rr := tput k.rr ch r.1 } }
  s1.scrubLine c ch
def execMwFrame (c ch : Nat) (demand : List (Nat × Nat)) (s : State) : Res :=
  onUnit (isComb c && decide (ch < 16)) (if (s.comb c).lost then s else s.mwFrame c ch demand)

/-! Reservations (R227-R229) -/

def resUnits (v : Nat) : Nat := if bit v 31 then fld v 0 7 else 0
def resSize (v : Nat) : Nat := if bit v 31 then fld v 16 7 else 0
def State.res (s : State) (n : Nat) : Nat := s.obj 0 0x2610 (n + 1) 0
/-- Other contexts that own a Comb. -/
def State.othersAt (s : State) (n c : Nat) : List Nat := (List.range 16).filter (fun k => k != n && s.owns k c)
/-- Test 1: the sum of the units (R228). -/
def State.unitsFit (s : State) (n c u : Nat) : Bool :=
  decide (((s.othersAt n c).map (fun k => resUnits (s.res k))).foldl (· + ·) 0 + u ≤ 125)
/-- Granules that a request may not use: other contexts' reservations and save areas that hold an image. -/
def State.fixedAt (s : State) (n c : Nat) : List Nat :=
  (List.range 80).filter (fun g => (s.othersAt n c).any (fun k => s.holds k c g)
    || (s.imageAt n c && (saveGranules (tget none (s.ctx n).saveBase c)).contains g))
/-- Contexts whose save area on a Comb is movable: it holds no image. -/
def State.movableAt (s : State) (c : Nat) : List Nat :=
  (List.range 16).filter (fun k => s.owns k c && !(s.imageAt k c) && (tget none (s.ctx k).saveBase c).isSome)
/-- Test 2 at base `b` (R228). -/
def State.runFits (s : State) (n c size b : Nat) : Bool :=
  let fx := s.fixedAt n c
  decide (b + size ≤ 80) && !(fx.any (fun g => decide (b ≤ g ∧ g < b + size)))
    && decide (2 * (s.movableAt c).length + fx.length + size ≤ 80)
def State.someBase (s : State) (n c size : Nat) : Bool := (List.range 81).any (fun b => s.runFits n c size b)

/-- Move the movable save areas of a Comb out of a run: each takes the lowest free granules. -/
def State.placeSaves (s : State) (n c size b : Nat) : State :=
  let fx := s.fixedAt n c ++ (List.range size).map (· + b)
  ((s.movableAt c).foldl (fun (acc : List Nat × State) k =>
    let free := (List.range 80).filter (fun g => !(acc.1.contains g))
    let g0 := lget 0 free 0
    let g1 := lget 0 free 1
    let x := acc.2.ctx k
    (acc.1 ++ [g0, g1], acc.2.setCtx k { x with saveBase := tput x.saveBase c (some (g0 * 128 + g1)) })) (fx, s)).2

/-- Admission of a write of `MW_RESn` (R228): the base, or the Comb named by the refusal. -/
def State.admitRes (s : State) (n u size : Nat) : Except Nat Nat :=
  let cs := (s.ctx n).combs
  match cs.find? (fun c => !(s.unitsFit n c u) || !(s.someBase n c size)) with
  | some c => .error c
  | none =>
    match (List.range 81).find? (fun b => cs.all (fun c => s.runFits n c size b)) with
    | some b => .ok b
    | none => .error ((s.ctx n).y0 * 40 + (s.ctx n).x0)

/-- The effect of a write of `MW_RESn` (R228, R229). Granules released are zeroed at once (log entry 41). -/
def mwResEff (n : Nat) (v : W64) : Eff := fun s =>
  let w := v.toNat
  let x := s.ctx n
  if x.st = 0 then (some badState, s)
  else if x.st = 5 then (some (ownCode 0x300C), s)
  else
    match s.admitRes n (resUnits w) (resSize w) with
    | .error c => (some { ownCode 0x300C with comb := some c }, s)
    | .ok b =>
      let old := s.res n
      let had := (List.range (resSize old)).map (· + fld old 8 7)
      let has := (List.range (resSize w)).map (· + b)
      let fresh := has.filter (fun g => !(had.contains g))
      let freed := had.filter (fun g => !(has.contains g))
      let s1 := x.combs.foldl (fun s c => s.placeSaves n c (resSize w) b) s
      let s2 := freed.foldl (fun s g => s.onCombs n (fun m => m.zeroGranules g 1)) s1
      let ready := fresh.isEmpty && (bit old 30 || !(bit old 31))
      let s3 := s2.setObj 0 0x2610 (n + 1) (fld w 0 7 + b * 256 + fld w 16 7 * 65536 + b2n (ready && bit w 31) * 2 ^ 30 + b2n (bit w 31) * 2 ^ 31)
      let y := s3.ctx n
      let s4 := s3.setCtx n { y with unitsNow := min y.unitsNow (resUnits w)
                                     fills := (y.fills.filter (fun g => has.contains g)) ++ fresh }
      let rect := x.x0 + x.y0 * 64 + x.wM1 * 1024 + x.hM1 * 65536
      (none, if fresh.isEmpty ∨ s4.maint.any (fun e => e.cls = 5 && e.ctx = some n) then s4 else s4.maintOwn 5 rect (some n))
/-- MW_RES_WRITE (R228). -/
def execMwResWrite (p : Path) (n : Nat) (v : W64) (s : State) : Res :=
  onUnit (isPath p && isCtx n) (s.writeAnswer p 0x2610 (n + 1) v (mwResEff n v))

/-- MW_UNITS_INCREASE (R229): at a frame boundary the admitted units are in force. -/
def execMwUnitsIncrease (n : Nat) (s : State) : Res :=
  onUnit (isCtx n) (s.setCtx n { s.ctx n with unitsNow := max (s.ctx n).unitsNow (resUnits (s.res n)) })

/-- MW_GRANULE_FILL_DONE (R229, R467): the fill has run, unless the arbiter defers it; `READY` returns to 1. -/
def State.granulesFilled (s : State) (n : Nat) : State :=
  let e := s.maint.find? (fun e => e.cls = 5 && e.ctx = some n)
  let v := s.res n
  if (match e with | some e => e.deferred | none => true) || !(bit v 31) then s else
  let s1 := (s.ctx n).fills.foldl (fun s g => s.onCombs n (fun m => m.zeroGranules g 1)) s
  let s2 := s1.setObj 0 0x2610 (n + 1) (v % 2 ^ 30 + 2 ^ 30 + 2 ^ 31)
  let s3 := s2.setCtx n { s2.ctx n with fills := [] }
  match e with | some e => s3.maintEnd e.ticket | none => s3
def execMwGranuleFillDone (n : Nat) (s : State) : Res := onUnit (isCtx n) (s.granulesFilled n)

/-! Rows and lanes -/

/-- MW_ROW_SPARE (R232): a spare row of the bank takes the row's corrected lines; with none left the row stays. -/
def State.rowSpare (s : State) (c ch bank row : Nat) : State :=
  let cm := s.comb c
  let k := ch * 32 + bank
  let used := tget 0 cm.mw.spareRows k
  if 16 ≤ used then s.combReport 0x7005#16 2 2 c k (BitVec.ofNat 64 row)
  else
    let lines := (List.range 32).map (fun col => row * 16384 + col * 512 + bank * 16 + ch)
    let ecc := lines.foldl (fun t l => if tget 0 t l ≤ 3 then tset 0 t l 0 else t) cm.mw.mem.ecc
    let mw := { cm.mw with
      spareRows := tset 0 cm.mw.spareRows k (used + 1)
      corrPasses := tset 0 cm.mw.corrPasses (k * 5120 + row) 0
      mem := { cm.mw.mem with ecc := ecc } }
    (s.setComb c { cm with mw := mw }).incObj 0x2600 4 32 1
def execMwRowSpare (c ch bank row : Nat) (s : State) : Res :=
  onUnit (isComb c && decide (ch < 16 ∧ bank < 32 ∧ row < 5120)) (s.rowSpare c ch bank row)

/-- MW_LANE_RETRAIN (R237, R238). -/
def State.laneRetrain (s : State) (c ch lane : Nat) (pass : Bool) : State :=
  let cm := s.comb c
  let held := tget [] cm.mw.laneSpare ch
  if held.contains lane ∨ (pass ∧ held.length < 2) then s
  else if held.length < 2 then
    (s.setComb c { cm with mw := { cm.mw with laneSpare := tput cm.mw.laneSpare ch (held ++ [lane]) } }).incObj 0x2600 5 32 1
  else if pass then s
  else (s.combReport 0x7004#16 2 2 c (ch * 256 + lane) 0).maintOwn 4 (scopeOf c 6 ch) none
def execMwLaneRetrain (c ch lane : Nat) (pass : Bool) (s : State) : Res :=
  onUnit (isComb c && decide (ch < 16 ∧ lane < 146)) (s.laneRetrain c ch lane pass)

/-! Partition reset (R234-R236) -/

/-- Steps 1 to 3 for the context that holds the line. -/
def State.resetStart (s : State) (n c line : Nat) (code : W16) : State :=
  let x := s.ctx n
  if x.st = 5 ∨ x.st = 0 ∨ x.st = 6 then s else
  let s0 := s.dropAllDigests n
  let s1 := if x.resident then s0.onAreas n (fun _ a => a.stopped) else s0.onCombs n (fun m => { m with saved := tdel m.saved n })
  let s2 := (s1.failAll n code).onCombs n (fun m => m.poisonWatches (some n))
  let s3 := s2.setCtx n { s2.ctx n with st := 5, refuse := true, tdbg := false }
  let ev : Event := ⟨some n, code, c, masterField (.service c), BitVec.ofNat 64 (64 * line), x.epOpen⟩
  { s3 with events := s3.events ++ [ev] }.cperAdd ⟨code, 1, some n, 2, c, line % 16 * 32 + line / 16 % 32, s.faultEpoch (some n),
    BitVec.ofNat 64 (64 * line), 0⟩ 2 5 0 false
/-- PARTITION_RESET (R234): an uncorrectable line, found by a read or by scrub. -/
def State.lineLost (s : State) (c line : Nat) (scrub : Bool) : State :=
  let m := (s.comb c).mw.mem
  let code : W16 := if scrub then 0x7003 else 0x7001
  let s1 := s.setPmem none c 2 { m with ecc := tset 0 m.ecc line 0, poison := tset 0 m.poison line 0x7002#16 }
  let n := s.holder c (line / 0x100000)
  let s2 := s1.report ⟨code, 1, n, 2, c, line % 16 * 32 + line / 16 % 32, s.faultEpoch n, BitVec.ofNat 64 (64 * line), 0⟩
  match n with
  | none => s2
  | some n => s2.resetStart n c line code
def execPartitionReset (c line : Nat) (scrub : Bool) (s : State) : Res :=
  onUnit (isComb c && decide (line < 0x5000000)) (s.lineLost c line scrub)

/-- PARTITION_RESET_DONE (R234): everything of the context on the partition is zero; its windows, rings, reservations and
epochs stay (R390). -/
def State.resetDone (s : State) (n : Nat) : State :=
  if (s.ctx n).st ≠ 5 then s else
  let s1 := ((s.zeroAreas n true).zeroCapacity n).onCombs n (fun m => m.dropTraffic n)
  let x := s1.ctx n
  s1.setCtx n { x with st := 4, wasReset := true, frz := [], frzOver := 0, frzMore := [], chal := none }
def execPartitionResetDone (n : Nat) (s : State) : Res := onUnit (isCtx n) (s.resetDone n)

end Sys2Proof.Machine
end

