-- ==== Sys2Proof/Machine/Order.lean ====
section
/-! DEFINITION. Step epochs: commit fences, their completion and failure, and the rewind (R257-R261), with the step-sync pulse
that a committed epoch drives (R530). -/

namespace Sys2Proof.Machine

open Sys2Proof

/-- Step-sync out (R530): every pin that carries it goes high; a rise during a pulse merges into it. -/
def State.stepSyncOut (s : State) (n : Nat) : State :=
  let v := s.obj 0 0x2D00 11 0
  if !(bit v 4) ∨ v % 16 ≠ n ∨ (s.ctx n).st = 0 ∨ s.pulse then s else
  let ps := (List.range 8).filter (fun k => (s.pinOf k).func = 4 && !(s.pinOf k).parked)
  ps.foldl (fun s k => (s.setPin k { s.pinOf k with level := true }).out (.pin k true)) { s with pulse := true }

/-- A host command's fence ends: the request leaves what the command waits for, with a status and a code where it failed
(R349). -/
def State.fenceEnd (s : State) (f : Fence) (n : Nat) (st : Nat) (code : W16) : State :=
  let r := s.ring f.fn
  let x := s.ctx n
  s.setRing f.fn { r with cmds := r.cmds.map (fun h =>
    if h.outst.contains f.id then
      { h with outst := h.outst.filter (· != f.id)
               epoch := if code = 0 then x.epDone else x.epDone + 1
               status := if code = 0 then h.status else some (st, code) }
    else h) }

/-- HC_COMMIT (R258, steps 1 and 2): the oldest fence of the context is accepted, and its successor epoch opens; or it fails at
once. -/
def State.fenceAccept (s : State) (n : Nat) : State :=
  let x := s.ctx n
  match x.fences with
  | [] => s
  | f :: rest =>
    if f.accepted then s
    else if x.cstat ≠ 0 then (s.setCtx n { x with fences := rest }).fenceEnd f n 1 0x4302#16
    else if f.epoch ≠ x.epOpen then (s.setCtx n { x with fences := rest }).fenceEnd f n 1 0x4301#16
    else s.setCtx n { x with fences := { f with accepted := true } :: rest, epOpen := x.epOpen + 1 }
def execHcCommit (n : Nat) (s : State) : Res := onUnit (isCtx n) (s.fenceAccept n)

/-- COMMIT_COMPLETE (R258, steps 3 and 4): every write of the epoch has been performed and none has failed. -/
def State.fenceComplete (s : State) (n : Nat) : State :=
  let x := s.ctx n
  match x.fences with
  | [] => s
  | f :: rest =>
    if !f.accepted ∨ tget 0 x.outst (b2n (f.epoch.getLsbD 0)) ≠ 0 ∨ tget 0 x.failed f.epoch.toNat ≠ 0 then s
    else
      let s1 := s.setCtx n { x with fences := rest, epDone := f.epoch, failed := tdel x.failed f.epoch.toNat }
      (s1.fenceEnd f n 0 0).stepSyncOut n
def execCommitComplete (n : Nat) (s : State) : Res := onUnit (isCtx n) (s.fenceComplete n)

/-- COMMIT_FAIL (R259): the fence's epoch has failed first with this code. -/
def State.fenceFail (s : State) (n : Nat) (code : W16) : State :=
  let x := s.ctx n
  match x.fences with
  | [] => s
  | f :: rest =>
    if !f.accepted ∨ code = 0 ∨ tget 0 x.failed f.epoch.toNat ≠ code then s
    else
      let s1 := s.setCtx n { x with fences := rest, cstat := BitVec.ofNat 32 (0x4302 + code.toNat * 65536) }
      (s1.fenceEnd f n 2 0x4302#16).event (some n) 0x4302#16 0 (masterField (.host f.fn)) (BitVec.ofNat 64 code.toNat)
def execCommitFail (n : Nat) (code : W16) (s : State) : Res := onUnit (isCtx n) (s.fenceFail n code)

/-- A master of the context has a running program, Clause or Forager command (R259). -/
def State.anyRunning (s : State) (n : Nat) : Bool :=
  (s.ctx n).combs.any (fun c =>
    let a := s.areaOf n c
    a.workers.any (fun w => w.2.slots.any (fun x => x.2.running)) || a.eng.active.isSome || a.fg.any (fun f => !f.2.slots.isEmpty))

/-- The effect of a write of `EPOCH_OPENn` (R259). -/
def rewindEff (n : Nat) (v : W64) : Eff := fun s =>
  let x := s.ctx n
  if x.st = 0 then (some badState, s)
  else if v ≠ x.epDone + 1 then (some badValue, s)
  else if s.anyRunning n then (some badState, s)
  else (none, s.setCtx n { x with epOpen := v, cstat := 0, failed := [] })
/-- EPOCH_REWIND (R259). -/
def execEpochRewind (p : Path) (n : Nat) (v : W64) (s : State) : Res :=
  onUnit (isPath p && isCtx n) (s.writeAnswer p 0x2720 (n + 1) v (rewindEff n v))

end Sys2Proof.Machine
end

