-- ==== Sys2Proof/Machine/Tyduem.lean ====
section
/-! DEFINITION. The Tyduem ports: frames received (R330-R333), pause words (R334, R335), lanes (R336-R339), link keys (R332,
R364, R365), and the requests of peer Keepers to freeze a master (R374, R375). -/

namespace Sys2Proof.Machine

open Sys2Proof

/-! Ports -/

/-- Lanes that carry traffic. -/
def TyPort.active (t : TyPort) : Nat := ((List.range 96).filter (fun l => tget 0 t.lanes l = 2)).length
/-- The width in force: the operator's target or the governor's, the smaller (R336). -/
def TyPort.widthNow (t : TyPort) : Nat := min t.width t.gov
/-- A report of a port (R407): unit 5, `SUB` port x 96 + lane. -/
def State.portReport (s : State) (code : W16) (sev p lane : Nat) : State := s.report ⟨code, sev, none, 5, 0, p * 96 + lane, 0, 0, 0⟩

/-- The port goes down (R339, R362): its keys are erased and its lanes left; 0x6007 is logged and reported to the host. -/
def State.portDown (s : State) (p : Nat) : State :=
  let t := s.port p
  let s1 := s.setPort p { st := 4, bad := t.bad, badAt := t.badAt, onOff := t.onOff, width := t.width, light := t.light, failed := t.failed }
  (s1.portReport 0x6007#16 2 p 0).event none 0x6007#16 0 0 (BitVec.ofNat 64 p)

/-! Keeper packets on a port (R322, R331, R374) -/

/-- A packet of channel M to the peer: kind and at most three words (log entry 43). -/
def State.keeperPkt (s : State) (kind : Nat) (ws : List W64) : Pkt :=
  let c : List W64 := BitVec.ofNat 64 (ws.length * 16 + kind * 2 ^ 32) :: ws
  let q : Pkt := { dst := 1023, src := s.ownModule * 1024 + 1023, master := masterField .keeper, ptype := 10, clitics := [c],
                   clWords := c.length, clNext := 4 }
  { q with e2e := q.crc }
def State.sendKeeper (s : State) (p kind : Nat) (ws : List W64) : State := s.sendFrame p 0 0 8 (s.keeperPkt kind ws).bytes
/-- A message of the link exchange, three words a packet, in order (log entry 51). -/
def State.sendKx (s : State) (p kind : Nat) (msg : List Byte) : State :=
  (chunks 24 msg.length msg).foldl (fun s b => s.sendKeeper p kind (words64 (lfit 0 24 b))) s

/-! The link exchange (R364, R365) -/

/-- Linear coordinate x + 32 y + 1,024 z of a module (R338). -/
def linear (m : Nat) : Nat := modX m + 32 * modY m + 1024 * modZ m
/-- The module that port `p` leads to by the plan: one step in the port's direction, modulo the size. -/
def State.peerModule (s : State) (p : Nat) : Nat :=
  let m := s.ownModule
  let d := p / 2
  let sz := (match d with | 0 => fld (s.obj 0 0x2C10 1 0) 23 5 | 1 => fld (s.obj 0 0x2C10 1 0) 18 5 | _ => fld (s.obj 0 0x2C10 1 0) 14 4) + 1
  let v := (modDim m d + (if p % 2 = 0 then 1 else sz - 1)) % sz
  match d with
  | 0 => v * 512 + m % 512
  | 1 => modX m * 512 + v * 16 + m % 16
  | _ => m / 16 * 16 + v
/-- This end leads: the lower linear coordinate, then the lower port number (R338); the peer's port is the opposite one (R461). -/
def State.leadsPort (s : State) (p : Nat) : Bool :=
  let a := linear s.ownModule
  let b := if bit (s.obj 0 0x2C10 1 0) 31 then linear (s.peerModule p) else a
  a < b || (a = b && p % 2 = 0)

/-- Bytes of the three messages of R364: nonce, digests of two chains, keys and signatures. -/
def kxLen (k : Nat) : Nat := match k with | 1 => 1696 | 2 => 1696 + 96 + 4627 | _ => 96 + 4627
/-- This module's message of step `k`, of its length. -/
def kxMsg (k draw : Nat) (msgs : List Byte) : List Byte := lfit 0 (kxLen k) (Config.kxMessage k draw msgs)

/-- Step 1 at the initiator; the other end waits for it. -/
def State.kxStart (s : State) (p : Nat) : State :=
  let t := s.port p
  if s.leadsPort p then
    let m := kxMsg 1 s.fresh []
    let s1 := { s with fresh := s.fresh + 1 }
    (s1.setPort p { t with kx := { running := true, leads := true, await := 2, msgs := m } }).sendKx p 0x10 m
  else s.setPort p { t with kx := { running := true, leads := false, await := 1 } }

/-- The exchange ends with a code (R365): the port stays as it is and the exchange starts again after 1 s. -/
def State.kxFail (s : State) (p : Nat) (code : W16) : State :=
  (s.setPort p { s.port p with kx := { waiting := true } }).portReport code 2 p 0

/-- Steps 4 and 5: the keys of both directions. Before the first key they are installed and the port is up; at a rekey each takes
effect at the next inversion of `KPH` in its direction. -/
def State.kxInstall (s : State) (p : Nat) (leads : Bool) (msgs : List Byte) : State :=
  let t := s.port p
  let k := lfit 0 72 (Config.kxKeys msgs)
  let a : LinkKey := ⟨k.take 32, (k.drop 64).take 4⟩
  let b : LinkKey := ⟨(k.drop 32).take 32, k.drop 68⟩
  let tx := if leads then a else b
  let rx := if leads then b else a
  if t.txKey.isNone then
    s.setPort p { t with txKey := some tx, rxKey := some rx, txCtr := 0, rxCtr := 0, kx := {}, st := 3 }
  else s.setPort p { t with nextTx := some tx, nextRx := some rx, kx := {} }

/-- The peer's chains verify, and its serial number is in `PEER_LIST` where that is enabled (R364). -/
def State.peerOk (s : State) (msgs : List Byte) : Bool :=
  Config.kxChains msgs && (!(bit (s.obj 0 0x2810 1 0) 1)
    || (words64 (s.dom 0 0x2810 2)).contains (Config.kxSerial msgs))

/-- A whole message of step `k` has arrived (R364). -/
def State.kxTake (s : State) (p k : Nat) (msg : List Byte) : State :=
  let t := s.port p
  let msgs := t.kx.msgs ++ msg
  if (k = 1 ∨ k = 2) ∧ !(s.peerOk msgs) then s.kxFail p 0x8003#16
  else if (k = 2 ∨ k = 3) ∧ !(Config.kxSigs msgs) then s.kxFail p 0x8004#16
  else if k = 3 then s.kxInstall p false msgs
  else
    let m := kxMsg (k + 1) s.fresh msgs
    let s1 := { s with fresh := s.fresh + 1 }
    let s2 := (s1.setPort p { t with kx := { t.kx with await := 3, msgs := msgs ++ m, part := [] } }).sendKx p (0x10 + k) m
    if k = 2 then s2.kxInstall p true (msgs ++ m) else s2

/-- LINK_KEY_MSG (R364): words of a message of step `k`; a message out of turn is discarded. -/
def State.kxWords (s : State) (p k : Nat) (ws : List W64) : State :=
  let t := s.port p
  -- a rekey starts at the follower with the first words of the initiator's message
  let kx := if !t.kx.running && k = 1 && !(s.leadsPort p) then { running := true, await := 1 } else t.kx
  if !kx.running ∨ kx.await ≠ k then s
  else
    let part := kx.part ++ bytes64 ws
    let s1 := s.setPort p { t with kx := { kx with part := part } }
    if part.length < kxLen k then s1 else s1.kxTake p k (part.take (kxLen k))

/-- TY_REKEY (R332): the new key takes effect at a frame boundary with `KPH` inverted; where none is agreed the initiator starts an
exchange, and a key at its limit of 2^40 frames takes the port down (R365). -/
def State.rekey (s : State) (p : Nat) : State :=
  let t := s.port p
  if t.st ≠ 3 then s else
  match t.nextTx with
  | some k => s.setPort p { t with txKey := some k, nextTx := none, kph := !t.kph, txCtr := 0 }
  | none =>
    if 2 ^ 40 ≤ t.txCtr.toNat then s.portDown p
    else if t.kx.running || t.kx.waiting || !(s.leadsPort p) then s else s.kxStart p
def execTyRekey (p : Nat) (s : State) : Res := onUnit (isTyPort p) (s.rekey p)

/-- TY_OLD_KEY_EXPIRE (R332, R362). -/
def execTyOldKeyExpire (p : Nat) (s : State) : Res := onUnit (isTyPort p) (s.setPort p { s.port p with oldKey := none })

/-- LINK_KEY_TIMEOUT (R365). -/
def execLinkKeyTimeout (p : Nat) (s : State) : Res :=
  onUnit (isTyPort p) (if (s.port p).kx.running then s.kxFail p 0x8004#16 else s)
/-- LINK_KEY_RETRY (R365). -/
def execLinkKeyRetry (p : Nat) (s : State) : Res :=
  onUnit (isTyPort p) (if (s.port p).kx.waiting && decide ((s.port p).st = 2 ∨ (s.port p).st = 3) then s.kxStart p else s)

/-! Pause (R334, R335) -/

/-- A pause word arrives: the later replaces the earlier; 0 resumes. -/
def State.pauseWordIn (s : State) (p : Nat) (w : Nat) : State :=
  s.setPort p { s.port p with paused := tset 0 (s.port p).paused (fld w 4 5) (fld w 16 16) }
/-- PAUSE_EXPIRE (R335). -/
def execPauseExpire (p ch : Nat) (s : State) : Res :=
  onUnit (isTyPort p && decide (ch < 18)) (s.setPort p { s.port p with paused := tset 0 (s.port p).paused ch 0 })
/-- The receiver asks for a pause of 1,024 quanta while its room is below eight maximum packets (R334). -/
def State.pauseIfShort (s : State) (p ch : Nat) : State :=
  let t := s.port p
  if t.onOff && decide (s.chanRoom p ch < 8 * 544) then
    (s.setPort p { t with pausing := tset false t.pausing ch true }).sendPause p ch 1024
  else s
/-- PAUSE_REPEAT (R334). -/
def execPauseRepeat (p ch : Nat) (s : State) : Res :=
  onUnit (isTyPort p && decide (ch < 18)) (if tget false (s.port p).pausing ch then s.pauseIfShort p ch else s)

/-! Lanes (R336-R339) -/

/-- A port below 8 active lanes goes down (R339). -/
def State.laneCheck (s : State) (p : Nat) : State :=
  let t := s.port p
  if decide (t.st = 2 ∨ t.st = 3) && decide (t.active < 8) then s.portDown p else s
/-- A lane word (log entry 50), naming a frame 256 after the one now sent (R337). -/
def State.laneWord (s : State) (p type lane : Nat) : W64 :=
  BitVec.ofNat 64 (type + lane * 16 + p * 2 ^ 11 + linear s.ownModule * 2 ^ 14 + ((s.port p).txCtr.toNat + 256) % 2 ^ 32 * 2 ^ 32)
def State.sendLane (s : State) (p type lane : Nat) : State := s.sendFrame p 1 0 8 (bytes64 [s.laneWord p type lane])
/-- Send an own request. -/
def State.laneAsk (s : State) (p : Nat) (r : Nat × Nat) : State :=
  (s.setPort p { s.port p with req := some r, again := none }).sendLane p r.2 r.1
/-- A request held back goes out again once no exchange runs. -/
def State.laneAgain (s : State) (p : Nat) : State :=
  let t := s.port p
  match t.again with
  | some r => if t.req.isNone && t.training.isNone && t.st = 3 then s.laneAsk p r else s
  | none => s
/-- Both ends deal their frames with the change from the named frames on (log entry 52). -/
def State.laneApply (s : State) (p lane type : Nat) (lead : Bool) : State :=
  let t := s.port p
  let v := match type with | 2 => 1 | 3 => 3 | _ => 2
  let tr := if type = 2 then some (lane, lead) else if type = 4 then none else t.training
  (((s.setPort p { t with lanes := tset 0 t.lanes lane v, training := tr,
                          corr := if type = 4 then tset 0 t.corr lane 0 else t.corr }).laneCheck p)).laneAgain p

/-- LANE_WORD_RECEIVE (R337, R338): an answer ends the own request; a request is acknowledged, or contested. -/
def State.laneWordIn (s : State) (p w : Nat) : State :=
  let t := s.port p
  let type := w % 16
  let lane := fld w 4 7
  if 96 ≤ lane then s
  else if 10 ≤ type then
    (if t.req = some (lane, type - 8) then (s.setPort p { t with req := none }).laneApply p lane (type - 8) true else s)
  else
    let own := linear s.ownModule * 8 + p
    let peer := fld w 14 14 * 8 + fld w 11 3
    match t.req with
    | some r =>
      if own < peer then s
      else if own = peer then s.setPort p { t with req := none, again := some r }
      else (((s.setPort p { t with req := none, again := some r }).sendLane p (type + 8) lane)).laneApply p lane type false
    | none => (s.sendLane p (type + 8) lane).laneApply p lane type false

/-- What a start for a lane asks: a drop by width while more lanes than the width in force are active (the highest first), the
return of one dropped by width, or a retrain (R336). -/
def TyPort.laneWant (t : TyPort) (lane : Nat) : Option Nat :=
  let st := tget 0 t.lanes lane
  let act := (List.range 96).filter (fun l => tget 0 t.lanes l = 2)
  let cut := (List.range 96).filter (fun l => tget 0 t.lanes l = 3)
  if st = 2 ∧ t.widthNow < t.active ∧ act.getLast? = some lane then some 3
  else if st = 3 ∧ t.active < t.widthNow ∧ cut.head? = some lane then some 4
  else if st = 2 then some 2
  else none
/-- LANE_RETRAIN_START (R336, R465): at most one lane is out; a retrain is a maintenance activity. -/
def State.laneStart (s : State) (p lane : Nat) : State :=
  let t := s.port p
  if t.st ≠ 3 ∨ t.req.isSome then s else
  match t.laneWant lane with
  | none => s
  | some 2 =>
    if t.training.isSome then s else
    let mine (m : Maint) : Bool := m.cls = 1 && m.tgt = p && m.lane = lane
    let s1 := if s.maint.any mine then s else s.maintOwn 1 (scopeOf 0 p lane) none
    if s1.maint.any (fun m => mine m && !m.deferred) then s1.laneAsk p (lane, 2) else s1
  | some k => s.laneAsk p (lane, k)
def execLaneRetrainStart (p lane : Nat) (s : State) : Res := onUnit (isTyPort p && decide (lane < 96)) (s.laneStart p lane)

/-- LANE_TRAIN_DONE (R337): a lane that passes is added by the leader's word; one that fails stays out. -/
def State.laneTrained (s : State) (p lane : Nat) (pass : Bool) : State :=
  let t := s.port p
  match t.training with
  | none => s
  | some (l, lead) =>
    if l ≠ lane then s
    else if pass then (if lead then s.laneAsk p (lane, 4) else s)
    else
      let s1 := (s.setPort p { t with lanes := tset 0 t.lanes lane 0, training := none }).portReport 0x6006#16 2 p lane
      (s1.laneCheck p).laneAgain p
def execLaneTrainDone (p lane : Nat) (pass : Bool) (s : State) : Res :=
  onUnit (isTyPort p && decide (lane < 96)) (s.laneTrained p lane pass)

/-- LANE_REQUEST_RETRY (R338). -/
def execLaneRequestRetry (p : Nat) (s : State) : Res := onUnit (isTyPort p) (s.laneAgain p)

/-- TY_CTL_WRITE (R336, R340): the target width holds at once, the flow-control mode changes under R319. -/
def tyCtlEff (p : Path) (q : Nat) (v : W64) : Eff := fun s =>
  (none, ((s.storeObj p 0x2501 (q + 1) v)).setPort q { s.port q with width := fld v.toNat 8 7 })
def execTyCtlWrite (p : Path) (q : Nat) (v : W64) (s : State) : Res :=
  onUnit (isPath p && isTyPort q) (s.writeAnswer p 0x2501 (q + 1) v (tyCtlEff p q v))

/-! Freeze requests (R375, R382) -/

/-- The named master freezes, unless it is frozen already; the request is acknowledged. -/
def State.freezeAsked (s : State) (src : Nat) (m : Master) (code : W16) : State :=
  let s1 := s.freeze m code 0
  s1.sendPkt .keeper { dst := src * 1024 + 1023, ptype := 10, clitics := [[BitVec.ofNat 64 (2 * 2 ^ 32)]], clWords := 1, clNext := 4 }
/-- FREEZE_REQUEST (R375): a service unit or the Keeper is not frozen. -/
def execFreezeRequest (src : Nat) (m : Master) (code : W16) (s : State) : Res := onUnit (isMaster m) (s.freezeAsked src m code)

/-! Frames (R330-R333) -/

/-- The clitics of a chain: each header's length is in its word 0; a chain ends at `NEXT` 0 (R322). -/
def splitClitics : Nat → List W64 → List (List W64)
  | 0, _ => []
  | _ + 1, [] => []
  | f + 1, w :: t =>
    let n := fld w.toNat 4 2 + 1
    (w :: t).take n :: (if w.toNat % 16 = 0 then [] else splitClitics f ((w :: t).drop n))
/-- The packet of a byte string (R320, R322). -/
def pktOf (bs : List Byte) : Pkt :=
  let h := leNat (bs.take 32)
  let cw := fld h 156 4
  let cl := words64 ((bs.drop 32).take (8 * cw))
  { dst := fld h 0 24, src := fld h 24 24, master := fld h 48 14, cls := fld h 62 2, ptype := fld h 64 5, vc := fld h 69 2
    epochLo := bit h 71, ctx := fld h 72 4, space := fld h 76 3, first := bit h 79, off := fld h 80 36, len := fld h 116 10
    opn := bit h 126, seq := fld h 128 16, inc := fld h 144 8, clNext := fld h 152 4, clWords := cw
    arrCtr := fld h 160 12, arrEn := bit h 172, arrAmt := fld h 176 16, reqId := fld h 192 16
    status := BitVec.ofNat 16 (fld h 208 16), e2e := BitVec.ofNat 32 (fld h 224 32)
    rsvd := bit h 127 || fld h 173 3 != 0
    clitics := if fld h 152 4 = 0 then [] else splitClitics 16 cl, payload := bs.drop (32 + 8 * cw) }

/-- A frame is discarded as a hop error (R333); the count of an authentication failure is kept for a second (100 MHz at SCLK). -/
def State.badFrame (s : State) (p : Nat) (tag : Bool) : State :=
  let t := s.port p
  let at1 := if tag then (t.badAt.filter (fun x => decide (s.ts.toNat < x.toNat + 100000000))) ++ [s.ts] else t.badAt
  let s1 := s.setPort p { t with bad := t.bad + 1, badAt := at1 }
  if 1024 < at1.length then
    ((s1.setPort p { s1.port p with badAt := [] }).portReport 0x6008#16 2 p 0).portDown p
  else s1

/-- An authenticated body: control words, a message of the link exchange, or a packet for the Rim switch. -/
def State.frameBody (s : State) (p : Nat) (h : Nat) (body : List Byte) : State :=
  let t := s.port p
  if bit h 0 then
    (words64 body).foldl (fun s w => if w.toNat % 16 = 1 then s.pauseWordIn p w.toNat
      else if [2, 3, 4, 10, 11, 12].contains (w.toNat % 16) then s.laneWordIn p w.toNat else s) s
  else
    let q := pktOf body
    match (if q.ptype = 10 then q.clitic 4 else none) with
    | some ws =>
      let kind := clWord0 ws / 2 ^ 32
      if 0x10 ≤ kind ∧ kind ≤ 0x13 then (if kind = 0x13 then s else s.kxWords p (kind - 0x0F) ws.tail)
      else if t.rxKey.isNone then s
      else { s with net := s.net ++ [⟨q, .source, some (p, 8)⟩] }
    | none =>
      if t.rxKey.isNone then s
      else
        let q1 := { q with vc := if fld h 2 4 % 2 = 1 then 3 else 2 }
        let fl : Flight := ⟨q1, .source, some (p, q1.chan)⟩
        State.pauseIfShort { s with net := s.net ++ [fl] } p q1.chan

/-- Open a frame with a key and the counter of its phase. -/
def frameOpen (k : LinkKey) (ctr : Nat) (head rest : List Byte) : Option (List Byte) := Config.gcmOpen k.key (frameNonce k ctr) head rest

/-- TY_FRAME_RECEIVE (R332, R333). Before the first key only plain frames of channel M with a tag of zero pass. -/
def State.frameIn (s : State) (p : Nat) (bs : List Byte) : State :=
  let t := s.port p
  let head := bs.take 8
  let rest := bs.drop 8
  let h := leNat head
  let n := fld h 8 10
  let fseq := fld h 32 32
  if t.st ≠ 2 ∧ t.st ≠ 3 then s
  else if bs.length ≠ n + 24 ∨ bit h 7 ∨ fld h 18 14 ≠ 0 ∨ 8 < fld h 2 4 ∨ (bit h 0 && !([8, 16, 24, 32].contains n)) then s.badFrame p false
  else
    -- the frame counter of the phase: the received value extends the expected one
    let step (c : W64) : Nat := (fseq + 2 ^ 32 - c.toNat % 2 ^ 32) % 2 ^ 32
    match t.rxKey with
    | none =>
      let plain := rest.drop n = List.replicate 16 0 && fld h 2 4 = 8 && !(bit h 0)
      let d := step t.rxCtr
      let s1 := s.setPort p { t with rxCtr := t.rxCtr + BitVec.ofNat 64 d + 1 }
      if !plain then s.badFrame p true else if d ≠ 0 then s1.badFrame p false else s1.frameBody p h (rest.take n)
    | some k =>
      if bit h 6 = t.rxKph then
        let d := step t.rxCtr
        let s1 := s.setPort p { t with rxCtr := t.rxCtr + BitVec.ofNat 64 d + 1 }
        if d ≠ 0 then s1.badFrame p false else
        match frameOpen k t.rxCtr.toNat head rest with
        | none => s1.badFrame p true
        | some body => s1.frameBody p h body
      else match t.nextRx with
        | some k2 =>
          (match frameOpen k2 fseq head rest with
           | none => s.badFrame p true
           | some body =>
             let t1 := { t with oldKey := some k, rxKey := some k2, nextRx := none, rxKph := !t.rxKph, rxCtr := BitVec.ofNat 64 fseq + 1 }
             let s1 := s.setPort p t1
             if fseq ≠ 0 then s1.badFrame p false else s1.frameBody p h body)
        | none =>
          -- a frame of the phase before, while its key is held
          match t.oldKey with
          | some k0 => (match frameOpen k0 fseq head rest with
             | none => s.badFrame p true
             | some body => s.frameBody p h body)
          | none => s.badFrame p true
def execTyFrameReceive (p : Nat) (bytes : List Byte) (s : State) : Res := onUnit (isTyPort p) (s.frameIn p bytes)

end Sys2Proof.Machine
end

