-- ==== Sys2Proof/Machine/Rings.lean ====
section
/-! DEFINITION. Rings of the host functions: their records and doorbells (R344-R346), completion entries (R349), event entries
(R350), and the loss of a host-link port (R343, R523). -/

namespace Sys2Proof.Machine

open Sys2Proof

/-! Fields of the record (R345) -/

def Ring.cfgN (r : Ring) : Nat := r.cfg.toNat
def Ring.sqSize (r : Ring) : Nat := 2 ^ fld r.cfgN 0 4
def Ring.cqSize (r : Ring) : Nat := 2 ^ fld r.cfgN 4 4
def Ring.vector (r : Ring) : Nat := fld r.cfgN 8 11
def Ring.port (r : Ring) : Nat := fld r.cfgN 19 1
/-- The context of a host function; none: the operator's (R344). -/
def fnCtx (f : Nat) : Option Nat := if f < 1024 then some (f / 64) else none
/-- A host-link port carries requests and data (R342, R366). -/
def State.hlCarries (s : State) (p : Nat) : Bool := s.boot.fw && (s.hlp p).st = 2 && (!(s.hlp p).ideReq || (s.hlp p).ideOn)

/-- `VECTOR` lies in the owner's range (R344). -/
def vectorOk (f v : Nat) : Bool :=
  match fnCtx f with
  | some n => decide (120 * n ≤ v ∧ v < 120 * n + 120)
  | none => decide (1920 ≤ v ∧ v < 2048)

/-- A write of word `w` of a record (R345): stored, or refused with `CFG_ERR`. -/
def State.ringConfig (s : State) (f w : Nat) (v : W64) : State :=
  let r := s.ring f
  let refuse := s.setRing f { r with cfgErr := true }
  let en := r.en
  if w = 3 then s
  else if w < 2 then
    (if en && v != (if w = 0 then r.sqBase else r.cqBase) then refuse
     else s.setRing f (if w = 0 then { r with sqBase := v, cfgErr := false } else { r with cqBase := v, cfgErr := false }))
  else
    let n := v.toNat % 2 ^ 22
    let exists_ := match fnCtx f with | some k => (s.ctx k).st != 0 | none => true
    if v.toNat / 2 ^ 23 ≠ 0 ∨ fld n 0 4 = 0 ∨ fld n 4 4 = 0 ∨ !(vectorOk f (fld n 8 11)) ∨ (bit n 21 && !exists_)
        ∨ (en && n % 2 ^ 21 != r.cfgN % 2 ^ 21) then refuse
    else
      let r1 := { r with cfg := BitVec.ofNat 64 n, cfgErr := false }
      s.setRing f (if bit n 21 && !en then { r1 with sqHead := 0, cqTail := 0, sqTail := 0, cqHead := 0 } else r1)
/-- RING_CONFIG_WRITE (R345); records of reserved functions are not kept (R344). -/
def execRingConfigWrite (f w : Nat) (v : W64) (s : State) : Res :=
  onUnit (decide (f < 2048 ∧ w < 4)) (if 1088 ≤ f then s else if s.boot.fw then s.ringConfig f w v else s)

/-- SQ_TAIL_DOORBELL (R346): a frozen function ignores it (R376). -/
def State.sqDoorbell (s : State) (f : Nat) (v : W32) : State :=
  let r := s.ring f
  if !r.en ∨ r.frozen then s
  else if r.sqSize < (v - r.sqHead).toNat ∨ 2 ^ 31 ≤ (v - r.sqTail).toNat then s.event (fnCtx f) 0xC003#16 0 (masterField (.host f)) 0
  else s.setRing f { r with sqTail := v }
def execSqTailDoorbell (f : Nat) (v : W32) (s : State) : Res :=
  onUnit (decide (f < 2048)) (if 1088 ≤ f then s else s.sqDoorbell f v)
/-- CQ_HEAD_DOORBELL (R346). -/
def State.cqDoorbell (s : State) (f : Nat) (v : W32) : State :=
  let r := s.ring f
  if !r.en ∨ r.frozen then s else s.setRing f { r with cqHead := v }
def execCqHeadDoorbell (f : Nat) (v : W32) (s : State) : Res :=
  onUnit (decide (f < 2048)) (if 1088 ≤ f then s else s.cqDoorbell f v)

/-! Entries of a completion ring (R349) -/

/-- The completion ring has room (R346). -/
def Ring.cqRoom (r : Ring) : Bool := decide ((r.cqTail - r.cqHead).toNat < r.cqSize)
/-- Write an entry: word 0 without its phase, then three words; the interrupt follows where it is enabled. -/
def State.cqWrite (s : State) (f : Nat) (w0 : Nat) (w1 w2 w3 : W64) : State :=
  let r := s.ring f
  let i := r.cqTail.toNat
  let phase := if i / r.cqSize % 2 = 0 then 1 else 0
  let a := r.cqBase + BitVec.ofNat 64 (32 * (i % r.cqSize))
  let s1 := (s.setRing f { r with cqTail := r.cqTail + 1 }).out (.hostWrite r.port a (bytes64 [BitVec.ofNat 64 (w0 / 2 * 2 + phase), w1, w2, w3]))
  if bit r.cfgN 20 then s1.out (.irq r.port r.vector) else s1

/-! Events (R350) -/

/-- Write an event entry to ring `f`, or count it as lost. -/
def State.eventWrite (s : State) (f : Nat) (e : Event) : State :=
  let r := s.ring f
  if !r.en then s
  else if !r.cqRoom || !(s.hlCarries r.port) then s.setRing f { r with lost := min 65535 (r.lost + 1) }
  else
    let n := fnCtx f
    let evc := match n, e.ctx with | none, some k => k * 8 + 128 | _, _ => 0
    let w0 := 6 + evc + e.code.toNat * 2 ^ 16 + e.master % 2 ^ 14 * 2 ^ 32 + s.virtComb n e.comb % 1024 * 2 ^ 48
    let res := if n.isNone && e.ctx.isSome then 0 else e.result
    let s1 := s.setRing f { r with lost := 0 }
    s1.cqWrite f w0 e.epoch res (BitVec.ofNat 64 r.lost)
/-- An event goes to ring 0 of its context and to operator ring 0. -/
def State.eventOut (s : State) (e : Event) : State :=
  let s1 := match e.ctx with | some n => s.eventWrite (64 * n) e | none => s
  s1.eventWrite 1024 e
/-- EVENT_POST (R350): the oldest event. -/
def State.eventPost (s : State) : State :=
  match s.events with
  | [] => s
  | e :: t => { s with events := t }.eventOut e
def execEventPost (s : State) : Res := .next s.eventPost
/-- Every event that waits is written, before the rings it names are disabled. -/
def State.eventFlush (s : State) : State := s.events.foldl (fun s e => s.eventOut e) { s with events := [] }

/-! Host commands (R347, R349) -/

def HCmd.w0 (h : HCmd) : Nat := (lget 0 h.words 0).toNat
def HCmd.op (h : HCmd) : Nat := fld h.w0 0 8
def HCmd.ordered (h : HCmd) : Bool := bit h.w0 8
def HCmd.noCqe (h : HCmd) : Bool := bit h.w0 9
def HCmd.tag (h : HCmd) : Nat := fld h.w0 16 16
def HCmd.cls (h : HCmd) : Nat := fld h.w0 32 2
def HCmd.arg (h : HCmd) (i : Nat) : W64 := lget 0 h.words (1 + i)
/-- Length of a copy. -/
def HCmd.len (h : HCmd) : Nat := fld (h.arg 2).toNat 0 32
def HCmd.isCopy (h : HCmd) : Bool := h.op = 1 || h.op = 2
/-- How much of the command has to be issued: the bytes of a copy, the one packet of a message, add or watch. -/
def HCmd.goal (h : HCmd) : Nat := if h.isCopy then h.len else if 3 ≤ h.op ∧ h.op ≤ 5 then 1 else 0
/-- Nothing of the command is left to do. -/
def HCmd.finished (h : HCmd) : Bool :=
  h.outst.isEmpty && (h.status.isSome || (!h.hold && h.watch.isNone && h.done = h.goal))
/-- Commands of a ring in their order, changed at the first that satisfies `p`. -/
def Ring.setCmd (r : Ring) (i : Nat) (h : HCmd) : Ring := { r with cmds := lset r.cmds i h }

/-- Every packet that a master of the context issued has been performed or has returned an error (R352). -/
def State.ctxQuiet (s : State) (n : Nat) : Bool :=
  !(s.tx.any (fun t => !t.unperf.isEmpty && s.masterCtx t.who = some n && (match t.who with | .host _ => false | _ => true)))
  && (s.ctx n).combs.all (fun c =>
    let a := s.areaOf n c
    a.ops.isEmpty && !((s.comb c).ctrOps.any (fun o => o.ctx = n && o.who.isSome))
      && !(a.workers.any (fun w => w.2.slots.any (fun x => !x.2.outst.isEmpty || !x.2.pend.isEmpty))))

/-! The loss of a port (R343, R362) -/

/-- A command whose host traffic is on its way over the port ends with 0xC002; nothing more of it is issued. -/
def HCmd.portLost (h : HCmd) : HCmd :=
  if h.isCopy && h.status.isNone && !h.finished then
    { h with status := some (if h.done = 0 then 1 else 2, 0xC002#16), buf := [] }
  else h
/-- HL_PORT_DOWN (R343): IDE keys are erased (R362). -/
def State.hlDown (s : State) (p : Nat) : State :=
  let h := s.hlp p
  let s1 := s.setHlp p { h with st := 0, rate := 0, lanes := 0, ideKeys := [], ideOn := false }
  let s2 := { s1 with spdm := s1.spdm.filter (fun e => e.1 != p) }
  let s3 := { s2 with rings := s2.rings.map (fun e => (e.1, if e.2.port = p then { e.2 with cmds := e.2.cmds.map HCmd.portLost } else e.2)) }
  if h.st = 2 ∨ h.st = 3 then s3.report ⟨0xC002#16, 2, none, 6, 0, p, 0, 0, 0⟩ else s3
def execHlPortDown (p : Nat) (s : State) : Res := onUnit (isHl p) (s.hlDown p)
/-- PERST_ASSERT (R523): the link goes down and the controller resets. -/
def execPerstAssert (p : Nat) (s : State) : Res :=
  onUnit (isHl p)
    (let s1 := s.hlDown p
     let h := s1.hlp p
     s1.setHlp p { h with perst := true, dwSel := 0, dwLen := 0, dwOff := 0, dwStat := 0, dwBuf := [], dwStage := [], dwParts := [] })
/-- PERST_RELEASE (R523): link training begins. -/
def execPerstRelease (p : Nat) (s : State) : Res :=
  onUnit (isHl p) (if (s.hlp p).perst then s.setHlp p { s.hlp p with perst := false, st := 1 } else s)
/-- HL_LINK_TRAINED (R342, R366, R446): the port comes up with `IDE_REQ` and `PCIE_REF_SRC` as they are now; one whose partner
lacks Flit mode carries no traffic. -/
def State.hlTrained (s : State) (p rate lanes : Nat) (flit : Bool) : State :=
  let h := s.hlp p
  if h.perst then s else
  let s1 := s.setHlp p { h with st := if flit then 2 else 3, rate := rate % 6, lanes := lanes % 32,
                                ideReq := bit (s.obj 0 0x2810 1 0) 0, refSrc := s.obj 0 0x2300 9 0 = 1 }
  if flit then s1 else s1.report ⟨0xC001#16, 2, none, 6, 0, p, 0, 0, 0⟩
def execHlLinkTrained (p rate lanes : Nat) (flit : Bool) (s : State) : Res :=
  onUnit (isHl p && decide (rate < 6) && [1, 2, 4, 8, 16].contains lanes) (s.hlTrained p rate lanes flit)

end Sys2Proof.Machine
end

