-- ==== Sys2Proof/Machine/Reliability.lean ====
section
/-! DEFINITION. The error log and its counters (R406-R409), EMCY entries (R483), CPER records (R410-R412), failures of a Comb
(R413-R415), pattern bundles (R403-R405). -/

namespace Sys2Proof.Machine

open Sys2Proof

/-! The error log -/

/-- Codes that cause Floor, Trip or a lockout, and so go to operator ring 0 (R448). -/
def powerEvent (c : W16) : Bool :=
  [0x9001#16, 0x9002#16, 0x9004#16, 0x9005#16, 0x9006#16, 0x9007#16, 0x9008#16, 0xA005#16].contains c
/-- Reports of one source (R408). -/
def sameSource (a b : Report) : Bool := a.code = b.code && a.unit = b.unit && a.comb = b.comb && a.sub = b.sub && a.ctx = b.ctx
/-- An EMCY frame waits in the queue of 32: fault code, Comb field, entry number, `SEV` (R483). -/
def State.emcyAdd (s : State) (r : Report) (entry : Nat) : State :=
  if 32 ≤ s.mgmt.emcy.length then s
  else { s with mgmt := { s.mgmt with emcy := s.mgmt.emcy ++ [(r.code, if r.comb < 480 then combField r.comb else 0, entry, r.sev)] } }
/-- Kinds of report that have a CPER record of their own. -/
def ownCper (c : W16) : Bool := [0x7001#16, 0x7003#16, 0xB006#16, 0xB009#16, 0xB00A#16, 0x9004#16].contains c
/-- Count an event since power-on (R417). -/
def State.relCount (s : State) (r : Report) : State :=
  if r.sev = 1 then s.incObj 0x2900 7 64 1 else if r.sev = 0 || r.code = 0xB00A#16 then s.incObj 0x2900 8 64 1 else s
/-- ELOG_INTAKE (R408): the oldest report is coalesced, or takes the next entry. -/
def State.elogIntake (s : State) : State :=
  match s.intake with
  | [] => s
  | r :: t =>
    let s0 := { s with intake := t }.relCount r
    match lfind (fun e => sameSource e.rep r) s0.elog with
    | some i =>
      match s0.elog[i]? with
      | none => s0
      | some e =>
        let c := if e.count = 0xFFFFFFFF#32 then e.count else e.count + 1
        let s1 := { s0 with elog := lset s0.elog i { e with count := c, last := s.ts } }
        if powerEvent r.code then s1.emcyAdd r i else s1
    | none =>
      if 4096 ≤ s0.elog.length then s0.incObj 0x2900 2 32 1
      else
        let i := s0.elog.length
        let s1 := { s0 with elog := s0.elog ++ [⟨r, 1, s.ts, s.ts⟩] }
        let s2 := if r.sev = 1 || powerEvent r.code then s1.emcyAdd r i else s1
        let s3 := if r.sev = 1 && !(ownCper r.code) then s2.cperAdd r 2 0 0 false else s2
        if (s3.pinOf 6).func = 5 && !(s3.pinOf 6).parked then s3.out (.uart r.code) else s3
def execElogIntake (s : State) : Res := .next s.elogIntake
/-- ERROR_REPORT (R406). -/
def execErrorReport (r : Report) (s : State) : Res := onUnit (decide (r.comb < 480)) (s.report r)

/-- The effect of a write of `ELOG_CLEAR` (R409): the ring is emptied and the counters of R406 and R408 are zero. -/
def elogClearEff : Eff := Eff.ok (fun s => (({ s with elog := [] }).setObj 0 0x2900 2 0).setObj 0 0x2900 3 0)
/-- ELOG_CLEAR (R409). -/
def execElogClear (p : Path) (v : W64) (s : State) : Res := onUnit (isPath p) (s.writeAnswer p 0x2900 6 v elogClearEff)

/-- The 64 bytes of an entry (R407). -/
def elogBytes (e : ELog) : List Byte :=
  let r := e.rep
  leBytes 64 (r.code.toNat + r.sev % 4 * 2 ^ 16 + (match r.ctx with | some n => n % 16 * 2 ^ 18 + 2 ^ 22 | none => 0)
    + r.unit % 256 * 2 ^ 24 + (if r.comb < 480 then combField r.comb else 0) * 2 ^ 32 + r.sub % 2 ^ 14 * 2 ^ 42 + e.count.toNat * 2 ^ 64
    + e.first.toNat * 2 ^ 128 + e.last.toNat * 2 ^ 192 + r.epoch.toNat * 2 ^ 256 + r.addr.toNat * 2 ^ 320 + r.detail.toNat * 2 ^ 384)

/-! CPER records (R411, R412): the fields of UEFI 2.10 Appendix N that R411 lists; all others zero -/

def ascii (t : String) : List Byte := t.toList.map (fun c => BitVec.ofNat 8 c.toNat)
/-- Boot Error Record and PCI Express Error Notification types (UEFI 2.10, Appendix N; log entry 53). -/
def bootNotify : List Byte := [0x66, 0xA4, 0x61, 0x3D, 0xAB, 0x40, 0x9A, 0x40, 0xA6, 0x98, 0xF3, 0x62, 0xD4, 0x64, 0xB3, 0x8F]
def pcieNotify : List Byte := [0x1F, 0xC0, 0x93, 0xCF, 0x16, 0x1A, 0xFC, 0x4D, 0xB8, 0xBC, 0x9C, 0x4D, 0xAF, 0x67, 0xC1, 0x04]
def decimal (n : Nat) : List Byte := if n < 10 then [BitVec.ofNat 8 (48 + n)] else [BitVec.ofNat 8 (48 + n / 10 % 10), BitVec.ofNat 8 (48 + n % 10)]
/-- Header of 128 bytes, section descriptor of 72, vendor section of 80. -/
def cperBytes (r : Cper) : List Byte :=
  let guid := lfit 0 16 Config.cperGuid
  let head := ascii "CPER" ++ leBytes 2 0x0101 ++ leBytes 4 0xFFFFFFFF ++ leBytes 2 1 ++ leBytes 4 r.sev ++ leBytes 4 3 ++ leBytes 4 0
    ++ leBytes 8 (Config.rtc r.stamp).toNat ++ leBytes 16 Config.dsn.toNat ++ leBytes 16 0 ++ guid
    ++ (if r.boot then bootNotify else pcieNotify) ++ leBytes 8 r.id ++ leBytes 4 0 ++ leBytes 8 0 ++ leBytes 12 0
  let c := r.entry.rep.comb
  let fru := lfit 0 20 (ascii "BRW-4060 Comb " ++ decimal (cxOf c) ++ ascii "," ++ decimal (cyOf c))
  let desc := leBytes 16 0 ++ guid ++ leBytes 16 0 ++ leBytes 4 0 ++ fru
  head ++ desc ++ elogBytes r.entry
    ++ leBytes 16 (r.frame % 256 + r.phase % 4 * 256 + r.action % 8 * 1024 + r.spares.toNat * 2 ^ 64)
/-- Read the oldest record and remove it (R410). -/
def cperRd : Rd := fun s =>
  match s.cper with
  | [] => (.ok (.bytes []), s)
  | r :: t => (.ok (.bytes (cperBytes r)), { s with cper := t })
/-- CPER_NEXT_READ (R410). -/
def execCperNextRead (p : Path) (s : State) : Res := onUnit (isPath p) (s.readAnswer p 0x2920 2 cperRd)

/-! Failure of a Comb (R413-R415) -/

/-- COMB_HEARTBEAT (R413): a fatal report declares the Comb failed at once. -/
def execCombHeartbeat (c : Nat) (fatal : Bool) (s : State) : Res :=
  onUnit (isComb c)
    (let m := s.comb c
     if fatal then s.setComb c { m with misses := 4 } else if m.misses < 4 then s.setComb c { m with misses := 0 } else s)
/-- HEARTBEAT_MISS (R413). -/
def execHeartbeatMiss (c : Nat) (s : State) : Res :=
  onUnit (isComb c) (s.setComb c { s.comb c with misses := (s.comb c).misses + 1 })

/-- The contexts that a failure of the Comb affects: its resident one, and both of a switch under way (R415). -/
def State.failedOwners (s : State) (c : Nat) : List Nat :=
  (List.range 16).filter (fun n => s.owns n c && ((s.ctx n).resident || (s.ctx n).moving != 0))
/-- The rails of a Frame are on. -/
def State.frameOn (s : State) (f : Nat) : Bool := (s.conv (8 + f)).st = 2 && (s.conv (56 + f)).st = 2
/-- Steps 1 and 2 of R414: the Comb is fenced, its owners learn of it, their fences fail, activities over its Frame end. -/
def State.combFails (s : State) (c : Nat) : State :=
  let m := s.comb c
  if m.lost ∨ m.failing then s else
  let own := s.failedOwners c
  let spare := s.spareFree (frameOf c) && s.frameOn (frameOf c)
  let s1 := ((s.setComb c { m with failing := true }).loseSegments c).report
    ⟨0xB009#16, if own.isEmpty then 2 else 1, s.residentAt c, 0, c, 0, s.faultEpoch (s.residentAt c), 0, 0⟩
  let res : W64 := if spare then 1 else 0
  let s2 := if own.isEmpty then s1.event none 0xB009#16 c (masterField (.service c)) res
    else own.foldl (fun s n => (s.event (some n) 0xB009#16 c (masterField (.service c)) res).failAll n 0xB009#16) s1
  s2.maintAbort c
/-- COMB_FAIL (R414): the Keeper has declared the Comb failed. -/
def execCombFail (c : Nat) (s : State) : Res := onUnit (isComb c) (if 4 ≤ (s.comb c).misses then s.combFails c else s)

/-- What the Comb itself held is gone (R279, R415): the owner's area, its traffic and counters; its region stays. -/
def State.combZero (s : State) (c : Nat) : State :=
  let own := s.failedOwners c
  let m := s.comb c
  let m1 := (own.foldl (fun m n => m.dropTraffic n) m).poisonWatches none
  s.setComb c { m1 with live := { eng := { pairCtl := m.live.eng.pairCtl } }, engDead := false, misses := 0, failing := false }
/-- The Comb is marked lost (R24); every other member of the time-slice group learns of it (R415). -/
def State.combLost (s : State) (c : Nat) (phase : Nat) (boot : Bool) : State :=
  let others := (List.range 16).filter (fun n => s.owns n c && !(s.failedOwners c).contains n)
  let s1 := s.combZero c
  let s2 := s1.setComb c { s1.comb c with lost := true }
  let s3 := others.foldl (fun s n => s.event (some n) 0xB009#16 c (masterField (.service c)) 0) s2
  s3.cperAdd ⟨0xB009#16, 2, none, 0, c, 0, 0, 0, 0⟩ phase 4 1 boot
/-- COMB_SPARE_JOIN_DONE (R414, steps 3 and 4): the spare takes the Comb's place with zero state, or the Comb is lost. The owner's
packets are refused until its next launch. -/
def State.spareJoin (s : State) (c : Nat) : State :=
  if !(s.comb c).failing then s else
  let f := frameOf c
  if s.spareFree f && s.frameOn f then
    let own := s.failedOwners c
    let s1 := s.combZero c
    let s2 := (s1.setComb c { s1.comb c with refusing := !own.isEmpty }).setFrame f { s1.frame f with combFor := some (slotOf c) }
    s2.cperAdd ⟨0xB009#16, if own.isEmpty then 0 else 1, s.residentAt c, 0, c, 0, s.faultEpoch (s.residentAt c), 0, 0⟩ 2 2
      (if own.isEmpty then 2 else 0) false
  else s.combLost c 2 false
def execCombSpareJoinDone (c : Nat) (s : State) : Res := onUnit (isComb c) (s.spareJoin c)

/-! Pattern bundles (R403-R405) -/

/-- The effect of a write of `PB_IMAGE` (R403): at most 16 MiB. -/
def pbImageEff (img : List Byte) : Eff := fun s =>
  if 16777216 < img.length then (some badLength, s)
  else if !(Config.vendorSigned img) then (some (ownCode 0x8006), s)
  else if (Config.bundleVersion img).toNat < s.obj 0 0x2910 2 0 then (some (ownCode 0xB007), s)
  else (none, (s.setDom 0 0x2910 1 img).setObj 0 0x2910 2 (Config.bundleVersion img).toNat)
/-- PB_IMAGE_WRITE (R403). -/
def execPbImageWrite (p : Path) (img : List Byte) (s : State) : Res := onUnit (isPath p) (s.domAnswer p 0x2910 1 (pbImageEff img))

/-- `PB_STATUS` as a value (R418). -/
def pbStatus (st code : Nat) : Nat := st + code * 65536
/-- The effect of a write of `PB_RUN` (R404). -/
def pbRunEff (v : W64) : Eff := fun s =>
  let w := v.toNat
  let cs := rectCombs w
  if 40 ≤ fld w 0 6 + fld w 10 6 ∨ 12 ≤ fld w 6 4 + fld w 16 4 then (some badValue, s)
  else match cs.find? (fun c => s.ownedByAny c || (List.range 80).any (fun g => s.heldGranule c g)) with
  | some c => (some { ownCode 0xB008 with comb := some c }, s.setObj 0 0x2910 4 (pbStatus 3 0xB008))
  | none =>
    match s.maintAsk { ticket := 0, cls := 2, deferred := false, scope := w % 2 ^ 21 } with
    | (none, s1) => (some badState, (s1.setObj 0 0x2910 4 (pbStatus 3 0xC00E)).maintResult s1.ticket 2 0xC00E)
    | (some e, s1) => (none, (s1.setObj 0 0x2910 4 0).maintResult e.ticket (b2n e.deferred) 0)
/-- PB_RUN (R404). -/
def execPbRun (p : Path) (v : W64) (s : State) : Res := onUnit (isPath p) (s.writeAnswer p 0x2910 3 v (pbRunEff v))

/-- A Comb of nobody enters Fallback, or is lost, or a spare remap of it starts (R405). -/
def State.defectActs (s : State) (d : Defect) : State :=
  let r : Report := ⟨0xB006#16, 2, none, 10, d.comb, 0, 0, 0, 0⟩
  let f := frameOf d.comb
  match d.kind with
  | .engine =>
    let m := s.comb d.comb
    (((s.report r).setComb d.comb { m with engDead := true, live := { m.live with eng := { m.live.eng with fallback := true } } })).cperAdd r 1 1 3 false
  | .comb =>
    if s.spareFree f then ((s.report r).cperAdd r 1 0 3 false).maintOwn 4 (scopeOf d.comb 0 0) none
    else (s.report r).combLost d.comb 1 false
  | .region =>
    if s.regionFree f then ((s.report r).cperAdd r 1 0 3 false).maintOwn 4 (scopeOf d.comb 6 0) none
    else (s.report r).combLost d.comb 1 false
/-- PB_RUN_DONE (R405): the running bundle ends; with `PB_MW` the last pattern leaves the regions zero (R455). -/
def State.pbDone (s : State) (ds : List Defect) : State :=
  match s.maint.find? (fun e => e.cls = 2 && !e.deferred) with
  | none => s
  | some e =>
    let inRect := ds.filter (fun d => e.combs.contains d.comb)
    let s1 := (s.maintEnd e.ticket).maintResult e.ticket 3 0
    let s2 := (s1.setObj 0 0x2910 4 (pbStatus 2 0)).setObj 0 0x2910 5 inRect.length
    let s3 := if bit e.scope 20 then e.combs.foldl (fun s c => s.setComb c { s.comb c with mw := { (s.comb c).mw with mem := {} } }) s2 else s2
    let whole := (List.range 48).filter (fun f => (List.range 10).all (fun k => e.combs.contains (combAt f k)) && inRect.all (fun d => frameOf d.comb != f))
    let s4 := whole.foldl (fun s f => s.setFrame f { s.frame f with pbPass := true }) s3
    inRect.foldl (fun s d => s.defectActs d) s4
def execPbRunDone (ds : List Defect) (s : State) : Res := onUnit (ds.all (fun d => isComb d.comb)) (s.pbDone ds)

end Sys2Proof.Machine
end

