-- ==== Sys2Proof/Machine/Power.lean ====
section
/-! DEFINITION. Power, cooling and clocks: input and converters (R420-R423), Trip and its end (R424, R425), the governor (R426-R432,
R436), temperature, coolant and voltage (R433-R435), energy (R437), the references and the switch between them (R443-R446). -/

namespace Sys2Proof.Machine

open Sys2Proof

/-- A report of a power unit (8) or a clock (9): `SEV` 2, `SUB` the stage or Frame (R407, R448). -/
def State.powerReport (s : State) (code : W16) (unit sub : Nat) : State := s.report ⟨code, 2, none, unit, 0, sub, 0, 0, 0⟩

/-! Clock gating (R509) -/

/-- Key of a compute unit: its kind and index as in `PC_SEL` (R500). -/
def gateKey (kind ix : Nat) : Nat := kind * 8192 + ix
/-- A unit gates its clock. -/
def State.gateUnit (s : State) (c kind ix : Nat) : State :=
  let a := s.area c
  match tget none a.gated (gateKey kind ix) with
  | some _ => s
  | none => (s.setArea c { a with gated := tput a.gated (gateKey kind ix) (some s.ts) }).trace c 1 kind ix 0
/-- A unit wakes: its record tells how long it was gated. -/
def State.wakeUnit (s : State) (c kind ix : Nat) : State :=
  let a := s.area c
  match tget none a.gated (gateKey kind ix) with
  | none => s
  | some t => (s.setArea c { a with gated := tdel a.gated (gateKey kind ix) }).trace c 2 kind ix (min (s.ts - t).toNat (2 ^ 32 - 1))
/-- The compute units of a Comb, by kind and index: slots, generators, the Engine, Foragers. -/
def computeUnits : List (Nat × Nat) :=
  ((List.range 640).flatMap (fun k => if isStore k then (List.range 2).map (fun g => (1, 2 * k + g)) else (List.range 4).map (fun i => (0, 5 * k + i))))
  ++ [(3, 0)] ++ (List.range 4).map (fun f => (4, f))
/-- A record of every compute unit not gated, on every Comb that traces its kind. -/
def State.traceUngated (s : State) (kind arg : Nat) : State :=
  (List.range 480).foldl (fun s c =>
    match s.residentAt c with
    | none => s
    | some n =>
      if bit (s.obj (n + 1) 0x2B00 1 0) 43 && bit (s.obj (n + 1) 0x2B00 1 0) (48 + kind) then
        (computeUnits.filter (fun u => (tget none (s.area c).gated (gateKey u.1 u.2)).isNone)).foldl (fun s u => s.trace c kind u.1 u.2 arg) s
      else s) s

/-! Floor (R429-R431) -/

/-- Engine clocks are gated and duty falls to nothing, but for Combs in Fallback. -/
def State.floorGate (s : State) : State :=
  s.combs.foldl (fun s (e : Nat × Comb) =>
    if e.2.live.eng.fallback then s else (s.setComb e.1 { s.comb e.1 with duty := 0 }).gateUnit e.1 3 0) s
/-- Engines with a Clause under way wake. -/
def State.floorUngate (s : State) : State :=
  s.combs.foldl (fun s (e : Nat × Comb) => if e.2.live.eng.active.isSome then s.wakeUnit e.1 3 0 else s) s
/-- A cause of Floor is in force: in Run it is entered, with an event to operator ring 0; each cause's code is logged when it comes
into force. Causes: 0 alert, 1 cap, 2 thermal, 3 coolant, 4 input. -/
def State.floorCause (s : State) (b : Nat) (code : Option W16) : State :=
  if bit s.power.causes b ∨ s.pwrState = 0 ∨ s.pwrState = 4 then s else
  let d : W16 × State := match code with
    | some c => (c, s.powerReport c 8 b)
    -- the cap's Floor has no code of its own (log entry 54)
    | none => (s.draw.1.setWidth 16, s.draw.2)
  let s1 : State := { d.2 with power := { d.2.power with causes := d.2.power.causes + 2 ^ b } }
  if s1.pwrState = 2 then
    ((({ s1 with power := { s1.power with floorCode := d.1 } }).setObj 0 0x2100 8 3).floorGate).event none d.1 0 0 0
  else if s1.pwrState = 3 ∧ code.isSome then s1.event none d.1 0 0 0
  else s1
/-- A cause is no longer in force; Floor is held until FLOOR_EXIT. -/
def State.floorClear (s : State) (b : Nat) : State :=
  { s with power := { s.power with causes := if bit s.power.causes b then s.power.causes - 2 ^ b else s.power.causes } }
/-- FLOOR_EXIT (R431): no cause has been in force for `ALERT_HOLD`. -/
def State.floorExit (s : State) : State :=
  if s.pwrState = 3 ∧ s.power.causes = 0 then
    (((s.setObj 0 0x2100 8 2).floorUngate).event none s.power.floorCode 0 0 0)
  else s
def execFloorExit (s : State) : Res := .next s.floorExit

/-- Alerts in force: the pin, or some intermediate-bus converter (R429). -/
def State.alerts (s : State) : Bool := s.power.alertPin || (List.range 8).any (fun k => (s.conv k).alert)
def State.alertSettle (s : State) : State := if s.alerts then s.floorCause 0 (some 0x9008#16) else s.floorClear 0
/-- PWR_ALERT_PIN (R429): shorter pulses than 1 us are ignored. -/
def execPwrAlertPin (ns : Nat) (s : State) : Res :=
  .next (State.alertSettle { s with power := { s.power with alertLow := decide (0 < ns), alertPin := decide (1000 ≤ ns) } })
/-- IBC_ALERT (R429). -/
def execIbcAlert (k : Nat) (on : Bool) (s : State) : Res :=
  onUnit (decide (k < 8)) ((s.setConv k { s.conv k with alert := on }).alertSettle)

/-! Trip (R424, R425) -/

/-- Codes of a Trip's causes. -/
def tripCodes : List W16 := [0x9001#16, 0x9002#16, 0x9003#16, 0x9004#16, 0x9006#16, 0xA005#16]
/-- Intermediate-bus converters that are on or ramping; and whether the Rim has a supply. -/
def State.ibcs (s : State) : Nat := ((List.range 8).filter (fun k => (s.conv k).st = 1 || (s.conv k).st = 2)).length
def State.rimOn (s : State) : Bool := [104, 105].any (fun k => (s.conv k).st = 1 || (s.conv k).st = 2)
/-- A Comb without power: what the module keeps of it. -/
def Comb.unpowered (m : Comb) : Comb := { lost := m.lost, engDead := m.engDead }
/-- A stage is switched off; a lockout stays. -/
def Conv.off (v : Conv) : Conv := if v.st = 3 then v else { v with st := 0, alert := false, latched := false }
def State.convsOff (s : State) (ks : List Nat) : State := ks.foldl (fun s k => s.setConv k (s.conv k).off) s
/-- Stages of VCORE, VMEM and VOPT. -/
def frameStages : List Nat := (List.range 96).map (· + 8)
def optStages : List Nat := (List.range 6).map (· + 106)
/-- Every Frame loses its power: contents, packets and activities over the Frames are gone. -/
def State.framesOff (s : State) : State :=
  let tx := s.tx.filter (fun t => t.src = 480)
  { (s.convsOff frameStages) with
    combs := s.combs.map (fun (e : Nat × Comb) => (e.1, e.2.unpowered))
    frames := s.frames.map (fun (e : Nat × Frame) => (e.1, { e.2 with duty := 16, vcore := 0, copyTo := none }))
    net := [], tx := tx, rx := s.rx.filter (fun r => r.comb = 480)
    maint := s.maint.filter (fun m => m.cls = 3) }
/-- Trip is entered: rails off, every context destroyed, its rings and operator ring 0 told. -/
def State.tripNow (s : State) (code : W16) : State :=
  if s.pwrState = 0 then s else
  let s0 := { s with power := { s.power with tripCauses := if s.power.tripCauses.contains code then s.power.tripCauses else s.power.tripCauses ++ [code] } }
  if s.pwrState = 4 then s0 else
  let any := (List.range 16).any (fun n => (s.ctx n).st != 0)
  let s1 := (s0.report ⟨code, if any then 1 else 2, none, 8, 0, 0, 0, 0, 0⟩).event none code 0 0 0
  let s2 := (s1.destroyAll code)
  let s3 := (if s2.rimOn then s2 else (s2.hlDown 0).hlDown 1).eventFlush
  let s4 := s3.destroyAllEnd.framesOff
  let s5 := (List.range 6).foldl (fun s p => if (s.port p).st = 4 then s else s.portDown p) (s4.convsOff optStages)
  State.setObj { s5 with power := { s5.power with causes := 0, floorCode := 0, stuck := 0, hot := [], memThr := false, compDuty := 16 } } 0 0x2100 8 4
/-- TRIP (R425), with the code of its cause. -/
def execTrip (code : W16) (s : State) : Res := .next (if tripCodes.contains code then s.tripNow code else s)
/-- A cause of Trip has cleared. -/
def State.tripClear (s : State) (code : W16) : State := { s with power := { s.power with tripCauses := s.power.tripCauses.filter (· != code) } }

/-! Every start (R457, R477) -/

/-- Objects kept in the boot flash (R477). -/
def persistent (idx sub : Nat) : Bool :=
  idx = 0x1015 || idx = 0x1017 || decide (0x1800 ≤ idx ∧ idx ≤ 0x1803) || decide (0x1A00 ≤ idx ∧ idx ≤ 0x1A03) || idx = 0x2010
  || (idx = 0x2C10 && sub ≤ 2) || idx = 0x2810 || (idx = 0x2300 && (sub = 1 || sub = 9))
/-- An rw object that is not persistent returns to its default at a start. -/
def resets (key : Nat) : Bool :=
  let i := key % 2 ^ 24 / 256
  let sub := key % 256
  match objRow i sub with
  | some r => (r.t = .rw || r.o = .rw) && !(persistent i sub)
  | none => false
def State.startDefaults (s : State) : State :=
  { s with objs := s.objs.filter (fun e => !(resets e.1)), doms := s.doms.filter (fun e => !(resets e.1)), fcMode := [], pins := [], pulse := false
           ports := s.ports.map (fun (e : Nat × TyPort) => (e.1, { e.2 with width := 96, gov := 96, onOff := false }))
           hl := s.hl.map (fun (e : Nat × HlPort) => (e.1, { e.2 with corr := 0, uncorr := 0, replay := 0, bytesIn := 0, bytesOut := 0 })) }
/-- The rails of step 4 of R449 begin to rise: IBCs, RIMs and OPTs ramp; `RCLK_SET` takes effect (R442, R459). -/
def State.rampUp (s : State) (ks : List Nat) : State :=
  ks.foldl (fun s k => if (s.conv k).st = 0 then s.setConv k { s.conv k with st := 1 } else s) s
def State.raiseRails (s : State) : State :=
  let s1 := s.rampUp (List.range 8 ++ [104, 105] ++ optStages)
  let s2 := { s1 with boot := { s1.boot with framesUp := 0 }, refs := { s1.refs with rclkNow := s1.obj 0 0x2300 1 ceilingMHz } }
  (s2.setObj 0 0x2100 8 1).setObj 0 0x2C00 1 1
/-- Some reference is qualified and none is being sought. -/
def Refs.ready (r : Refs) : Bool := if r.inUse then r.stB = 1 else r.stA = 1
/-- Step 4 of R449 begins once the firmware runs and a reference is qualified (R444). -/
def State.raiseBegin (s : State) : State :=
  if s.boot.fw && s.refs.ready && s.pwrState = 0 && s.stage = 0 then s.raiseRails else s

/-- The effect of a write of `PWR_RESTART` (R425): Trip is left once every cause has cleared. -/
def pwrRestartEff : Eff := fun s =>
  if s.pwrState ≠ 4 ∨ !s.power.tripCauses.isEmpty then (some badState, s)
  else (none, s.startDefaults.raiseRails)
/-- PWR_RESTART (R425). -/
def execPwrRestart (p : Path) (v : W64) (s : State) : Res := onUnit (isPath p) (s.writeAnswer p 0x2100 11 v pwrRestartEff)

/-! Input (R420) -/

def State.setVin (s : State) (dv : Nat) : State := s.setObj 0 0x2100 1 (min dv 65535)
/-- INPUT_UNDERVOLTAGE (R420). -/
def execInputUndervoltage (dv ms : Nat) (s : State) : Res :=
  let s1 := s.setVin dv
  .next (if dv < 3300 ∧ 10 ≤ ms then s1.tripNow 0x9001#16 else if dv < 3550 ∧ 1 ≤ ms then s1.floorCause 4 (some 0x9001#16) else s1)
/-- INPUT_OVERVOLTAGE (R420). -/
def execInputOvervoltage (dv us : Nat) (s : State) : Res :=
  let s1 := s.setVin dv
  .next (if 4300 < dv ∧ 100 ≤ us then s1.tripNow 0x9002#16 else s1)
/-- INPUT_RECOVER (R420): the input's causes of Floor and Trip clear. -/
def execInputRecover (dv ms : Nat) (s : State) : Res :=
  let s1 := s.setVin dv
  let s2 := if 3600 ≤ dv ∧ 10 ≤ ms then (s1.floorClear 4).tripClear 0x9001#16 else s1
  .next (if dv ≤ 4300 then s2.tripClear 0x9002#16 else s2)

/-- What survives without VKEEP: flash, fuses, wear, lockouts (R414, R422, R435, R450, R477); the error log does not. -/
def State.dark (s : State) : State :=
  { pending := s.pending, outs := s.outs, fresh := s.fresh, nextId := s.nextId
    objs := (s.flash.map (fun (e : Nat × Option W64) => e)) ++ s.objs.filter (fun e => e.1 = okey 0 0x2100 1 || e.1 = okey 0 0x2600 4), flash := s.flash
    doms := s.doms.filter (fun e => e.1 = okey 0 0x2910 1) ++ s.flashDoms, flashDoms := s.flashDoms
    frames := s.frames.map (fun (e : Nat × Frame) => (e.1, { wear := e.2.wear, spent := e.2.spent }))
    convs := s.convs.filter (fun (e : Nat × Conv) => e.2.st = 3)
    power := { wearMs := s.power.wearMs }
    boot := { imgA := s.boot.imgA, imgB := s.boot.imgB, bank := s.boot.bank, nextBank := s.boot.nextBank
              fusedRaise := s.boot.fusedRaise, faultMap := s.boot.faultMap } }
/-- VKEEP_OFF (R420): input below 300 V. -/
def execVkeepOff (s : State) : Res := .next s.dark

/-! Converters (R422, R423) -/

/-- The Combs of a Frame. -/
def frameCombs (f : Nat) : List Nat := (List.range 10).map (fun k => combAt f k)
/-- A Comb whose Frame has lost a rail fails, and its spare shares the rail: it is marked lost (R423). Before BIST nothing of the Frame is
tested yet (R452). -/
def State.railLost (s : State) (c : Nat) : State :=
  if (s.comb c).lost ∨ s.stage < 2 ∨ s.stage = 6 then s else
  let s1 := if 5 ≤ s.stage then s.combFails c else s
  s1.combLost c (if 5 ≤ s.stage then 2 else 0) (s.stage < 5)
/-- The effect of a stage's loss (R423), with the code of the loss. -/
def State.stageLost (s : State) (k : Nat) (code : W16) : State :=
  if k < 8 then
    if s.ibcs < 2 then s.tripNow code
    else
      let lim := s.ibcs * (if s.power.peakOff then 3750 else 4250)
      -- the remaining IBCs raise their alert (R439)
      if s.pwrState = 2 ∧ lim < s.power.inp then
        ((List.range 8).foldl (fun s j => if (s.conv j).st = 2 then s.setConv j { s.conv j with alert := true } else s) s).alertSettle
      else s
  else if k < 104 then
    let f := (k - 8) % 48
    if s.pwrState = 0 ∨ s.pwrState = 4 then s else (frameCombs f).foldl (fun s c => s.railLost c) (s.setFrame f { s.frame f with railLost := true, pbPass := false })
  else if k < 106 then (if s.rimOn then s else s.tripNow code)
  else if k < 112 then (if (s.port (k - 106)).st = 4 then s else s.portDown (k - 106))
  else s.dark
/-- A short: the stage latches off; the fourth detection locks it out. -/
def State.convShort (s : State) (k : Nat) : State :=
  let v := s.conv k
  if v.st ≠ 1 ∧ v.st ≠ 2 then s
  else if v.retries < 3 then
    ((s.setConv k { v with st := 0, latched := true, alert := false }).powerReport 0x9003#16 8 k).stageLost k 0x9003#16
  else
    let r : Report := ⟨0x9004#16, 2, none, 8, 0, k, 0, 0, 0⟩
    ((((((s.setConv k { v with st := 3, latched := false, alert := false }).powerReport 0x9003#16 8 k).report r).cperAdd r
      (if s.stage < 5 then 0 else 2) 0 1 (s.stage < 5)).event none 0x9004#16 0 0 (BitVec.ofNat 64 k))).stageLost k 0x9004#16
/-- CONVERTER_SHORT (R422). -/
def execConverterShort (k : Nat) (s : State) : Res := onUnit (isConv k) (s.convShort k)
/-- CONVERTER_RETRY (R422): 100 ms after the latch. -/
def execConverterRetry (k : Nat) (s : State) : Res :=
  onUnit (isConv k)
    (let v := s.conv k
     if v.latched ∧ v.st = 0 then s.setConv k { v with st := 1, latched := false, retries := v.retries + 1 } else s)
/-- CONVERTER_RETRY_RESET (R422): 60 s without a short. -/
def execConverterRetryReset (k : Nat) (s : State) : Res :=
  onUnit (isConv k) (if (s.conv k).st = 2 then s.setConv k { s.conv k with retries := 0 } else s)
/-- A stage is on: a port's optics begin to train (R458). -/
def State.convOn (s : State) (k : Nat) : State :=
  let s1 := s.setConv k { s.conv k with st := 2 }
  let s2 := if s1.ibcs < 2 then s1 else if s1.rimOn then ([0x9003#16, 0x9004#16].foldl (fun s c => s.tripClear c) s1) else s1
  if 106 ≤ k ∧ k < 112 ∧ (s2.pwrState = 1 ∨ s2.pwrState = 2 ∨ s2.pwrState = 3) then
    s2.setPort (k - 106) { s2.port (k - 106) with st := 1, lanes := (List.range 96).map (fun l => (l, 1)), light := false }
  else s2
/-- CONVERTER_RAMP_END (R422): below half of the target is a short. -/
def execConverterRampEnd (k pct : Nat) (s : State) : Res :=
  onUnit (isConv k) (if (s.conv k).st ≠ 1 then s else if pct < 50 then s.convShort k else s.convOn k)
/-- LOCKOUT_CLEAR (R422): the input has been below 300 V for 5 s, so the module is dark. -/
def execLockoutClear (s : State) : Res :=
  .next (if s.boot.powerGood then s else { s with convs := s.convs.map (fun (e : Nat × Conv) => (e.1, if e.2.st = 3 then {} else e.2)) })

/-! The governor (R426-R428, R436) -/

/-- `PWR_CAP`, and the limits of R426. -/
def State.pwrCap (s : State) : Nat := s.obj 0 0x2100 4 capW
def State.peakW (s : State) : Nat := min 34000 (s.pwrCap + 4000)
def State.grantW (s : State) : Nat := if s.power.peakOff then s.pwrCap else s.peakW
def State.ibcOn (s : State) : Nat := ((List.range 8).filter (fun k => (s.conv k).st = 2)).length
def State.ibcW (s : State) : Nat := s.ibcOn * (if s.power.peakOff then 3750 else 4250)
def State.limitW (s : State) : Nat := min (min s.grantW s.power.pcool) s.ibcW

/-- The sample enters the window of 200,000 and the peak is disabled or enabled (R427). -/
def Power.sample (w : Power) (inp cap : Nat) : Power :=
  let t := w.tick + 1
  let l := (w.aboveAt.filter (fun x => decide (t < x + 200000))) ++ (if cap < inp then [t] else [])
  { w with tick := t, aboveAt := l, inp := inp, peakOff := if 25000 ≤ l.length then true else if l.length ≤ 20000 then false else w.peakOff }

/-- What each class is given of `rest`, in the order of `PRIO_ORDER`; index 0 links, 1 memory, 2 compute. -/
def allot (demand : Nat → Nat) : List Nat → Nat → List (Nat × Nat)
  | [], _ => []
  | c :: t, rest => (c, min (demand c) rest) :: allot demand t (rest - min (demand c) rest)
def State.prio (s : State) : List Nat := let v := s.obj 0 0x2100 7 0x24; [v % 4, fld v 2 2, fld v 4 2]
/-- A class's level in `n` parts, for what it is given of its demand. -/
def level (n low give want : Nat) : Nat := if want ≤ give then n else max low (n * give / want)

/-- Lanes of a port follow the governor: down at once, up one in each millisecond (R428). -/
def State.governLanes (s : State) (want : Nat) (up : Bool) : State :=
  { s with ports := s.ports.map (fun (e : Nat × TyPort) => (e.1, { e.2 with gov := if want ≤ e.2.gov then want else if up then e.2.gov + 1 else e.2.gov })) }

/-- Duties of a Frame's Combs stay within the Frame's and the governor's (R428, R433). -/
def State.dutyMax (s : State) (c : Nat) : Nat := min (s.frame (frameOf c)).duty s.power.compDuty
def State.dutyCut (s : State) (f : Nat → Bool) : State :=
  { s with combs := s.combs.map (fun (e : Nat × Comb) => (e.1, if f e.1 then { e.2 with duty := min e.2.duty (s.dutyMax e.1) } else e.2)) }

/-- `T_THROTTLE` of a Frame (R433, R435), in degrees. -/
def State.tThr (s : State) : Nat := s.obj 0 0x2200 2 90
def State.frameThr (s : State) (f : Nat) : Nat := if (s.frame f).spent then min s.tThr 85 else s.tThr
/-- Microseconds of the last 10 that count under each reason (R436): cap, thermal, alert, slope, coolant, wear. -/
def State.thrReasons (s : State) (want : Nat) : List Nat :=
  let on (b : Bool) : Nat := if b then 10 else 0
  let fs := s.frames.filter (fun (e : Nat × Frame) => e.2.duty < 16)
  let floor := s.pwrState = 3
  let held := floor && s.power.causes = 0
  [on (decide (min s.grantW s.ibcW < want) || bit s.power.causes 1),
   on (fs.any (fun e => !e.2.spent || decide ((s.tThr * 10 : Int) - 20 ≤ e.2.tj)) || bit s.power.causes 2),
   on (bit s.power.causes 0 || bit s.power.causes 4 || held),
   if s.refs.switching = 2 then 10 else min s.power.slopeUs 10,
   on (decide (s.power.pcool < want) || bit s.power.causes 3),
   on (fs.any (fun e => e.2.spent))]
def State.thrCount (s : State) (want : Nat) : State :=
  let r := s.thrReasons want
  let s1 := (List.range 6).foldl (fun s i => s.incObj 0x2120 (i + 1) 64 (lget 0 r i)) s
  let s2 := s1.incObj 0x2120 7 64 (r.foldl max 0)
  { s2 with power := { s2.power with slopeUs := 0 } }

/-- What the limit leaves the classes: levels of links and compute, and whether memory is held back (R428). -/
def State.levels (s : State) (base links mem comp : Nat) : Nat × Bool × Nat :=
  let g := allot (fun c => lget comp [links, mem] c) s.prio (s.limitW - base)
  (level 96 48 (tget 0 g 0) links, decide (tget 0 g 1 < mem), level 16 1 (tget 0 g 2) comp)
/-- Every class stands at its lowest level. -/
def atLowest (l : Nat × Bool × Nat) : Bool := l.1 == 48 && l.2.1 && l.2.2 == 1
/-- The classes are throttled to fit the limit; 100 us at their lowest above it are a cause of Floor. -/
def State.throttleTo (s : State) (inp : Nat) (l : Nat × Bool × Nat) : State :=
  let lim := s.limitW
  let n := if atLowest l && Nat.blt lim inp then s.power.stuck + 1 else 0
  let s1 : State := { s with power := { s.power with limit := lim, linkWant := l.1, memThr := l.2.1, compDuty := l.2.2, stuck := n } }
  let s2 := (s1.governLanes l.1 (s1.power.tick % 100 == 0)).dutyCut (fun _ => true)
  if Nat.ble 10 n then s2.floorCause 1 none else if Nat.ble inp lim then s2.floorClear 1 else s2
/-- One sample of the governor. -/
def State.governor (s : State) (inp base links mem comp : Nat) : State :=
  let w0 := s.power.sample inp s.pwrCap
  let s0 : State := { s with power := { w0 with inpSum := w0.inpSum + inp, inpN := w0.inpN + 1, baseSum := w0.baseSum + base } }
  let s1 := s0.setObj 0 0x2100 6 (10 * w0.aboveAt.length)
  if s1.pwrState == 2 || s1.pwrState == 3 then (s1.throttleTo inp (s1.levels base links mem comp)).thrCount (base + links + mem + comp)
  else s1
/-- GOVERNOR_TICK (R426). -/
def execGovernorTick (inp base links mem comp : Nat) (s : State) : Res := .next (s.governor inp base links mem comp)

/-- PWR_CAP_WRITE (R426): in force from the next sample. -/
def execPwrCapWrite (p : Path) (v : W64) (s : State) : Res :=
  onUnit (isPath p) (s.writeAnswer p 0x2100 4 v (Eff.ok (fun s => s.storeObj p 0x2100 4 v)))

/-- SLOPE_GRANT_TICK (R432): at most 200 steps of 2.5 A are granted; the duty of a Comb's Engine moves by one sixteenth. -/
def State.slopeStep (s : State) (r : Nat × Bool) : Bool × State :=
  let m := s.comb r.1
  if r.2 then (if m.duty < s.dutyMax r.1 then (true, s.setComb r.1 { m with duty := m.duty + 1 }) else (false, s))
  else (if 0 < m.duty then (true, s.setComb r.1 { m with duty := m.duty - 1 }) else (false, s))
def State.slopeGrant : List (Nat × Bool) → Nat → State → State
  | [], _, s => s
  | r :: t, budget, s =>
    let d := s.slopeStep r
    if !d.1 then State.slopeGrant t budget s
    else match budget with
      | 0 => { s with power := { s.power with slopeUs := s.power.slopeUs + 1 } }
      | b + 1 => State.slopeGrant t b d.2
def execSlopeGrantTick (reqs : List (Nat × Bool)) (s : State) : Res :=
  onUnit (reqs.all (fun r => isComb r.1)) (if s.floorLevel then s else State.slopeGrant reqs 200 s)

/-! Temperature, coolant, voltage (R433-R435) -/

/-- A signed value of `w` bits as an object holds it. -/
def twos (w : Nat) (v : Int) : Nat := (v % (2 ^ w : Nat)).toNat
/-- A Frame whose temperature has moved 8 K since its channels were calibrated asks to retrain them (R237, R465). -/
def State.recalibrate (s : State) (f : Nat) (t : Int) : State :=
  match (s.frame f).calTj with
  | none => s
  | some k =>
    if (t - k).natAbs < 80 then s
    else ((frameCombs f).flatMap (fun c => (List.range 16).map (fun ch => (c, ch)))).foldl (fun s x => s.maintOwn 1 (scopeOf x.1 6 x.2) none)
      (s.setFrame f { s.frame f with calTj := some t })
/-- THERMAL_TICK (R433). -/
def State.thermal (s : State) (tj : List Int) : State :=
  let s0 := (List.range 48).foldl (fun s f => s.setFrame f { s.frame f with tj := lget 0 tj f }) s
  let hot := (List.range 48).foldl (fun h f => tset 0 h f (if 950 ≤ lget 0 tj f then tget 0 h f + 1 else 0)) s0.power.hot
  let s1 := { s0 with power := { s0.power with hot := hot } }
  if tj.any (fun t => decide (1050 ≤ t)) then s1.tripNow 0x9006#16
  else
    let s2 := s1.tripClear 0x9006#16
    let s3 := if hot.any (fun e => decide (10 ≤ e.2)) then s2.floorCause 2 (some 0x9005#16)
      else if tj.all (fun t => decide (t ≤ 900)) then s2.floorClear 2 else s2
    if s3.pwrState = 2 ∨ s3.pwrState = 3 then (List.range 48).foldl (fun s f => s.recalibrate f (lget 0 tj f)) s3 else s3
def execThermalTick (tj : List Int) (s : State) : Res := onUnit (decide (tj.length = 48)) (s.thermal tj)

/-- THROTTLE_STEP (R433): one sixteenth down at the threshold, up below it by 2 K. -/
def State.throttle (s : State) (f : Nat) : State :=
  let x := s.frame f
  let t : Int := (s.frameThr f * 10 : Nat)
  if t ≤ x.tj then (s.setFrame f { x with duty := max 1 (x.duty - 1) }).dutyCut (fun c => frameOf c = f)
  else if x.tj < t - 20 then s.setFrame f { x with duty := min 16 (x.duty + 1) }
  else s
def execThrottleStep (f : Nat) (s : State) : Res := onUnit (isFrame f) (s.throttle f)

/-- P_cool in W (R434). -/
def pCool (tin : Int) (flow : Nat) : Nat := 34000 * min 450 flow * min 150 ((500 - tin).toNat) / 67500
/-- COOLANT_TICK (R434). -/
def State.coolant (s : State) (tin tout : Int) (flow dp : Nat) : State :=
  let w := pCool tin flow
  let s1 := ((((s.setObj 0 0x2200 3 (twos 16 tin)).setObj 0 0x2200 4 (twos 16 tout)).setObj 0 0x2200 5 (min flow 65535)).setObj 0 0x2200 6 (min dp 65535))
  let s2 := { s1 with power := { s1.power with pcool := w } }
  if w < 4000 ∨ flow < 150 ∨ 600 < tout then s2.floorCause 3 (some 0x9007#16) else s2.floorClear 3
def execCoolantTick (tin tout : Int) (flow dp : Nat) (s : State) : Res := .next (s.coolant tin tout flow dp)

/-- VCORE of a Frame in steps of 5 mV (R435). -/
def vcoreFor (x : Frame) (need : Nat) : Nat := min (max 680 ((need + 4) / 5 * 5)) (if 850 < x.tj && !x.spent then 800 else 750)
/-- AVS_TICK (R435): the voltage is set and time above nominal counted. -/
def State.avs (s : State) (f need : Nat) : State :=
  let x := s.frame f
  let v := vcoreFor x need
  let ms := tget 0 s.power.wearMs f + 1
  if v ≤ 750 then s.setFrame f { x with vcore := v }
  else if ms < 1000 then { (s.setFrame f { x with vcore := v }) with power := { s.power with wearMs := tset 0 s.power.wearMs f ms } }
  else
    let n := x.wear + 1
    let s1 := { (s.setFrame f { x with vcore := v, wear := n }) with power := { s.power with wearMs := tset 0 s.power.wearMs f 0 } }
    if n = 32400000 then s1.powerReport 0x9009#16 8 f
    else if n = 36000000 then (s1.setFrame f { s1.frame f with spent := true, vcore := 750 }).powerReport 0x900A#16 8 f
    else s1
def execAvsTick (f need : Nat) (s : State) : Res := onUnit (isFrame f) (s.avs f need)

/-! Energy (R437) -/

def mJ : Nat := 10 ^ 12
/-- Energy of an activity in fJ; `P_COMB` in mW over milliseconds is 10^9 fJ. -/
def energyOf (a : Activity) : Nat :=
  a.macFp4 * (Config.energyCoeff 1).toNat + a.macFp6 * (Config.energyCoeff 2).toNat + a.cell * (Config.energyCoeff 3).toNat
  + a.cmLine * (Config.energyCoeff 4).toNat + a.mwLine * (Config.energyCoeff 5).toNat + a.flit * (Config.energyCoeff 6).toNat
  + a.combMs * (Config.energyCoeff 7).toNat * 10 ^ 9
/-- Add energy to an object that counts mJ; what is less than 1 mJ is kept. -/
def State.addEnergy (s : State) (slot idx sub fj : Nat) : State :=
  let t := tget 0 s.power.enFrac slot + fj
  State.incObj { s with power := { s.power with enFrac := tset 0 s.power.enFrac slot (t % mJ) } } idx sub 64 (t / mJ)
/-- ENERGY_TICK (R437): each context's activity, the input of the last millisecond, and the baseline, which counts to nobody. -/
def State.energy (s : State) (acts : List Activity) : State :=
  let s1 := acts.foldl (fun s a => match a.ctx with
    | some n => s.addEnergy (n % 16) 0x2A00 (n % 16 + 1) (energyOf a)
    | none => s.addEnergy 16 0x2A00 17 (energyOf a)) s
  let w := s1.power
  let s2 := (s1.addEnergy 16 0x2A00 17 (w.baseSum * 10 ^ 10)).addEnergy 17 0x2100 3 (w.inpSum * 10 ^ 10)
  let s3 := if w.inpN = 0 then s2 else s2.setObj 0 0x2100 2 (w.inpSum / w.inpN)
  { s3 with power := { s3.power with inpSum := 0, inpN := 0, baseSum := 0 } }
def execEnergyTick (acts : List Activity) (s : State) : Res := .next (s.energy acts)

/-! References (R443-R445) -/

/-- The reference in use, and the other. -/
def Refs.used (r : Refs) : Nat := if r.inUse then r.stB else r.stA
def Refs.other (r : Refs) : Nat := if r.inUse then r.stA else r.stB
/-- A switch is decided where the other reference is qualified; else both have failed (R445). -/
def State.refFailed (s : State) : State :=
  if s.refs.switching ≠ 0 then s
  else if s.refs.other = 1 then { s with refs := { s.refs with switching := 1 } }
  else (if s.pwrState = 0 ∨ s.pwrState = 4 then s.powerReport 0xA005#16 9 0 else s).tripNow 0xA005#16
/-- The reference named by `REF_SEL`, preferring A. -/
def State.refPick (s : State) : Bool := if s.obj 0 0x2300 3 0 = 2 then s.refs.stB = 1 else s.refs.stA ≠ 1
/-- A reference has qualified at start: the host links begin to train, and the rails rise once the firmware runs (R449). -/
def State.qualified (s : State) : State :=
  let s1 := [0, 1].foldl (fun s p => if (s.hlp p).st = 0 && !(s.hlp p).perst then s.setHlp p { s.hlp p with st := 1 } else s) s
  (s1.tripClear 0xA005#16).raiseBegin
/-- OSC_QUALIFY_WINDOW (R444, R445): diff in 0.01 ppm. -/
def State.oscWindow (s : State) (diff : Int) : State :=
  let s0 := s.setObj 0 0x2300 5 (twos 32 diff)
  let r := s0.refs
  let good := decide (diff.natAbs ≤ 5000)
  if r.arb then s0
  else if r.stA = 0 ∧ r.stB = 0 then
    let g := if good then r.goodWins + 1 else 0
    if 3 ≤ g then
      let s1 := { s0 with refs := { r with goodWins := g, wins := r.wins + 1, stA := 1, stB := 1 } }
      State.qualified { s1 with refs := { s1.refs with inUse := s1.refPick } }
    else { s0 with refs := { r with goodWins := g, wins := r.wins + 1, arb := decide (100 ≤ r.wins + 1) } }
  else if r.stA = 1 ∧ r.stB = 1 ∧ !good then { (s0.powerReport 0xA001#16 9 0) with refs := { r with arb := true } }
  else s0
def execOscQualifyWindow (diff : Int) (s : State) : Res := .next (s.oscWindow diff)

/-- OSC_ARBITRATION_DONE (R444, R445): the one closer to nominal, and within 100 ppm, qualifies alone. -/
def State.arbitrate (s : State) (a b : Int) : State :=
  if !s.refs.arb then s else
  let start := decide (s.refs.stA = 0 ∧ s.refs.stB = 0)
  -- of two equally close the choice is open
  let d : Bool × State := if a.natAbs = b.natAbs then s.drawBool else (decide (a.natAbs < b.natAbs), s)
  let aWins := d.1
  let near := if aWins then a.natAbs else b.natAbs
  let s0 := d.2
  if 10000 < near then
    let s1 := { s0 with refs := { s0.refs with arb := false, stA := 2, stB := 2 } }
    if start then s1.powerReport 0xA005#16 9 0 else s1.refFailed
  else
    let s1 : State := { (s0.powerReport 0xA002#16 9 (b2n aWins)) with refs := { s0.refs with arb := false, stA := if aWins then 1 else 2, stB := if aWins then 2 else 1 } }
    if start then State.qualified { s1 with refs := { s1.refs with inUse := !aWins } }
    else if s1.refs.used = 2 then s1.refFailed else s1
def execOscArbitrationDone (a b : Int) (s : State) : Res := .next (s.arbitrate a b)

/-- REF_EDGE_LOSS (R445): the reference in use is failed at once. -/
def execRefEdgeLoss (s : State) : Res :=
  .next (let r := s.refs
         if r.used ≠ 1 then s
         else (({ s with refs := (if r.inUse then { r with stB := 2 } else { r with stA := 2 }) }).powerReport 0xA002#16 9 (b2n r.inUse)).refFailed)

/-- REF_SWITCH_START (R443, step 0): activity is brought to the Floor level; `PWR_STATE` stays. -/
def execRefSwitchStart (s : State) : Res :=
  .next (if s.refs.switching = 1 then ({ s with refs := { s.refs with switching := 2 } }).floorGate else s)
/-- REF_SWITCH_STOP (R443, step 1): every compute clock stops; units not yet gated write `SLEEP` (R509). -/
def execRefSwitchStop (s : State) : Res :=
  .next (if s.refs.switching = 2 then { (s.traceUngated 1 0) with refs := { s.refs with switching := 3, stopped := true } } else s)
/-- REF_SWITCH_RESTART (R443, step 3). -/
def State.refRestart (s : State) : State :=
  let s1 := { s with ts := s.ts + 4096, refs := { s.refs with switching := 0, stopped := false, inUse := !s.refs.inUse } }
  let s2 := ((s1.incObj 0x2300 7 64 4096).incObj 0x2300 6 32 1).powerReport 0xA003#16 9 0
  let s3 := s2.traceUngated 2 4096
  if s3.pwrState = 3 then s3 else s3.floorUngate
def execRefSwitchRestart (s : State) : Res := .next (if s.refs.switching = 3 then s.refRestart else s)

/-- The effect of a write of `REF_SEL` (R445): it forces only a qualified oscillator. -/
def refSelEff (p : Path) (v : W64) : Eff := fun s =>
  let r := s.refs
  if (v = 1 ∧ r.stA ≠ 1) ∨ (v = 2 ∧ r.stB ≠ 1) then (some badState, s)
  else
    let s1 := s.storeObj p 0x2300 3 v
    let b := s1.refPick
    (none, if b ≠ r.inUse ∧ (if b then r.stB else r.stA) = 1 ∧ r.switching = 0 ∧ r.used ≠ 0 then { s1 with refs := { r with switching := 1 } } else s1)
/-- REF_SEL_WRITE (R445). -/
def execRefSelWrite (p : Path) (v : W64) (s : State) : Res := onUnit (isPath p) (s.writeAnswer p 0x2300 3 v (refSelEff p v))

/-! Spread spectrum (R446, R531) -/

/-- A pin leaves its function and drives `PARK`, until it is handed to function `f` (R531). -/
def State.parkPin (s : State) (n f : Nat) (park : Bool) : State :=
  (s.setPin n { s.pinOf n with parked := true, next := some f, level := park, hiZ := false }).out (.pin n park)
/-- SSC_OUT_WRITE (R446): every pin that carries clock out is parked. -/
def sscOutEff (p : Path) (v : W64) : Eff := Eff.ok (fun s =>
  [0, 1].foldl (fun s n =>
    let x := s.pinOf n
    if x.func = 2 || x.next = some 2 then s.parkPin n 2 (bit (s.obj 0 0x2D00 (n + 1) 0) 3) else s) (s.storeObj p 0x2300 8 v))
def execSscOutWrite (p : Path) (v : W64) (s : State) : Res := onUnit (isPath p) (s.writeAnswer p 0x2300 8 v (sscOutEff p v))

end Sys2Proof.Machine
end

