-- ==== Sys2Proof/Machine/Startup.lean ====
section
/-! DEFINITION. From power-good to ready (R449-R457), firmware (R450, R470), link bring-up (R458), the roll call (R460-R463, R499), and
the maintenance requests (R465-R471). -/

namespace Sys2Proof.Machine

open Sys2Proof

/-- POWER_GOOD (R449, step 1): KEEP is raised and the Keeper starts; TS is 0 (R498). -/
def State.powerUp (s : State) : State :=
  { s with boot := { s.boot with powerGood := true }, ts := 0, convs := tput s.convs 112 { st := 2 } }
def execPowerGood (s : State) : Res := .next (if s.boot.powerGood then s else s.powerUp)

/-- RESET_N_ASSERT (R457, R526): the module starts again from step 1; what counts since power-on stays. -/
def State.resetN (s : State) : State :=
  let stays (e : Nat × Option W64) : Bool := [okey 0 0x2100 3, okey 0 0x2900 7, okey 0 0x2900 8].contains e.1
  let d := s.dark
  let s1 := State.powerUp { d with objs := d.objs ++ s.objs.filter stays, power := { d.power with enFrac := s.power.enFrac }, cperNext := s.cperNext }
  s.pins.foldl (fun s (e : Nat × Pin) => s.out (.pin e.1 false)) s1
def execResetNAssert (us : Nat) (s : State) : Res := .next (if 1000 ≤ us ∧ s.boot.powerGood then s.resetN else s)

/-! Firmware (R450, R470) -/

/-- The image in bank B (true) or A; none: as manufactured. -/
def Boot.img (b : Boot) (k : Bool) : Option (List Byte) := if k then b.imgB else b.imgA
/-- Security version of a bank, the fused minimum, and whether a bank's signatures verify. -/
def Boot.version (b : Boot) (k : Bool) : Nat := match b.img k with | some i => (Config.fwVersion i).toNat | none => Config.fusedMin.toNat
def Boot.minimum (b : Boot) : Nat := max Config.fusedMin.toNat b.fusedRaise.toNat
def Boot.signed (b : Boot) (k : Bool) : Bool := match b.img k with | some i => Config.vendorSigned i | none => true
def Boot.bankOk (b : Boot) (k : Bool) : Bool := b.signed k && decide (b.minimum ≤ b.version k)
def State.badBank (s : State) (k : Bool) : State := s.report ⟨0x8006#16, 2, none, 7, 0, b2n k, 0, 0, 0⟩
/-- The Keeper's firmware runs from bank `k`: step 3 of R449 ends; the pins take their reset configuration (R526), and the
boot-up message is sent (R480). -/
def State.runBank (s : State) (k : Bool) : State :=
  State.raiseBegin (State.commReset { s with boot := { s.boot with fw := true, bank := k }, pins := (List.range 8).map (fun n => (n, ({ hiZ := false } : Pin))) })

/-! The torus (R460-R463) -/

/-- A valid `ROLL_PLAN`, its sizes less 1 and whether it makes this module root. -/
def State.plan (s : State) : Nat := s.obj 0 0x2C10 1 0
def State.hasPlan (s : State) : Bool := bit s.plan 31
def State.isOrigin (s : State) : Bool := s.hasPlan && s.plan % 2 ^ 14 = 0
/-- `TORUS_SIZE` of the plan (R340, R460), and how many modules it counts. -/
def State.planTorus (s : State) : Nat := fld s.plan 23 5 + fld s.plan 18 5 * 32 + fld s.plan 14 4 * 1024
def State.planCount (s : State) : Nat := (fld s.plan 23 5 + 1) * (fld s.plan 18 5 + 1) * (fld s.plan 14 4 + 1)
/-- Kinds of Keeper message that R374 leaves to this chapter, which numbers none (log entry 55). -/
def kNeighbour : Nat := 0x20
def kToken : Nat := 0x21
def kTaken : Nat := 0x22
def kHeld : Nat := 0x23
def kReport : Nat := 0x24
def kCount : Nat := 0x25
/-- The check message: coordinates, sizes, port, `RCLK_NOW`; without a plan "no plan". -/
def State.sendCheck (s : State) (p : Nat) : State :=
  s.out (.keeper p kNeighbour (if s.hasPlan then leBytes 4 s.plan ++ leBytes 2 p ++ leBytes 2 s.refs.rclkNow else []))
/-- Ports a token is forwarded on: +X, +Y, +Z. -/
def tokenPorts : List Nat := [0, 2, 4]
def State.portPasses (s : State) (p : Nat) : Bool := (s.port p).st = 3 && (s.port p).checked
def State.sendToken (s : State) (p : Nat) : State := s.out (.keeper p kToken (leBytes 4 s.boot.remain))
/-- The token goes out on each port that passes; on the others it waits (R462). -/
def State.forwardTokens (s : State) : State :=
  (tokenPorts.filter s.portPasses).foldl (fun s p => s.sendToken p) { s with boot := { s.boot with asked := tokenPorts, kids := [], counted := 0 } }
def State.setRoll (s : State) (st count : Nat) : State :=
  s.setObj 0 0x2C10 3 (st + count % 2 ^ 15 * 16 + fld (s.obj 0 0x2C10 3 0) 19 6 * 2 ^ 19)
/-- Root starts a roll call. -/
def State.rollBegin (s : State) : State :=
  if !s.isOrigin then s else
  let b := { s.boot with isRoot := true, parent := none, running := true, reported := false, remain := 1000 * s.obj 0 0x2C10 2 85 }
  (({ s with boot := b }).setRoll 2 0).forwardTokens
/-- The count is known: `TORUS_SIZE` and `ROLL_STATUS` are set, and it goes on down the tree (R463). -/
def State.rollEnd (s : State) (n : Nat) : State :=
  let s1 := (s.setObj 0 0x2500 4 s.planTorus).setRoll (if n = s.planCount then 3 else 4) n
  let s2 : State := { s1 with boot := { s1.boot with rolled := true, running := false, reported := true } }
  (s.boot.kids ++ s.boot.asked.filter s.portPasses).foldl (fun s p => s.out (.keeper p kCount (leBytes 4 n ++ leBytes 8 s.ts.toNat))) s2
/-- The subtree's count is known: it goes to the parent, or the roll call ends at root. -/
def State.rollReported (s : State) : State :=
  let n := s.boot.counted + 1
  match s.boot.parent with
  | some p => ({ s with boot := { s.boot with reported := true } }).out (.keeper p kReport (leBytes 4 n))
  | none => if s.boot.isRoot then s.rollEnd n else s

/-- FIRMWARE_BOOT (R450): the bank marked next, else the other; neither passing leaves ROM recovery. -/
def State.firmwareBoot (s : State) : State :=
  let k := s.boot.nextBank
  if !s.boot.powerGood ∨ s.boot.fw ∨ s.stage = 6 then s
  else if s.boot.bankOk k then (s.runBank k).rollBegin
  else
    let s1 := s.badBank k
    if s.boot.bankOk (!k) then (s1.runBank (!k)).rollBegin
    else ((s1.badBank (!k)).setObj 0 0x2C00 1 6).setObj 0 0x2100 8 0
def execFirmwareBoot (s : State) : Res := .next s.firmwareBoot

/-- A bank takes an image and is marked next. -/
def State.storeImage (s : State) (k : Bool) (img : List Byte) : State :=
  { s with boot := if k then { s.boot with imgB := some img, nextBank := true } else { s.boot with imgA := some img, nextBank := false } }
/-- The effect of a write of `FW_IMAGE` (R450, R465, R470): in ROM recovery the start begins again at step 1; in service the update is
a maintenance activity, and an image that must wait is kept. -/
def fwImageEff (img : List Byte) : Eff := fun s =>
  if !(Config.vendorSigned img) then (some (ownCode 0x8006), s)
  else if (Config.fwVersion img).toNat < s.boot.minimum then (some (ownCode 0xB007), s)
  else if s.stage = 6 then (none, (s.storeImage s.boot.nextBank img).resetN)
  else match s.maintAsk { ticket := 0, cls := 3, deferred := false, scope := 0 } with
    | (none, s1) => (some badState, s1)
    | (some e, s1) =>
      let s2 := s1.maintResult e.ticket (b2n e.deferred) 0
      (none, if e.deferred then s2.setDom 0 0x2C30 1 img else s2.storeImage (!s2.boot.bank) img)
/-- FW_IMAGE_WRITE (R470). -/
def execFwImageWrite (p : Path) (img : List Byte) (s : State) : Res := onUnit (isPath p) (s.domAnswer p 0x2C30 1 (fwImageEff img))
/-- FW_COMMIT (R470): the fused minimum is raised to the running bank's version. -/
def fwCommitEff : Eff := Eff.ok (fun s => { s with boot := { s.boot with fusedRaise := BitVec.ofNat 8 (max s.boot.fusedRaise.toNat (s.boot.version s.boot.bank)) } })
def execFwCommit (p : Path) (v : W64) (s : State) : Res := onUnit (isPath p) (s.writeAnswer p 0x2C30 3 v fwCommitEff)

/-! Frames, BIST, Memory Wafer, Swarm (R449, R453-R456) -/

/-- FRAME_RAISE (R449, step 4): the next Frame's rails ramp; after Frame 47 BIST begins. -/
def State.frameRaise (s : State) : State :=
  let f := s.boot.framesUp
  if s.stage ≠ 1 ∨ s.pwrState ≠ 1 ∨ 48 ≤ f then s
  else
    let s1 : State := { (s.rampUp [8 + f, 56 + f]) with boot := { s.boot with framesUp := f + 1 } }
    if f = 47 then s1.setObj 0 0x2C00 1 2 else s1
def execFrameRaise (s : State) : Res := .next s.frameRaise

/-- A defect found at start-up: logged, with its CPER record (R410, R453). -/
def State.startDefect (s : State) (f slot action sev : Nat) : State :=
  let r : Report := ⟨0xB006#16, 2, none, 10, combAt f (slot % 10), slot, 0, 0, 0⟩
  (s.report r).cperAdd r 0 action sev true
/-- Slots of a Frame with a rating, ascending. -/
def rated (rs : List SlotRating) (f : Nat) (k : DefectKind) : List Nat :=
  (List.range 11).filter (fun sl => rs.any (fun r => r.frame = f && r.slot = sl && r.kind = k))
/-- The remap of a Frame (R453): slot 10 replaces the lowest defective slot, else the lowest with an Engine defect; its region the
lowest defective region; the others are in Fallback or lost. A Frame without its rails is lost (R452). -/
def remapOf (rs : List SlotRating) (f : Nat) (rails : Bool) : Option Nat × Option Nat × List Nat × List Nat :=
  if !rails then (none, none, List.range 10, []) else
  let bad := rated rs f .comb
  let eng := (rated rs f .engine).filter (fun sl => !(bad.contains sl))
  let reg := rated rs f .region
  let d := bad.filter (· < 10)
  let e := eng.filter (· < 10)
  let g := reg.filter (· < 10)
  let cf := if bad.contains 10 || eng.contains 10 then none else match d.head? with | some x => some x | none => e.head?
  let rf := if reg.contains 10 then none else g.head?
  let lost := (List.range 10).filter (fun sl => (d.contains sl && cf != some sl) || (g.contains sl && rf != some sl))
  (cf, rf, lost, e.filter (fun sl => cf != some sl && !(lost.contains sl)))
/-- A Frame's rails: neither stage is off or locked out. -/
def State.railsUp (s : State) (f : Nat) : Bool := [8 + f, 56 + f].all (fun k => (s.conv k).st = 1 || (s.conv k).st = 2)
/-- Apply a Frame's remap: every Comb starts with zero state. -/
def State.remapFrame (s : State) (rs : List SlotRating) (f : Nat) : State :=
  let m := remapOf rs f (s.railsUp f)
  let x := s.frame f
  let spareBad := !(s.railsUp f) || (rated rs f .comb).contains 10 || (rated rs f .engine).contains 10
  let s1 := s.setFrame f { x with combFor := m.1, regionFor := m.2.1, spareBad := spareBad, regionBad := !(s.railsUp f) || (rated rs f .region).contains 10
                                  copyTo := none, railLost := !(s.railsUp f), pbPass := false }
  (List.range 10).foldl (fun s sl =>
    let fb := m.2.2.2.contains sl
    s.setComb (combAt f sl) { lost := m.2.2.1.contains sl, engDead := fb, live := { eng := { fallback := fb } } }) s1
/-- Action and severity of a defect's record under its Frame's remap (R411, R412). -/
def defectAction (m : Option Nat × Option Nat × List Nat × List Nat) (r : SlotRating) : Nat × Nat :=
  if m.2.2.1.contains r.slot then (4, 1)
  else match r.kind with
    | .region => if m.2.1 = some r.slot then (3, 3) else (0, 3)
    | _ => if m.1 = some r.slot then (2, 3) else if m.2.2.2.contains r.slot then (1, 3) else (0, 3)
def State.logDefects (s : State) (all rs : List SlotRating) : State :=
  rs.foldl (fun s r => let a := defectAction (remapOf all r.frame (s.railsUp r.frame)) r; s.startDefect r.frame r.slot a.1 a.2) s
/-- BIST_DONE (R453). -/
def State.bistDone (s : State) (rs : List SlotRating) : State :=
  if s.stage ≠ 2 then s else
  let s1 := ((List.range 48).foldl (fun s f => s.remapFrame rs f) s).logDefects rs rs
  State.setObj { s1 with boot := { s1.boot with ratings := rs, faultMap := rs } } 0 0x2C00 1 3
def execBistDone (rs : List SlotRating) (s : State) : Res :=
  onUnit (rs.all (fun r => isFrame r.frame && decide (r.slot < 11))) (s.bistDone rs)

/-- A region found defective by calibration: the spare region takes it where that is free, else its Comb is lost (R453, R455). -/
def State.regionBad (s : State) (f slot : Nat) : State :=
  let x := s.frame f
  if slot = 10 then
    let s1 := match x.regionFor with | some k => s.setComb (combAt f k) { s.comb (combAt f k) with lost := true } | none => s
    (s1.setFrame f { x with regionFor := none, regionBad := true }).startDefect f 10 (if x.regionFor.isSome then 4 else 0) (if x.regionFor.isSome then 1 else 3)
  else if x.regionFor.isNone && !x.regionBad then (s.setFrame f { x with regionFor := some slot }).startDefect f slot 3 3
  else (s.setComb (combAt f slot) { s.comb (combAt f slot) with lost := true }).startDefect f slot 4 1
/-- MW_CALIBRATE_DONE (R455): every region reads zero, with the check values of zero blocks; the channels are calibrated at Tj. -/
def State.mwCalibrated (s : State) (bad : List (Nat × Nat)) : State :=
  if s.stage ≠ 3 then s else
  let s1 : State := { s with combs := s.combs.map (fun (e : Nat × Comb) => (e.1, { e.2 with mw := {} })) }
  let s2 := (List.range 48).foldl (fun s f =>
    let ks := (List.range 11).filter (fun sl => bad.contains (f, sl))
    ks.foldl (fun s sl => s.regionBad f sl) (s.setFrame f { s.frame f with calTj := some (s.frame f).tj })) s1
  let more := bad.map (fun b => (⟨b.1, b.2, .region⟩ : SlotRating))
  State.setObj { s2 with boot := { s2.boot with ratings := s2.boot.ratings ++ more, badRegions := bad } } 0 0x2C00 1 4
def execMwCalibrateDone (bad : List (Nat × Nat)) (s : State) : Res :=
  onUnit (bad.all (fun r => isFrame r.1 && decide (r.2 < 11))) (s.mwCalibrated bad)

/-- Cell firmware is being distributed: at start, or again after a debug grant (R387, R457). -/
def State.swarming (s : State) : Bool := s.stage = 4 || s.dbgEnding
/-- SWARM_BROADCAST (R456, R457): at most 1 MiB, kept until the next. -/
def execSwarmBroadcast (fw : List Byte) (s : State) : Res :=
  .next (if s.swarming && decide (fw.length ≤ 0x100000) then { s with boot := { s.boot with swarm := fw, answered := [], retried := [], dead := [] } } else s)
/-- SWARM_ANSWER (R456): a slot that fails receives the firmware again; a second failure rates it defective, and R453 is applied again
to its Frame. -/
def State.swarmAnswer (s : State) (f slot : Nat) (pass : Bool) : State :=
  let b := s.boot
  if !s.swarming ∨ b.dead.contains (f, slot) then s
  else if pass then { s with boot := { b with answered := if b.answered.contains (f, slot) then b.answered else b.answered ++ [(f, slot)] } }
  else if !(b.retried.contains (f, slot)) then { s with boot := { b with retried := b.retried ++ [(f, slot)] } }
  else
    let r : SlotRating := ⟨f, slot, .comb⟩
    let rs := b.ratings ++ [r]
    let s1 : State := { s with boot := { b with ratings := rs, faultMap := rs, dead := b.dead ++ [(f, slot)] } }
    (s1.remapFrame rs f).logDefects rs [r]
def execSwarmAnswer (f slot : Nat) (pass : Bool) (s : State) : Res :=
  onUnit (isFrame f && decide (slot < 11)) (s.swarmAnswer f slot pass)

/-- Milliseconds from power-good, counted by TS at one count in 48 of RCLK (R440). -/
def State.msSince (s : State) : Nat := 48 * s.ts.toNat / (1000 * max 1 s.refs.rclkNow)
/-- MODULE_READY (R449, step 8). The event's code is one that no rule gives (log entry 54). -/
def State.ready (s : State) : State :=
  if s.stage ≠ 4 ∨ s.pwrState ≠ 1 then s else
  let s1 := ((s.setObj 0 0x2C00 1 5).setObj 0 0x2100 8 2).setObj 0 0x2C00 2 (s.msSince % 2 ^ 32)
  let d := s1.draw
  let s2 := d.2.event none (d.1.setWidth 16) 0 0 0
  if s2.power.causes = 0 then s2 else (s2.setObj 0 0x2100 8 3).floorGate
def execModuleReady (s : State) : Res := .next s.ready

/-! Link bring-up (R458) -/

/-- The optics of a port are on. -/
def State.optOn (s : State) (p : Nat) : Bool := (s.conv (106 + p)).st = 2
/-- PORT_LIGHT_RECEIVED (R458): the lanes that pass become active, and the port keys; with fewer than 8 it is down. -/
def State.portLight (s : State) (p : Nat) (lanes : List Nat) : State :=
  let t := s.port p
  if !(s.optOn p) ∨ (t.st ≠ 0 ∧ t.st ≠ 1) then s else
  let ok := (List.range 96).filter (fun l => lanes.contains l)
  let s1 := s.setPort p { t with light := true, lanes := ok.map (fun l => (l, 2)) }
  if ok.length < 8 then s1.portDown p else (s1.setPort p { s1.port p with st := 2 }).kxStart p
def execPortLightReceived (p : Nat) (lanes : List Nat) (s : State) : Res := onUnit (isTyPort p) (s.portLight p lanes)
/-- PORT_UNCONNECTED (R458): no light for 20 s. -/
def execPortUnconnected (p : Nat) (s : State) : Res :=
  onUnit (isTyPort p) (if (s.port p).st = 1 && !(s.port p).light then s.setPort p { s.port p with st := 0, lanes := [] } else s)
/-- PORT_TRAIN_RETRY (R458): a port that is down trains again, while its optics are on. -/
def execPortTrainRetry (p : Nat) (s : State) : Res :=
  onUnit (isTyPort p)
    (if (s.port p).st = 4 && s.optOn p then s.setPort p { s.port p with st := 1, lanes := (List.range 96).map (fun l => (l, 1)), light := false } else s)

/-! The roll call -/

/-- The effect of a write of `ROLL_PLAN` (R460): ports that are up are checked, and root starts the roll call. -/
def rollPlanEff (p : Path) (v : W64) : Eff := Eff.ok (fun s =>
  let s1 := s.storeObj p 0x2C10 1 v
  let s2 := ((List.range 6).filter (fun q => (s1.port q).st = 3)).foldl (fun s q => s.sendCheck q) s1
  s2.rollBegin)
/-- ROLL_PLAN_WRITE (R460). -/
def execRollPlanWrite (p : Path) (v : W64) (s : State) : Res := onUnit (isPath p) (s.writeAnswer p 0x2C10 1 v (rollPlanEff p v))

/-- The four tests of R461. -/
def State.neighbourOk (s : State) (p : Nat) (x : Neighbour) : Bool :=
  x.sizes % 2 ^ 14 = fld s.plan 14 14 && x.rclk = s.refs.rclkNow && x.port = (if p % 2 = 0 then p + 1 else p - 1) && x.coord % 2 ^ 14 = s.peerModule p
/-- NEIGHBOUR_CHECK (R461): without a plan the answer is "no plan"; a port that fails is taken down, with its bit in `ROLL_STATUS`; one that
passes takes a token that waited for it (R462). -/
def State.neighbour (s : State) (p : Nat) (x : Neighbour) : State :=
  if (s.port p).st ≠ 3 then s
  else if !s.hasPlan then s.sendCheck p
  else if x.noPlan then s
  else if s.neighbourOk p x then
    let s1 := s.setPort p { s.port p with checked := true, failed := false }
    let v := s1.obj 0 0x2C10 3 0
    let s2 := if bit v (19 + p) then s1.setObj 0 0x2C10 3 (v - 2 ^ (19 + p)) else s1
    if s.boot.running && !(s.port p).checked && s.boot.asked.contains p then s2.sendToken p else s2
  else
    let s1 := s.portDown p
    let s2 := s1.setPort p { s1.port p with failed := true }
    let v := s2.obj 0 0x2C10 3 0
    if bit v (19 + p) then s2 else s2.setObj 0 0x2C10 3 (v + 2 ^ (19 + p))
def execNeighbourCheck (p : Nat) (peer : Neighbour) (s : State) : Res := onUnit (isTyPort p) (s.neighbour p peer)

/-- ROLL_TOKEN (R462, R463): the first token of a roll call is taken and forwarded, with 1 ms less; others are held. -/
def State.rollToken (s : State) (p remain : Nat) : State :=
  if !(s.portPasses p) then s
  else if s.boot.running then s.out (.keeper p kHeld [])
  else
    let s1 : State := { s with boot := { s.boot with parent := some p, isRoot := false, running := true, reported := false, remain := remain - 1 } }
    ((s1.setRoll 2 0).out (.keeper p kTaken [])).forwardTokens
def execRollToken (p remain : Nat) (s : State) : Res := onUnit (isTyPort p) (s.rollToken p remain)
/-- ROLL_REPORT (R462): `n` modules in the subtree of port `p`; 0 is the answer "held" (log entry 55). -/
def State.rollReport (s : State) (p n : Nat) : State :=
  if !s.boot.running ∨ s.boot.reported ∨ !(s.boot.asked.contains p) then s
  else
    let b := { s.boot with asked := s.boot.asked.filter (· != p), counted := s.boot.counted + n, kids := if n = 0 then s.boot.kids else s.boot.kids ++ [p] }
    let s1 : State := { s with boot := b }
    if b.asked.isEmpty then s1.rollReported else s1
def execRollReport (p n : Nat) (s : State) : Res := onUnit (isTyPort p) (s.rollReport p n)
/-- ROLL_DEADLINE (R463): children that have not reported count as absent. -/
def execRollDeadline (s : State) : Res := .next (if s.boot.running && !s.boot.reported then s.rollReported else s)
/-- ROLL_COUNT (R463, R499): the count from the parent, with its TS; the step of TS is traced. -/
def State.rollCount (s : State) (n : Nat) (pts : W64) : State :=
  if !s.boot.running ∨ s.boot.parent.isNone then s else
  let d : Int := (pts.toNat : Int) - s.ts.toNat
  let arg := twos 32 (max (-(2 : Int) ^ 31) (min (2 ^ 31 - 1) d))
  let s1 : State := { s with ts := pts }
  ((List.range 480).foldl (fun s c => s.trace c 13 6 0 arg) s1).rollEnd n
def execRollCount (n : Nat) (pts : W64) (s : State) : Res := .next (s.rollCount n pts)
/-- ROLL_START (R463): accepted only at (0, 0, 0). -/
def rollStartEff : Eff := fun s => if s.isOrigin then (none, s.rollBegin) else (some badState, s)
def execRollStart (p : Path) (v : W64) (s : State) : Res := onUnit (isPath p) (s.writeAnswer p 0x2C10 4 v rollStartEff)

/-- TS_SYNC_TICK (R499): the parent's TS; at most one count in 2,500 SCLK is added or held. -/
def State.tsSync (s : State) (pts : W64) : State :=
  let due := match s.boot.slewAt with | some t => decide (2500 ≤ (s.ts - t).toNat) | none => true
  if !s.boot.rolled ∨ s.boot.parent.isNone ∨ pts = s.ts ∨ !due then s
  else if s.ts < pts then { s with ts := s.ts + 1, boot := { s.boot with slewAt := some s.ts } }
  else { s with boot := { s.boot with slewAt := some s.ts, tsHold := true } }
def execTsSyncTick (pts : W64) (s : State) : Res := .next (s.tsSync pts)

/-! Maintenance (R465-R471) -/

/-- The target of a request exists, and its class is one the operator may ask for (R471). -/
def maintReqOk (v : Nat) : Bool :=
  let m : Maint := { ticket := 0, cls := v % 8, deferred := false, scope := fld v 3 20 }
  let combOk := (combOfField (fld v 3 10)).isSome
  match m.cls with
  | 0 => combOk && m.tgt = 6
  | 1 => if m.tgt = 6 then combOk && decide (m.lane < 16) else decide (m.tgt < 6 ∧ m.lane < 96)
  | 4 => combOk && decide (m.tgt ≠ 7)
  | _ => false
/-- The effect of a write of `MAINT_REQ` (R467, R471). -/
def maintReqEff (v : W64) : Eff := fun s =>
  let w := v.toNat
  if !(maintReqOk w) then (some badValue, s)
  else match s.maintAsk { ticket := 0, cls := w % 8, deferred := false, scope := fld w 3 20 } with
    | (none, s1) => (some badState, s1.maintResult s1.ticket 2 0xC00E)
    | (some e, s1) => (none, s1.maintResult e.ticket (b2n e.deferred) 0)
/-- MAINT_REQ (R467). -/
def execMaintReq (p : Path) (v : W64) (s : State) : Res := onUnit (isPath p) (s.writeAnswer p 0x2C20 1 v (maintReqEff v))

/-- MAINT_ACTIVITY_END (R467): a scrub pass, a retrain or a firmware update ends; other classes end by commands of their own, unless
they fail. -/
def State.activityEnd (s : State) (t : Nat) (ok : Bool) : State :=
  match s.maint.find? (fun e => e.ticket = t && !e.deferred) with
  | none => s
  | some e =>
    if ok && [2, 4, 5].contains e.cls then s else
    let s1 := if !ok then s
      else if e.cls = 0 then s.scrubPass e.comb
      else if e.cls = 3 then (match s.dom 0 0x2C30 1 with | [] => s | img => (s.storeImage (!s.boot.bank) img).setDom 0 0x2C30 1 [])
      else s
    (s1.maintEnd t).maintResult t (if ok then 3 else 4) 0
def execMaintActivityEnd (t : Nat) (ok : Bool) (s : State) : Res := .next (s.activityEnd t ok)

/-- The remap that runs over a Comb, or over its region. -/
def State.remapEntry (s : State) (c : Nat) (region : Bool) : Option Maint :=
  s.maint.find? (fun e => e.cls = 4 && !e.deferred && e.comb = c && (e.tgt = 6) == region)
/-- A record of a remap (R469). -/
def State.remapRecord (s : State) (c action : Nat) : State := s.cperAdd ⟨0xB006#16, 2, none, 10, c, 0, 0, 0, 0⟩ 2 action 2 false
/-- The spare takes a Comb that nobody owns, with zero state; or the Combs of a Frame whose rail is back return after a passing pattern
bundle (R469). -/
def State.remapComb (s : State) (c : Nat) : Option State :=
  let f := frameOf c
  let x := s.frame f
  if x.railLost && x.pbPass && s.frameOn f then
    some (((frameCombs f).foldl (fun s d => s.setComb d { (s.comb d) with lost := false }) (s.setFrame f { x with railLost := false })).remapRecord c 2)
  else if s.spareFree f && s.frameOn f then
    let m := s.comb c
    some (((s.setComb c { m with live := {}, lost := false, engDead := false, failing := false, misses := 0 }).setFrame f
      { x with combFor := some (slotOf c) }).remapRecord c 2)
  else none
/-- SPARE_REMAP (R469): a Comb moves at once; a region begins to be copied. -/
def State.spareRemap (s : State) (c : Nat) (region : Bool) : State :=
  let s0 := s.maintKick
  match s0.remapEntry c region with
  | none => s
  | some e =>
    if region then
      (if s0.regionFree (frameOf c) then s0.setFrame (frameOf c) { s0.frame (frameOf c) with copyTo := some (slotOf c) }
       else (s0.maintEnd e.ticket).maintResult e.ticket 4 0)
    else match s0.remapComb c with
      | some s1 => (s1.maintEnd e.ticket).maintResult e.ticket 3 0
      | none => (s0.maintEnd e.ticket).maintResult e.ticket 4 0
def execSpareRemap (c : Nat) (region : Bool) (s : State) : Res := onUnit (isComb c) (s.spareRemap c region)
/-- SPARE_REGION_COPY_DONE (R469): the spare region takes over what was read corrected from the old one. -/
def State.regionCopied (s : State) (f : Nat) : State :=
  let x := s.frame f
  match x.copyTo with
  | none => s
  | some sl =>
    let c := combAt f sl
    let m := s.comb c
    let ecc := m.mw.mem.ecc.filter (fun (e : Nat × Nat) => decide (3 < e.2))
    let s1 := (s.setComb c { m with mw := { m.mw with mem := { m.mw.mem with ecc := ecc }, corrPasses := [], spareRows := [], laneSpare := [] } }).setFrame f
      { x with copyTo := none, regionFor := some sl }
    match s1.remapEntry c true with
    | some e => ((s1.remapRecord c 3).maintEnd e.ticket).maintResult e.ticket 3 0
    | none => s1.remapRecord c 3
def execSpareRegionCopyDone (f : Nat) (s : State) : Res := onUnit (isFrame f) (s.regionCopied f)

end Sys2Proof.Machine
end

