-- ==== Sys2Proof/Machine/Values.lean ====
section
/-! DEFINITION. What every dictionary object reads as (R447, R454, R471, R479-R497, R529 and the tables of the chapters that R497 names).
An object whose home is another part of the state is computed from it. -/

namespace Sys2Proof.Machine

open Sys2Proof

/-- A field that no command measures (log entry 56). -/
def State.tele (s : State) (idx sub w : Nat) : Nat := (Config.telemetry idx sub s.outs.length).toNat % 2 ^ w

/-! Defaults -/

/-- The value of an object that was never written (the tables' Default column). -/
def State.objDefault (s : State) (idx sub : Nat) : Nat :=
  let k := s.mgmt.node
  match objBase idx with
  | 0x1014 => 0x80 + k
  | 0x1015 => 10
  | 0x1017 => 1000
  | 0x1200 => if sub = 1 then 0x600 + k else 0x580 + k
  | 0x1800 =>
    let n := idx - 0x1800
    if sub = 1 then 0x180 + 0x100 * n + k + (if n = 0 then 0 else 2 ^ 31) else if sub = 2 then 254 else 100
  | 0x1A00 => if idx = 0x1A00 then lget 0 [0x21000220, 0x21000808, 0x21000A08, 0x22000110] (sub - 1) else 0
  | 0x2010 => lget 0 [0x7F, 1, 1, 3] (sub - 1)
  | 0x2100 => if sub = 4 then capW else if sub = 7 then 0x24 else if sub = 9 then 1000 else 0
  | 0x2200 => if sub = 2 then 90 else 0
  | 0x2300 => if sub = 1 then ceilingMHz else if sub = 8 then 0x30 else 0
  | 0x2500 => if sub = 1 then 5 else if sub = 2 then 50 else 0
  | 0x2501 => 0x6000
  | 0x2701 => if sub = 1 then 100 else 0
  | 0x2C10 => if sub = 2 then 85 else 0
  | 0x2D00 => if sub = 12 then 1 else 0
  | _ => 0

/-! Words -/

/-- `IBC_STATUS` and `POL_STATUS` (R447); the measured field is not the model's. -/
def State.convStatus (s : State) (k idx sub : Nat) : Nat :=
  let v := s.conv k
  v.st % 4 + v.retries % 4 * 4 + b2n v.alert * 16 + s.tele idx sub 16 * 65536
/-- `REF_STATE` (R447). -/
def Refs.word (r : Refs) : Nat := b2n r.inUse + r.stA % 4 * 2 + r.stB % 4 * 8
/-- `HL_STATE` (R496). -/
def State.hlState (s : State) (p : Nat) : Nat :=
  let h := s.hlp p
  h.st % 8 + h.rate % 8 * 8 + h.lanes % 32 * 64 + b2n h.ideOn * 2048 + (if h.st = 2 then s.tele (0x2400 + p) 1 1 * 4096 else 0) + b2n h.refSrc * 8192
/-- `TY_LANE` and `TY_STATUS` (R340). -/
def TyPort.laneWordOf (t : TyPort) (l : Nat) : Nat := tget 0 t.lanes l % 4 + min 65535 (tget 0 t.corr l) * 65536
def TyPort.status (t : TyPort) : Nat :=
  t.st % 8 + t.active % 128 * 8 + b2n t.kph * 1024 + b2n t.onOff * 2048 + (if t.st = 3 then max 48 (min 96 t.gov) * 4096 else 0)
/-- `CTX_STATE` (R352). -/
def Ctx.word (x : Ctx) : Nat :=
  x.st % 8 + b2n x.resident * 8 + b2n x.wasReset * 16 + x.x0 % 64 * 32 + x.y0 % 16 * 2048 + x.wM1 % 64 * 32768 + x.hM1 % 16 * 2 ^ 21 + b2n x.paired * 2 ^ 25
/-- `SEC_STATE` (R389). -/
def State.secState (s : State) : Nat :=
  (match s.grant with | some g => if g.pending then 0 else g.kind % 4 | none => 0) + b2n s.dbgEnding * 4 + s.obj 0 0x2810 1 0 % 4 * 8
  + ((List.range 16).map (fun n => b2n (s.ctx n).tdbg * 2 ^ (8 + n))).foldl (· + ·) 0 + s.boot.version s.boot.bank % 256 * 2 ^ 24
/-- A converter stage is off or locked out (R484). -/
def State.someConvOff (s : State) : Bool := (List.range 113).any (fun k => (s.conv k).st = 0 || (s.conv k).st = 3)
/-- `ERROR_REGISTER` (R484). -/
def State.errorRegister (s : State) : Nat :=
  let b1 := s.pwrState = 3 && bit s.power.causes 4
  let b2 := s.someConvOff
  let b3 := s.frames.any (fun (e : Nat × Frame) => decide (e.2.duty < 16)) || (s.pwrState = 3 && (bit s.power.causes 2 || bit s.power.causes 3))
  let b4 := (List.range 6).any (fun p => (s.port p).st = 4) || [0, 1].any (fun p => (s.hlp p).st = 0)
  let b7 := s.combs.any (fun (e : Nat × Comb) => e.2.lost || e.2.live.eng.fallback)
  b2n (b1 || b2 || b3 || b4 || b7) + b2n b1 * 2 + b2n b2 * 4 + b2n b3 * 8 + b2n b4 * 16 + b2n b7 * 128
/-- `ROLL_STATUS` (R460, R463). -/
def State.rollStatus (s : State) : Nat :=
  let v := s.obj 0 0x2C10 3 0
  if s.boot.fw && !s.hasPlan then v / 8 * 8 + 1 else v
/-- `MAINT_ENTRY` (R471). -/
def Maint.word (m : Maint) : Nat := m.ticket % 256 + m.cls % 8 * 256 + b2n m.deferred * 2048 + m.scope % 2 ^ 20 * 65536
/-- `PB_STATUS` (R418). -/
def State.pbWord (s : State) : Nat := if s.maint.any (fun m => m.cls = 2 && !m.deferred) then 1 else s.obj 0 0x2910 4 0
/-- `FW_STATE` (R471). -/
def Boot.word (b : Boot) : Nat :=
  b.version false % 256 + b.version true % 256 * 256 + b.minimum % 256 * 65536 + b2n b.bank * 2 ^ 24 + b2n b.nextBank * 2 ^ 25
  + b2n (b.signed false) * 2 ^ 26 + b2n (b.signed true) * 2 ^ 27
/-- `MFP_IN` (R529): an output reads the level it drives; what stands at an input pin is not the model's. -/
def State.mfpIn (s : State) : Nat :=
  ((List.range 8).map (fun n =>
    let x := s.pinOf n
    let lvl := if x.parked || x.func = 1 || x.func = 4 then b2n x.level else s.tele 0x2D00 9 8 / 2 ^ n % 2
    lvl * 2 ^ n)).foldl (· + ·) 0
/-- `SVC_LEVELS` (R529): `RESET_N` is high while the Keeper answers. -/
def State.svcLevels (s : State) : Nat := b2n (!s.power.alertLow) + 2 + s.tele 0x2D00 15 1 * 4
/-- `POS_STATE` and `SPARE_STATE` (R454). -/
def State.posState (s : State) (f k : Nat) : Nat :=
  let m := s.comb (combAt f k)
  b2n (decide ((s.frame f).combFor = some k)) + b2n (decide ((s.frame f).regionFor = some k)) * 2 + b2n m.live.eng.fallback * 4 + b2n m.lost * 8
def State.spareState (s : State) (f : Nat) : Nat :=
  let x := s.frame f
  (if x.spareBad then 2 else if x.combFor.isSome then 1 else 0) + (if x.regionBad then 2 else if x.regionFor.isSome || x.copyTo.isSome then 1 else 0) * 4
/-- `CAN_ERR` (R479): the counters are not the model's. -/
def State.canErr (s : State) (sub : Nat) (off : Bool) : Nat := s.tele 0x2010 sub 16 + b2n off * 65536
/-- Instance of `PC_LATCH_TIME`: the caller's latch bank (R502, R503). -/
def latchInst (p : Path) : Nat := match p with | .tenant n => n + 1 | _ => 0

/-! Scalars -/

/-- The objects of R479 and R482. -/
def State.valCia (s : State) (idx sub : Nat) : Nat :=
  match idx with
  | 0x1000 => 0
  | 0x1001 => s.errorRegister
  | 0x1018 => lget 0 [0x0053444B, 0x40600000 + Config.variant.val, Config.revision.toNat, Config.dsn.toNat % 2 ^ 32] (sub - 1)
  | 0x2010 => if sub = 5 then s.canErr 5 s.mgmt.offA else if sub = 6 then s.canErr 6 s.mgmt.offB else s.obj 0 idx sub (s.objDefault idx sub)
  | _ => s.obj 0 idx sub (s.objDefault idx sub)
/-- The objects of R491, R495 and R447 with a home of their own; none: the written value. -/
def State.valModule (s : State) (p : Path) (idx sub : Nat) : Option Nat :=
  match idx with
  | 0x2000 => some (lget 0 [0, Config.variant.val, Config.dsn.toNat, ceilingMHz, capW, 0x00050C28, Config.hwRevision.toNat, Config.mfgDate.toNat] (sub - 1))
  | 0x2091 => if sub = 2 then some 0x00010000 else none
  | 0x2100 => if sub = 5 then some s.peakW else if sub = 10 then some s.power.causes else none
  | 0x2110 => some (s.convStatus (sub - 1) idx sub)
  | 0x2111 => some (s.convStatus (7 + sub) idx sub)
  | 0x2130 => some (if sub = 1 then 36000000 else if s.frames.any (fun (e : Nat × Frame) => e.2.spent) then 2
                    else if s.frames.any (fun (e : Nat × Frame) => decide (32400000 ≤ e.2.wear)) then 1 else 0)
  | 0x2131 => some (s.frame (sub - 1)).wear
  | 0x2200 => if sub = 1 then some (twos 64 (((List.range 48).map (fun f => (s.frame f).tj)).foldl max (s.frame 0).tj))
              else if sub = 3 ∨ sub = 4 then some (twos 64 (sgn 16 (s.obj 0 idx sub 0))) else if sub = 7 then some s.power.pcool else none
  | 0x2210 => some (twos 64 (s.frame (sub - 1)).tj)
  | 0x2211 => some (s.frame (sub - 1)).vcore
  | 0x2300 => if sub = 2 then some s.refs.rclkNow else if sub = 4 then some s.refs.word
              else if sub = 5 then some (twos 64 (sgn 32 (s.obj 0 idx sub 0))) else none
  | 0x2400 | 0x2401 =>
    let h := s.hlp (idx - 0x2400)
    some (lget 0 [s.hlState (idx - 0x2400), h.corr.toNat, h.uncorr.toNat, h.replay.toNat, h.bytesIn.toNat, h.bytesOut.toNat] (sub - 1))
  | 0x2A00 => if sub = 19 then some (s.obj (latchInst p) 0x2A00 19 0) else none
  | 0x2A10 => some (Config.energyCoeff sub).toNat
  | 0x2B01 => some s.ts.toNat
  | _ => none
/-- The objects of the fabric, memory, contexts, security and failures with a home of their own. -/
def State.valUnits (s : State) (idx sub : Nat) : Option Nat :=
  if 0x2510 ≤ idx ∧ idx ≤ 0x2515 then
    let t := s.port (idx - 0x2510)
    some (if sub = 0x61 then t.status else if sub = 0x62 then t.bad.toNat else t.laneWordOf (sub - 1))
  else if 0x2820 ≤ idx ∧ idx ≤ 0x282F then some (s.ctx (idx - 0x2820)).frzOver.toNat
  else if 0x3000 ≤ idx then
    let f := (idx - 0x3000) / 64
    some (if sub = 11 then s.spareState f else s.posState f (sub - 1))
  else match idx with
  | 0x2600 => if sub = 1 then some 5368709120 else if sub = 2 then some 125 else none
  | 0x2700 => some (s.ctx (sub - 1)).word
  | 0x2720 => some (s.ctx (sub - 1)).epOpen.toNat
  | 0x2721 => some (if sub ≤ 16 then (s.ctx (sub - 1)).epDone.toNat else (s.ctx (sub - 17)).cstat.toNat)
  | 0x2800 => some s.secState
  | 0x2830 => some s.opFrzOver.toNat
  | 0x2900 => if sub = 1 then some s.elog.length else none
  | 0x2910 => if sub = 4 then some s.pbWord else none
  | 0x2920 => if sub = 1 then some s.cper.length else none
  | 0x2C10 => if sub = 3 then some s.rollStatus else none
  | 0x2C21 => some (match s.maint[sub - 1]? with | some m => m.word | none => 0)
  | 0x2C30 => if sub = 2 then some s.boot.word else none
  | 0x2D00 => if sub = 9 then some s.mfpIn else if sub = 15 then some s.svcLevels else none
  | _ => none
/-- A listed scalar object, as its slot of 8 bytes shows it (R487): INTEGER values are sign-extended. Subindex 0 is the highest (R474). -/
def State.objVal (s : State) (p : Path) (idx sub : Nat) : Nat :=
  if idx < 0x2000 ∨ idx = 0x2010 then
    (if sub = 0 ∧ !((objOf idx).any (fun r => r.lo = 0)) then objHigh idx else s.valCia idx sub)
  else if sub = 0 then objHigh idx
  else match s.valModule p idx sub with
    | some v => v
    | none => match s.valUnits idx sub with
      | some v => v
      | none => s.obj (s.instOf p idx sub) idx sub (s.objDefault idx sub)

/-! Byte strings -/

def partNumber : List Byte := ascii (match Config.variant.val with | 0 => "BRW-4060" | 1 => "BRW-4060-M" | _ => "BRW-4060-L")
/-- An entry of a freeze table (R377). -/
def State.frzBytes (s : State) (n : Option Nat) (z : Frz) : List Byte :=
  if z.st = 0 then List.replicate 32 0 else
  leBytes 32 (z.code.toNat + (match z.master with | some m => masterField m | none => 0) % 2 ^ 14 * 65536 + z.st % 4 * 2 ^ 30
    + s.virtComb n z.comb % 1024 * 2 ^ 32 + z.epoch.toNat * 2 ^ 64 + z.time.toNat * 2 ^ 128 + z.addr.toNat * 2 ^ 192)
/-- A listed DOMAIN or VISIBLE_STRING object whose read changes nothing. -/
def State.domVal (s : State) (p : Path) (idx sub : Nat) : List Byte :=
  if 0x2820 ≤ idx ∧ idx ≤ 0x282F then s.frzBytes (some (idx - 0x2820)) (tget {} (s.ctx (idx - 0x2820)).frz sub)
  else match idx with
  | 0x1008 => ascii "Bolrath " ++ partNumber
  | 0x1009 => Config.hwVersionText
  | 0x100A => Config.swVersionText (s.boot.img s.boot.bank)
  | 0x2000 => partNumber
  | 0x2801 => (s.ctx (sub - 1)).tkey
  | 0x2805 => (s.ctx (sub - 1)).report
  | 0x2810 => s.dom 0 0x2810 2
  | 0x2830 => s.frzBytes none (tget {} s.opFrz sub)
  | 0x2850 => (tget {} s.spdm 2).rsp
  | 0x2900 => (match s.elog[s.obj (pathInst p) 0x2900 4 0]? with | some e => elogBytes e | none => List.replicate 64 0)
  | 0x2920 => lfit 0 16 Config.cperGuid
  | _ => s.dom (s.instOf p idx sub) idx sub

end Sys2Proof.Machine
end

