-- ==== Sys2Proof/Machine/Security.lean ====
section
/-! DEFINITION. Sessions and keys of the host link (R366-R368), measurements and context reports (R369, R370), tenant keys, challenges and
tokens (R378, R379), inspection and release of frozen masters (R380, R381), and debug grants (R383-R388). -/

namespace Sys2Proof.Machine

open Sys2Proof

/-! SPDM and IDE (R366-R369) -/

/-- The seven measurement blocks (R369). -/
def State.measurements (s : State) : List (List Byte) :=
  let image := match s.boot.img s.boot.bank with | some i => i | none => Config.bootRom
  let remap := (List.range 48).flatMap (fun f => (List.range 10).map (fun k => BitVec.ofNat 8 (s.posState f k)) ++ [BitVec.ofNat 8 (s.spareState f)])
  [Config.measure 1 Config.bootRom, Config.measure 2 (image ++ leBytes 1 (s.boot.version s.boot.bank)), Config.measure 3 s.boot.swarm,
   Config.measure 4 (s.dom 0 0x2910 1 ++ leBytes 4 (s.obj 0 0x2910 2 0)), Config.measure 5 remap, Config.sha384 (leBytes 4 s.secState),
   Config.measure 7 (leBytes 4 (s.obj 0 0x2810 1 0) ++ s.dom 0 0x2810 2)]

def State.spdmOf (s : State) (t : Nat) : Spdm := tget {} s.spdm t
def State.setSpdm (s : State) (t : Nat) (x : Spdm) : State := { s with spdm := tput s.spdm t x }
/-- Key sets of a port that a go or a stop names (R366). -/
def State.ideGoStop (s : State) (t : Nat) (req : List Byte) : State :=
  if 2 ≤ t then s else
  let h := s.hlp t
  match Config.ideGo req with
  | some (ks, sub) => if (tget [] h.ideKeys (ks % 2 * 3 + sub % 3)).isEmpty then s else s.setHlp t { h with ideOn := true }
  | none => match Config.ideStop req with
    | some _ => s.setHlp t { h with ideOn := false }
    | none => s
/-- The responder's answer; transport 2 is the Management Port's (R367). -/
def State.spdmTake (s : State) (t : Nat) (req : List Byte) (cosign : Bool) : State :=
  let x := s.spdmOf t
  let ans := if cosign then (match x.signed with | some tr => Config.spdmCosign tr | none => Config.spdmUnexpected)
             else Config.spdmAnswer s.fresh s.measurements.flatten req
  let ses := if cosign then x.session else if Config.spdmOpens req then true else if Config.spdmCloses req then false else x.session
  let sig := if cosign then none else if Config.spdmSigned ans then some (req ++ ans) else none
  let s1 := State.setSpdm { s with fresh := s.fresh + 1 } t { session := ses, signed := sig, rsp := lfit 0 (min ans.length 8192) ans, count := x.count + 1 }
  (if x.session then s1.ideGoStop t req else s1).out (.spdm t ans)
/-- SPDM over DOE needs its link; over the Management Port it is a write of `SPDM_REQ`. -/
def State.spdmVia (s : State) (t : Nat) (req : List Byte) (cosign : Bool) : State :=
  if 2 ≤ t then s.domAnswer .mgmt 0x2850 1 (fun s => if 4096 < req.length then (some badLength, s) else (none, s.spdmTake 2 req cosign))
  else if s.boot.fw && decide ((s.hlp t).st = 2 ∨ (s.hlp t).st = 3) then s.spdmTake t req cosign else s
/-- SPDM_REQUEST (R367). -/
def execSpdmRequest (t : Nat) (req : List Byte) (s : State) : Res := onUnit (decide (t < 3)) (s.spdmVia t req (Config.spdmIsCosign req))
/-- SPDM_COSIGN (R368). -/
def execSpdmCosign (t : Nat) (s : State) : Res := onUnit (decide (t < 3)) (s.spdmVia t [] true)
/-- IDE_KEY_PROG (R366): a key is taken only inside a secured session. -/
def execIdeKeyProg (p ks sub : Nat) (key : List Byte) (s : State) : Res :=
  onUnit (isHl p && decide (ks < 2 ∧ sub < 3))
    (if (s.spdmOf p).session then s.setHlp p { s.hlp p with ideKeys := tput (s.hlp p).ideKeys (ks * 3 + sub) key } else s)

/-! Context reports (R370) -/

/-- The report over a nonce. -/
def State.reportOf (s : State) (n : Nat) (nonce : List Byte) : List Byte :=
  let x := s.ctx n
  let body := leBytes 8 Config.dsn.toNat ++ leBytes 4 n ++ leBytes 4 (fld x.word 5 21) ++ lfit 0 48 (Config.sha384 (bytes32 x.mods))
    ++ (if x.tkey.isEmpty then List.replicate 48 0 else lfit 0 48 (Config.sha384 x.tkey)) ++ lfit 0 48 (Config.sha384 s.measurements.flatten)
    ++ leBytes 8 x.epOpen.toNat ++ leBytes 8 x.epDone.toNat ++ nonce
  body ++ lfit 0 96 (Config.signDikE body) ++ lfit 0 4627 (Config.signDikQ body)
/-- CTX_NONCE_WRITE (R370). -/
def ctxNonceEff (n : Nat) (nonce : List Byte) : Eff := fun s =>
  if nonce.length ≠ 32 then (some badLength, s) else (none, s.setCtx n { s.ctx n with report := s.reportOf n nonce })
def execCtxNonceWrite (n : Nat) (nonce : List Byte) (s : State) : Res :=
  onUnit (isCtx n) (s.domAnswer (.tenant n) 0x2804 (n + 1) (ctxNonceEff n nonce))

/-! Tenant keys and challenges (R378) -/

/-- TENANT_KEY_WRITE (R378): once, and a point of the curve. -/
def tenantKeyEff (n : Nat) (key : List Byte) : Eff := fun s =>
  if key.length ≠ 97 then (some badLength, s)
  else if !(s.ctx n).tkey.isEmpty ∨ !(Config.onCurve key) then (some (ownCode 0x8007), s)
  else (none, s.setCtx n { s.ctx n with tkey := key })
def execTenantKeyWrite (n : Nat) (key : List Byte) (s : State) : Res :=
  onUnit (isCtx n) (s.domAnswer (.tenant n) 0x2801 (n + 1) (tenantKeyEff n key))

/-- 32 fresh bytes (R363, R378). -/
def State.drawBytes (s : State) : List Byte × State := ((List.range 32).map (Config.randomByte s.fresh), { s with fresh := s.fresh + 1 })
/-- A read of a challenge voids the one before. -/
def challengeRd (n : Nat) : Rd := fun s =>
  let d := s.drawBytes
  (.ok (.bytes d.1), d.2.setCtx n { d.2.ctx n with chal := some d.1 })
/-- CHALLENGE_READ (R378). -/
def execChallengeRead (n : Nat) (s : State) : Res := onUnit (isCtx n) (s.readAnswer (.tenant n) 0x2802 (n + 1) (challengeRd n))
/-- CHALLENGE_LAPSE (R378): after 10 s; 16 is the debug challenge of R384. -/
def execChallengeLapse (n : Nat) (s : State) : Res :=
  onUnit (decide (n < 17)) (if n = 16 then { s with dbgChal := none } else s.setCtx n { s.ctx n with chal := none })

/-! Halts (R513, R514) -/

/-- Set or clear the halt of a unit, by kind, Comb and unit index (R500, R511). A halt inside a locked sequence rolls it back. -/
def State.setHalt (s : State) (kind c ix : Nat) (b : Bool) : State :=
  let a := s.area c
  match kind with
  | 0 =>
    let w := a.worker (ix / 5)
    let x := w.slot (ix % 5)
    if ix % 5 = 4 then s.setArea c (a.setWorker (ix / 5) { w with svcHalt := b })
    else s.setArea c (a.setWorker (ix / 5) (w.setSlot (ix % 5) { (if b then x.rollback else x) with halted := b }))
  | 1 =>
    let w := a.store (ix / 2)
    let g := tget {} w.gens (ix % 2)
    s.setArea c (a.setStore (ix / 2) { w with gens := tput w.gens (ix % 2) { g with halted := b } })
  | 3 => s.setArea c { a with eng := { a.eng with halted := b } }
  | _ => s.setArea c (a.setForager ix { a.forager ix with halted := b })
def State.dbgOf (s : State) (p : Path) : Dbg := tget {} s.dbg (pathInst p)
def State.setDbg (s : State) (p : Path) (d : Dbg) : State := { s with dbg := tput s.dbg (pathInst p) d }
/-- A grant ends: every master halted under it resumes (R514). -/
def State.resumeHalts (s : State) (p : Path) : State :=
  let d := s.dbgOf p
  (d.halts.foldl (fun s h => s.setHalt h.1 h.2.1 h.2.2 false) s).setDbg p { d with halts := [] }

/-! Tokens (R379-R381) -/

/-- The token's fields are right for context `n` (R379). -/
def tokenFields (n : Nat) (tok : List Byte) : Bool :=
  let b (i : Nat) : Nat := (lget 0 tok i).toNat
  decide (1 ≤ b 0 ∧ b 0 ≤ 5) && b 1 = n && (if b 0 ≤ 2 then decide (1 ≤ b 2 ∧ b 2 ≤ 16) else b 2 = 0)
    && ((tok.drop 3).take 5).all (· = 0) && leNat ((tok.drop 8).take 8) = Config.dsn.toNat
/-- What an accepted token does; none: its entry is not in the state it needs. -/
def State.tokenAct (s : State) (n : Nat) (tok : List Byte) : Option State :=
  let act := (lget 0 tok 0).toNat
  let e := (lget 0 tok 2).toNat
  let x := s.ctx n
  let z := tget {} x.frz e
  match act with
  | 1 => if z.st = 1 then some (s.setCtx n { x with frz := tput x.frz e { z with st := 2 } }) else none
  | 2 => if z.st = 0 then none else some (s.releaseEntry (some n) e)
  | 3 => some (s.releaseAll n)
  | 4 => some (s.setCtx n { x with tdbg := true })
  | _ => some (State.resumeHalts (s.setCtx n { x with tdbg := false }) (.tenant n))
/-- A token's checks in their order (R379); its challenge is used up whether it passes or not (R378). Tenant debug starts only for a
resident context and under no other grant (R383). -/
def tokenEff (n : Nat) (tok : List Byte) : Eff := fun s =>
  if tok.length ≠ 144 then (some badLength, s) else
  let x := s.ctx n
  let s1 := s.setCtx n { x with chal := none }
  let bad : Option Refuse × State := (some (ownCode 0x8005), s1)
  if !(tokenFields n tok) ∨ x.tkey.isEmpty ∨ x.chal ≠ some ((tok.drop 16).take 32)
    ∨ !(Config.verifyP384 x.tkey (Config.sha384 (tok.take 48)) (tok.drop 48)) then bad
  else if lget 0 tok 0 = 4 ∧ (!x.resident ∨ s.grant.isSome) then (some badState, s1)
  else match s1.tokenAct n tok with
    | some s2 => (none, s2)
    | none => (some (ownCode 0x8008), s1)
/-- A token written to `TOKENn`; the command is that of its action, and one whose byte names no action belongs to each. -/
def State.token (s : State) (act n : Nat) (tok : List Byte) : State :=
  let b := (lget 0 tok 0).toNat
  if b ≠ act ∧ 1 ≤ b ∧ b ≤ 5 ∧ tok.length = 144 then s else s.domAnswer (.tenant n) 0x2803 (n + 1) (tokenEff n tok)
/-- TOKEN_OPEN_ENTRY (R379, R380). -/
def execTokenOpenEntry (n : Nat) (tok : List Byte) (s : State) : Res := onUnit (isCtx n) (s.token 1 n tok)
/-- TOKEN_RELEASE_ENTRY (R379, R381). -/
def execTokenReleaseEntry (n : Nat) (tok : List Byte) (s : State) : Res := onUnit (isCtx n) (s.token 2 n tok)
/-- TOKEN_RELEASE_ALL (R379, R381). -/
def execTokenReleaseAll (n : Nat) (tok : List Byte) (s : State) : Res := onUnit (isCtx n) (s.token 3 n tok)
/-- TOKEN_TENANT_DEBUG_START (R379, R388). -/
def execTokenTenantDebugStart (n : Nat) (tok : List Byte) (s : State) : Res := onUnit (isCtx n) (s.token 4 n tok)
/-- TOKEN_TENANT_DEBUG_END (R379, R388). -/
def execTokenTenantDebugEnd (n : Nat) (tok : List Byte) (s : State) : Res := onUnit (isCtx n) (s.token 5 n tok)

/-! Inspection (R380): regions in the order the rule lists their parts (log entry 57) -/

def WSlot.region (x : WSlot) (r : Nat) : List Byte :=
  if r = 0 then bytes32 ((List.range 32).map (fun i => tget 0 x.sregs i)) ++ leBytes 4 x.pc ++ bytes32 [x.fault] ++ leBytes 8 x.rng.toNat
  else if r = 1 then bytes32 ((List.range 256).map (fun i => tget 0 x.vregs i))
  else []
def tileBytes : Option WTile → List Byte
  | none => []
  | some t => leBytes 16 (t.group + t.nt * 2 ^ 32 + t.kc * 2 ^ 64 + b2n t.lo * 2 ^ 96) ++ t.elems.flatMap (fun w => leBytes 8 (w.k + w.n * 2 ^ 16 + w.code * 2 ^ 32 + w.scale * 2 ^ 40))
/-- 256 bytes from `off` of a region of an Engine slot. -/
def Engine.region (e : Engine) (sl r off : Nat) : List Byte :=
  let x := tget {} e.runs sl
  let cut (l : List Byte) : List Byte := lfit 0 256 (l.drop off)
  if r = 0 then cut (bytes32 ([e.cqTail, e.cqHead, e.cqBase, e.cqSize, e.xbias, e.slotFault].map (fun t => tget 0 t sl))
    ++ (if (e.runs.any (fun q => q.1 = sl)) then bytes32 ([x.group, x.segment, x.mt, x.nt, x.kc, x.kseg, x.pass, x.pos, x.bank].map (BitVec.ofNat 32 ·)) else []))
  else if r = 1 then cut (if e.active = some sl then tileBytes e.weights else [])
  else if r = 2 then cut (if e.active = some sl then tileBytes e.shadow else [])
  else if r = 3 then
    (if e.active = some sl then bytes32 ((List.range 64).map (fun i => if off / 4 + i < 524288 then tget 0 e.acc (x.bank * 524288 + off / 4 + i) else 0))
     else List.replicate 256 0)
  else if r = 4 then cut (e.gq.flatMap (fun g => leBytes 4 g.group ++ bytes32 g.words))
  else List.replicate 256 0
def Forager.region (f : Forager) (r : Nat) : List Byte :=
  if r = 0 then (List.range 64).flatMap (fun k =>
    match f.slots.find? (fun q => q.1 = k) with
    | some q => lfit 0 64 (bytes32 q.2.desc) ++ leBytes 8 q.2.unitIx
    | none => List.replicate 72 0)
  else []
/-- The 256 bytes that `FRZ_SEL` names, live or from the save image; none: the entry is not open. -/
def State.frzData (s : State) (n : Nat) : Option (List Byte) :=
  let v := s.obj 0 0x2806 (n + 1) 0
  let z := tget {} (s.ctx n).frz (v % 16 + 1)
  let r := fld v 4 4
  let off := 256 * (v / 256)
  let cut (l : List Byte) : List Byte := lfit 0 256 (l.drop off)
  if z.st ≠ 2 then none else
  match z.master with
  | some (.worker c k sl) => some (cut ((((s.areaOf n c).worker k).slot sl).region r))
  | some (.engine c sl) => some ((s.areaOf n c).eng.region sl r off)
  | some (.forager c f) => some (cut (((s.areaOf n c).forager f).region r))
  | _ => some (List.replicate 256 0)
def frzDataRd (n : Nat) : Rd := fun s =>
  match s.frzData n with
  | some b => (.ok (.bytes b), s)
  | none => (.error (ownCode 0x8008), s)
/-- FRZ_DATA_READ (R380). -/
def execFrzDataRead (n : Nat) (s : State) : Res := onUnit (isCtx n) (s.readAnswer (.tenant n) 0x2807 (n + 1) (frzDataRd n))

/-- The effect of a write of `OP_FRZ_RELEASE` (R381): the entry number, without a token. -/
def opFrzReleaseEff (v : W64) : Eff := fun s =>
  let i := v.toNat
  if i = 0 ∨ 16 < i then (some badValue, s)
  else if (tget {} s.opFrz i).st = 0 then (some (ownCode 0x8008), s)
  else (none, s.releaseEntry none i)
/-- OP_FRZ_RELEASE (R381). -/
def execOpFrzRelease (p : Path) (v : W64) (s : State) : Res := onUnit (isPath p) (s.writeAnswer p 0x2830 18 v (opFrzReleaseEff v))

/-! Debug grants (R383-R388) -/

/-- DBG_CHALLENGE_READ (R384). -/
def dbgChallengeRd : Rd := fun s => let d := s.drawBytes; (.ok (.bytes d.1), { d.2 with dbgChal := some d.1 })
def execDbgChallengeRead (p : Path) (s : State) : Res := onUnit (isPath p) (s.readAnswer p 0x2840 1 dbgChallengeRd)

/-- Every memory of every Comb and region is zero-filled, and what a context held there is gone (R385, R387). -/
def State.zeroAll (s : State) : State :=
  { s with combs := s.combs.map (fun (e : Nat × Comb) =>
      let m := e.2
      (e.1, { m with live := m.live.zeroed false, saved := [], mw := { m.mw with mem := {} }, landing := [], ctrOps := [], watches := [], swBuf := [] })) }
/-- Fields, serial number, challenge, expiry and signatures of a grant (R384, R385). -/
def grantOk (g : List Byte) (chal : Option (List Byte)) : Bool :=
  let kind := (lget 0 g 0).toNat
  let exp := leNat ((g.drop 4).take 4)
  (kind = 1 || kind = 2) && g.length = (if kind = 1 then 64 else 4787) && ((g.drop 1).take 3).all (· = 0) && ((g.drop 48).take 16).all (· = 0)
    && decide (60 ≤ exp ∧ exp ≤ 259200) && leNat ((g.drop 8).take 8) = Config.dsn.toNat && chal = some ((g.drop 16).take 32)
    && (kind = 1 || Config.vendorSigned g)
/-- The effect of a write of `DBG_GRANT` (R385): a failure shows in `DBG_RESULT`; a second grant replaces the first without a further
zeroisation (R386). -/
def dbgGrantEff (g : List Byte) : Eff := fun s =>
  let pend := match s.grant with | some q => q.pending | none => false
  if pend || s.dbgEnding then (some badState, s)
  else
    let s1 : State := { s with dbgChal := none }
    if !(grantOk g s.dbgChal) then (none, (s1.setObj 0 0x2840 4 0x8006).report ⟨0x8006#16, 2, none, 7, 0, 0, 0, 0, 0⟩)
    else
      let q : Grant := ⟨(lget 0 g 0).toNat, leNat ((g.drop 4).take 4), s.grant.isNone⟩
      if s.grant.isSome then (none, ({ s1 with grant := some q }).setObj 0 0x2840 4 0)
      else (none, (({ s1 with grant := some q }).setObj 0 0x2840 4 65536).destroyAll 0x8009#16)
/-- DBG_GRANT (R384, R385). -/
def execDbgGrant (p : Path) (g : List Byte) (s : State) : Res := onUnit (isPath p) (s.domAnswer p 0x2840 2 (dbgGrantEff g))
/-- DBG_GRANT_FILL_DONE (R385, steps 4 and 5): the contexts are gone and everything is zero; the debug path opens. -/
def execDbgGrantFillDone (s : State) : Res :=
  .next (match s.grant with
    | some q => if q.pending then State.setObj { (s.eventFlush.destroyAllEnd.zeroAll) with grant := some { q with pending := false } } 0 0x2840 4 0 else s
    | none => s)
/-- A vendor or operator grant ends (R387): halts end, everything is zero-filled, and firmware is reloaded. -/
def State.grantEnd (s : State) : State :=
  match s.grant with
  | none => s
  | some _ =>
    let s1 := [Path.mgmt, .hl 0, .hl 1, .jtag].foldl (fun s p => s.resumeHalts p) s.destroyAllEnd
    { s1.zeroAll with grant := none, dbgEnding := true }
/-- DBG_END (R387). -/
def execDbgEnd (p : Path) (v : W64) (s : State) : Res := onUnit (isPath p) (s.writeAnswer p 0x2840 3 v (Eff.ok State.grantEnd))
/-- DBG_GRANT_EXPIRE (R387). -/
def execDbgGrantExpire (s : State) : Res := .next s.grantEnd
/-- DBG_ENDING_DONE (R387): the firmware is reloaded and verified; until then context creation stays refused. -/
def execDbgEndingDone (ok : Bool) (s : State) : Res :=
  .next (if !s.dbgEnding then s else if ok then { s with dbgEnding := false } else s.report ⟨0x8006#16, 2, none, 7, 0, 0, 0, 0, 0⟩)

end Sys2Proof.Machine
end

