-- ==== Sys2Proof/Machine/Counters.lean ====
section
/-! DEFINITION. Performance counters (R500-R504), trace buffers and their writer (R505-R507), clock gating of units (R509), and the
receive groups of Scheduled Links (R309). -/

namespace Sys2Proof.Machine

open Sys2Proof

/-! Which counters there are (R500) -/

/-- Units of a kind, ascending. -/
def perfUnits (kind : Nat) : List Nat :=
  match kind with
  | 0 => (List.range 640).flatMap (fun k => if isStore k then [] else (List.range 5).map (· + 5 * k))
  | 1 => (List.range 640).flatMap (fun k => if isStore k then (List.range 2).map (· + 2 * k) else [])
  | 2 => (List.range 640).flatMap (fun k => (List.range 4 ++ (if isStore k then [] else [4]) ++ (if isEdge k then [5] else [])).map (· + 8 * k))
  | 3 => [0]
  | 4 => List.range 4
  | 5 => [0]
  | 6 => List.range 34
  | _ => []
/-- Counters of a unit of a kind. -/
def perfCount (kind : Nat) : Nat := lget 0 [9, 6, 2, 9, 6, 3, 5] kind
/-- The unit and counter exist. -/
def perfExists (kind unit ix : Nat) : Bool :=
  decide (ix < perfCount kind) &&
  (match kind with
   | 0 => decide (unit < 3200) && !isStore (unit / 5)
   | 1 => decide (unit < 1280) && isStore (unit / 2)
   | 2 => decide (unit < 5120) && (decide (unit % 8 < 4) || (unit % 8 = 4 && !isStore (unit / 8)) || (unit % 8 = 5 && isEdge (unit / 8)))
   | 3 => unit = 0
   | 4 => decide (unit < 4)
   | 5 => unit = 0
   | 6 => decide (unit < 34)
   | _ => false)

/-- The Comb a caller's 10-bit field names: virtual in a tenant's partition, logical for the operator (R6, R502). -/
def State.callerComb (s : State) (p : Path) (v : Nat) : Option Nat :=
  match p with
  | .tenant n => (match s.toComb (some n) (v / 16 % 64) (v % 16) with | .ok c => some c | .error _ => none)
  | _ => combOfField v

/-! Banks (R503) -/

/-- Live counters a caller may read of a Comb, and its latch bank there. -/
def State.perfOf (s : State) (p : Path) (c : Nat) : Tbl Perf :=
  match p with
  | .tenant n => (s.areaOf n c).perf
  | _ => (s.area c).perf ++ (s.comb c).router
def State.bankOf (s : State) (p : Path) (c : Nat) : Tbl Perf :=
  match p with
  | .tenant n => (s.areaOf n c).latch
  | _ => (s.comb c).opLatch
/-- Latch every counter of the caller's scope (R503). -/
def State.latch (s : State) (p : Path) : State :=
  let s1 := match p with
    | .tenant n => s.onAreas n (fun _ a => { a with latch := a.perf })
    | _ => { s with combs := s.combs.map (fun (e : Nat × Comb) => (e.1, { e.2 with opLatch := e.2.live.perf ++ e.2.router })) }
  s1.setObj (latchInst p) 0x2A00 19 s.ts.toNat
/-- PC_LATCH (R502, R503). -/
def execPcLatch (p : Path) (v : W64) (s : State) : Res := onUnit (isPath p) (s.writeAnswer p 0x2A00 18 v (Eff.ok (fun s => s.latch p)))

/-- A selection: kind, Comb field, unit, counter (R502). -/
def State.pcSel (s : State) (p : Path) : Nat := s.obj (pathInst p) 0x2A20 1 0
def selOk (p : Path) (s : State) (v : Nat) : Bool :=
  perfExists (v % 8) (fld v 13 13) (fld v 26 4) && (s.callerComb p (fld v 3 10)).isSome
    && (match p with | .tenant _ => decide (v % 8 < 6) | _ => true)
/-- PC_SEL_WRITE (R502). -/
def pcSelEff (p : Path) (v : W64) : Eff := fun s => if selOk p s v.toNat then (none, s.storeObj p 0x2A20 1 v) else (some badValue, s)
def execPcSelWrite (p : Path) (v : W64) (s : State) : Res := onUnit (isPath p) (s.writeAnswer p 0x2A20 1 v (pcSelEff p v))

/-- The latched value and sticky bit of the selected counter. -/
def State.pcLatched (s : State) (p : Path) : Perf :=
  let v := s.pcSel p
  match s.callerComb p (fld v 3 10) with
  | some c => tget {} (s.bankOf p c) (perfKey (v % 8) (fld v 13 13) (fld v 26 4))
  | none => {}
/-- Change the selected live counter. -/
def State.pcLive (s : State) (p : Path) (f : Perf → Perf) : State :=
  let v := s.pcSel p
  let k := perfKey (v % 8) (fld v 13 13) (fld v 26 4)
  match s.callerComb p (fld v 3 10) with
  | none => s
  | some c =>
    if v % 8 = 6 then
      (match p with
       | .tenant _ => s
       | _ => s.setComb c { s.comb c with router := tput (s.comb c).router k (f (tget {} (s.comb c).router k)) })
    else match p with
      | .tenant n => let a := s.areaOf n c; s.setAreaOf n c { a with perf := tput a.perf k (f (tget {} a.perf k)) }
      | _ => let a := s.area c; s.setArea c { a with perf := tput a.perf k (f (tget {} a.perf k)) }
/-- PC_VALUE_WRITE (R502, R504): the live counter takes the value. -/
def pcValueEff (p : Path) (v : W64) : Eff := Eff.ok (fun s => s.pcLive p (fun x => { x with val := v }))
def execPcValueWrite (p : Path) (v : W64) (s : State) : Res := onUnit (isPath p) (s.writeAnswer p 0x2A20 3 v (pcValueEff p v))
/-- PC_STICKY_CLEAR (R502). -/
def pcStickyEff (p : Path) : Eff := Eff.ok (fun s => s.pcLive p (fun x => { x with sticky := false }))
def execPcStickyClear (p : Path) (v : W64) (s : State) : Res := onUnit (isPath p) (s.writeAnswer p 0x2A20 4 v (pcStickyEff p))

/-- Eight bits a byte, least significant first. -/
def bitBytes (l : List Bool) : List Byte :=
  (chunks 8 l.length l).map (fun b => BitVec.ofNat 8 (((List.range b.length).map (fun i => b2n (lget false b i) * 2 ^ i)).foldl (· + ·) 0))
/-- `PC_BLOCK` (R502): values of every counter of the selected kind on the selected Comb, then sticky bits padded to 8 bytes. -/
def State.pcBlock (s : State) (p : Path) : List Byte :=
  let v := s.pcSel p
  let kind := v % 8
  match s.callerComb p (fld v 3 10) with
  | none => []
  | some c =>
    let t := s.bankOf p c
    let xs := (perfUnits kind).flatMap (fun u => (List.range (perfCount kind)).map (fun i => tget {} t (perfKey kind u i)))
    let st := bitBytes (xs.map (·.sticky))
    xs.flatMap (fun x => leBytes 8 x.val.toNat) ++ lfit 0 ((st.length + 7) / 8 * 8) st

/-! Trace (R505-R507) -/

def trBase (cfg : Nat) : Nat := fld cfg 0 26
def trSize (cfg : Nat) : Nat := fld cfg 26 16
def trEn (cfg : Nat) : Bool := bit cfg 43
/-- Records a buffer holds. -/
def trRecords (cfg : Nat) : Nat := (1024 * trSize cfg - 64) / 16
/-- The effect of a write of `TR_CFG` or `TR_UNITS` (R505): a buffer newly enabled has a zero header on every Comb. -/
def trCfgEff (n sub : Nat) (v : W64) : Eff := fun s =>
  let w := v.toNat
  if sub ≠ 1 then (none, s.storeObj (.tenant n) 0x2B00 sub v) else
  let old := s.obj (n + 1) 0x2B00 1 0
  if trBase w % 1024 ≠ 0 ∨ trSize w = 0 ∨ 49152 < trSize w ∨ 0x3000000 < trBase w + 1024 * trSize w then (some badValue, s)
  else if trEn old ∧ (trBase w ≠ trBase old ∨ trSize w ≠ trSize old) then (some badState, s)
  else
    let s1 := s.storeObj (.tenant n) 0x2B00 1 v
    (none, if trEn w && !(trEn old) then
      s1.onAreas n (fun _ a => { a with mem := (a.mem.write (trBase w) (List.replicate 64 0) (s.epLow (some n))).1, trWritten := 0, trLost := 0, trLostAll := 0 })
      else s1)
/-- TR_CFG_WRITE (R505). -/
def execTrCfgWrite (n sub : Nat) (v : W64) (s : State) : Res := onUnit (isCtx n) (s.writeAnswer (.tenant n) 0x2B00 sub v (trCfgEff n sub v))

/-- The 16 bytes of a record (R507). -/
def TrRec.bytes (r : TrRec) : List Byte :=
  leBytes 16 (r.kind % 16 + r.unit % 16 * 16 + r.index % 2 ^ 13 * 256 + r.arg.toNat * 2 ^ 32 + r.time.toNat * 2 ^ 64)
/-- The header line (R506). -/
def trHeader (written lost last : Nat) : List Byte := leBytes 8 written ++ leBytes 8 lost ++ leBytes 8 last ++ List.replicate 40 0
/-- TRACE_RECORD_WRITE (R506): the oldest queued record, or first the record of those lost before it; the header follows each line of
records. -/
def State.traceWrite (s : State) (c : Nat) : State :=
  match s.residentAt c with
  | none => s
  | some n =>
    let cfg := s.obj (n + 1) 0x2B00 1 0
    let a := s.area c
    match a.trQ with
    | [] => s
    | r :: t =>
      if !(trEn cfg) then s.setArea c { a with trQ := t }
      else if bit cfg 42 ∧ a.trWritten = trRecords cfg then
        s.setArea c { a with trQ := t, trLost := a.trLost + 1, trLostAll := a.trLostAll + 1 }
      else
        let rec_ : TrRec := if a.trLost = 0 then r else ⟨12, 6, 0, BitVec.ofNat 32 (min a.trLost (2 ^ 32 - 1)), s.ts⟩
        let w := a.trWritten + 1
        let s1 := s.setArea c { a with trQ := if a.trLost = 0 then t else a.trQ, trLost := 0, trWritten := w }
        let off := trBase cfg + 64 + 16 * (a.trWritten % max 1 (trRecords cfg))
        let s2 := (s1.performWrite (some n) c 0 off rec_.bytes (s.epLow (some n))).1
        if w % 4 = 0 then (s2.performWrite (some n) c 0 (trBase cfg) (trHeader w a.trLostAll rec_.time.toNat) (s.epLow (some n))).1 else s2
def execTraceRecordWrite (c : Nat) (s : State) : Res := onUnit (isComb c) (if s.refs.stopped then s else s.traceWrite c)

/-! Gating (R509) -/

/-- A unit that gates when idle has nothing to do: no slot of the cell is ready, no slot of the Engine, no started command of the
Forager. -/
def State.unitIdle (s : State) (c k ix : Nat) : Bool :=
  let a := s.area c
  match k with
  | 0 => !((a.worker (ix / 5)).slots.any (fun e => e.2.running && !e.2.frozen && !e.2.halted && e.2.wait = .ready))
  | 3 => a.eng.active.isNone && (List.range 4).all (fun sl => !(a.eng.hasClause sl))
  | 4 => (a.forager ix).slots.all (fun e => e.2.phase != .started)
  | _ => false
def gateUnitOk (k ix : Nat) : Bool :=
  match k with
  | 0 => decide (ix < 3200) && !isStore (ix / 5)
  | 3 => ix = 0
  | 4 => decide (ix < 4)
  | _ => false
/-- UNIT_GATE (R509). -/
def execUnitGate (c k ix : Nat) (s : State) : Res :=
  onUnit (isComb c) (if gateUnitOk k ix && s.unitIdle c k ix && !s.refs.stopped then s.gateUnit c k ix else s)
/-- UNIT_WAKE (R509). -/
def execUnitWake (c k ix : Nat) (s : State) : Res :=
  onUnit (isComb c) (if gateUnitOk k ix && !s.refs.stopped then s.wakeUnit c k ix else s)

/-! Scheduled-Link receive groups (R309) -/

/-- SL_RX_WRITE (R309). -/
def execSlRxWrite (p : Path) (d : Nat) (v : W64) (s : State) : Res :=
  onUnit (isPath p && decide (d < 4)) (s.writeAnswer p 0x2740 (d + 1) v (Eff.ok (fun s => s.storeObj p 0x2740 (d + 1) v)))

end Sys2Proof.Machine
end

