-- ==== Sys2Proof/Machine/Forager.lean ====
section
/-! DEFINITION. Foragers: rings and takes (R283-R285), start conditions (R286, R287), issue of every opcode (R288-R293, R298-R304),
completion and records (R294-R297). -/

namespace Sys2Proof.Machine

open Sys2Proof

/-! The descriptor (R289, R298) -/

def fgV (m : FgCmd) : Nat := wnum m.desc
def fgOp (v : Nat) : Nat := fld v 0 4
def fgCls (v : Nat) : Nat := fld v 4 2
def fgRed (v : Nat) : Nat := fld v 6 2
def fgSig (v : Nat) : Nat := fld v 8 2
def fgDig (v : Nat) : Bool := bit v 14
def fgWide (v : Nat) : Bool := bit v 15
def fgTag (v : Nat) : Nat := fld v 32 16
def fgSigAmt (v : Nat) : Nat := fld v 48 16
def fgSrc (v : Nat) : W64 := BitVec.ofNat 64 (fld v 64 64)
def fgDst (v : Nat) : W64 := BitVec.ofNat 64 (fld v 128 64)
def fgLen (v : Nat) : Nat := fld v 192 32
def fgCount (v : Nat) : Nat := if fgOp v = 0 then 0 else fld v 224 24 + 1
def fgSStr (v : Nat) : Nat := fld v 256 32
def fgDStr (v : Nat) : Nat := fld v 288 32
def fgStage (v : Nat) : Nat := fld v 288 26
def fgList (v : Nat) : Nat := fld v 320 26
def fgCrec (v : Nat) : Nat := fld v 352 26
def fgSigCtr (v : Nat) : Nat := fld v 384 12
def fgTable (v : Nat) : Nat := fld v 128 26
def fgSets (v : Nat) : Nat := fld v 154 12 + 1
def fgTallyCtr (v : Nat) : Nat := fld v 166 12
def fgTally (v : Nat) : Bool := fgOp v = 6 && bit v 178
def fgSpace (a : W64) : Nat := fld a.toNat 36 3
/-- Bytes of a list entry (R290, R298). -/
def fgEntry (v : Nat) : Nat := if fgOp v = 6 then 16 else if fgWide v then 8 else 4
def fgUsesList (v : Nat) : Bool := fgOp v = 3 || fgOp v = 4 || fgOp v = 6
/-- The opcode takes its source or destination from `SRC` or `DST`. -/
def fgUsesSrc (v : Nat) : Bool := [1, 2, 4, 6].contains (fgOp v) || (fgOp v = 3 && !fgWide v)
def fgUsesDst (v : Nat) : Bool := [1, 2, 3, 5].contains (fgOp v) || (fgOp v = 4 && !fgWide v)
/-- A packet follows the last data packet: the signal's add, the trailer or tallies. -/
def fgTail (v : Nat) : Bool := fgDig v || fgSig v = 1 || fgTally v

/-- Order 2 of R296. -/
def fgFormBad (v : Nat) : Bool :=
  let op := fgOp v
  let zero (lo w : Nat) : Bool := fld v lo w = 0
  let aligned (x : Nat) : Bool := x % 4 = 0
  !(zero 28 4 && zero 248 8 && zero 346 6 && zero 378 6 && zero 433 15)
  || (op = 5 && !(zero 96 32)) || (fgDig v && !(zero 314 6)) || (op = 6 && !(zero 179 13))
  || fgRed v = 3 || fgSig v = 3 || (fgSigAmt v = 0 && fgSig v != 0)
  || (fgSig v = 1 && (op = 6 || (op = 4 && fgWide v) || fgDig v || (op = 0 && fld v 128 39 != 0)))
  || (fgRed v != 0 && (op = 5 || op = 0 || op = 6)) || (fgDig v && op != 1)
  || (fgWide v && !(op = 3 || op = 4)) || (fld v 224 24 != 0 && (op = 1 || op = 0))
  || (op != 0 && (fgLen v = 0 || !(aligned (fgLen v))))
  || (fgUsesSrc v && !(aligned (fgSrc v).toNat)) || (fgUsesDst v && !(aligned (fgDst v).toNat))
  || (!fgDig v && ((op = 2 || (op = 3 && !fgWide v) || op = 4 || op = 6) && !(aligned (fgSStr v))))
  || (!fgDig v && ((op = 2 || op = 3 || (op = 4 && !fgWide v) || op = 5 || op = 6) && !(aligned (fgDStr v))))
/-- Order 3 of R296. -/
def fgRangeBad (v : Nat) : Bool :=
  (fgUsesList v && (fgList v % fgEntry v != 0 || decide (0x3000000 < fgList v + fgEntry v * fgCount v)))
  || (bit v 13 && (fgCrec v % 32 != 0 || decide (0x3000000 < fgCrec v + 32)))
  || (fgOp v = 6 && (fgTable v % 256 != 0 || decide (0x3000000 < fgTable v + 256 * fgSets v)))
/-- A destination's space (R291). -/
def dstSpace (red : Nat) (a : W64) : Option W16 :=
  if fgSpace a = 3 then some 0x4403#16 else if fgSpace a = 4 ∨ (red ≠ 0 ∧ (fgSpace a = 1 ∨ fgSpace a = 2)) then some 0x5005#16 else none
def srcSpace (a : W64) : Option W16 := if fgSpace a = 3 ∨ fgSpace a = 4 then some 0x5005#16 else none
/-- The checks when a command is taken (R296, orders 1 to 4). -/
def fgTakeFault (v : Nat) : Option W16 :=
  if 6 < fgOp v then some 0x5001#16
  else if fgFormBad v then some 0x5002#16
  else if fgRangeBad v then some 0x5004#16
  else (if fgUsesSrc v then srcSpace (fgSrc v) else none).or (if fgUsesDst v then dstSpace (fgRed v) (fgDst v) else none)

/-! Rings (R283-R285) -/

def fgRing (v : Nat) : Nat × Nat × Nat × Bool := (fld v 0 26, fld v 32 4, fld v 40 12, bit v 63)
def State.fgRingOf (s : State) (n f : Nat) : Nat := s.obj (n + 1) 0x2730 (f + 1) 0

/-- The effect of a write of `FG_RINGf` (R284). -/
def fgRingEff (p : Path) (f : Nat) (v : W64) : Eff := fun s =>
  let i := s.instOf p 0x2730 (f + 1)
  let n := i - 1
  let w := v.toNat
  let r := fgRing w
  let old := fgRing (s.obj i 0x2730 (f + 1) 0)
  if fld w 26 6 ≠ 0 ∨ fld w 36 4 ≠ 0 ∨ fld w 52 11 ≠ 0 ∨ r.1 % 64 ≠ 0
      ∨ (r.2.2.2 ∧ (r.2.1 < 1 ∨ 12 < r.2.1 ∨ 0x3000000 < r.1 + 64 * 2 ^ r.2.1)) then (some badValue, s)
  else if old.2.2.2 ∧ (s.ctx n).combs.any (fun c => !((s.areaOf n c).forager f).slots.isEmpty) then (some badState, s)
  else
    let s1 := s.setObj i 0x2730 (f + 1) w
    (none, if r.2.2.2 then
      s1.onAreas n (fun _ a => a.setForager f { a.forager f with taken := BitVec.ofNat 64 (a.counter r.2.2.1), stuck := false })
    else s1)
/-- FG_RING_WRITE (R284). -/
def execFgRingWrite (p : Path) (f : Nat) (v : W64) (s : State) : Res :=
  onUnit (isPath p && decide (f < 4)) (s.writeAnswer p 0x2730 (f + 1) v (fgRingEff p f v))

/-- The Forager may work: its context runs, and it is neither frozen nor halted. -/
def State.fgOn (s : State) (c f : Nat) : Bool :=
  s.ctxRuns c && !(s.dead c) && !(s.forager c f).frozen && !(s.forager c f).halted

/-- The Forager takes no further command; its context learns why (R285). -/
def State.fgStuck (s : State) (c f : Nat) (code : W16) (res : W64) : State :=
  (s.setForager c f { s.forager c f with stuck := true }).event (s.residentAt c) code c (masterField (.forager c f)) res

/-- FG_TAKE (R285, R296). -/
def State.fgTake (s : State) (c f : Nat) : State :=
  match s.residentAt c with
  | none => s
  | some n =>
    let fg := s.forager c f
    let r := fgRing (s.fgRingOf n f)
    let ctr := (s.area c).counter r.2.2.1
    let h := fg.taken.toNat
    if !r.2.2.2 ∨ fg.stuck ∨ ctr ≤ h then s
    else if 2 ^ r.2.1 < ctr - h then s.fgStuck c f 0x5003#16 0
    else
      match (List.range 64).find? (fun k => (fg.slots.find? (fun e => e.1 = k)).isNone) with
      | none => s
      | some k =>
        match s.performRead (some n) c 0 (r.1 + 64 * (h % 2 ^ r.2.1)) 64 [] with
        | (.error code, s1) => s1.fgStuck c f code fg.taken
        | (.ok bs, s1) =>
          let d := words32 bs
          let flt := fgTakeFault (wnum d)
          let m : FgCmd := { desc := d, seqNo := fg.takes, early := flt.isSome, fault := flt.map (fun code => (code, 0, 0)) }
          let fg1 := s1.forager c f
          s1.setForager c f { fg1 with taken := fg1.taken + 1, takes := fg1.takes + 1, slots := tput fg1.slots k m }
def execFgTake (c f : Nat) (s : State) : Res :=
  onUnit (isComb c && decide (f < 4)) (if s.fgOn c f then s.fgTake c f else s)

/-! Start (R286, R287) -/

def State.setFg (s : State) (c f k : Nat) (m : FgCmd) : State :=
  s.setForager c f { s.forager c f with slots := tput (s.forager c f).slots k m }
/-- A fault before the start (R296). -/
def FgCmd.failEarly (m : FgCmd) (code : W16) : FgCmd := { m with early := true, fault := some (code, 0, 0) }

/-- The command starts; a contribution's writes carry the epoch open now (R303). A command with neither unit nor signal has
nothing to issue. -/
def State.fgBegin (s : State) (c f k : Nat) (m : FgCmd) : State :=
  let v := fgV m
  let n := s.residentAt c
  let ph := if fgOp v = 0 ∧ fgSig v ≠ 1 then FgPhase.issued else .started
  let s1 := (s.setFg c f k { m with phase := ph, epoch := s.openEpoch n }).trace c 5 4 f (fgTag v)
  if fgDig v then s1.writeIssued n (s.epLow n) else s1

/-- The start condition is registered as a watch (R274, R287). -/
def State.fgWatch (s : State) (c f k : Nat) (m : FgCmd) : State :=
  let v := fgV m
  let n := s.residentAt c
  let loc := fld v 408 24
  match s.toModule n false (loc / 1024) with
  | .error e => s.setFg c f k (m.failEarly e)
  | .ok (rem, cn) =>
    match s.toComb n (fld loc 4 6) (fld loc 0 4) with
    | .error e => s.setFg c f k (m.failEarly e)
    | .ok d =>
      if rem = none ∧ (s.comb d).lost then s.setFg c f k (m.failEarly 0x3004#16) else
      let dst := dstField (rem.getD s.ownModule) d
      let ms : Master := .forager c f
      if !(s.canSend ms dst (fgCls v)) then s else
      let r := s.newReq
      let p : Pkt := { dst := dst, cls := fgCls v, ptype := 7, ctx := cn, space := 3, off := 8 * fld v 396 12, reqId := r.1,
                       clitics := [[16#64, BitVec.ofNat 64 (fld v 448 64)]], clWords := 2, clNext := 1 }
      (r.2.setFg c f k { m with phase := .watching r.1, outst := m.outst ++ [r.1] }).sendPkt ms p

/-- FG_START (R286, R287, R296 order 5). -/
def State.fgStart (s : State) (c f k : Nat) : State :=
  let fg := s.forager c f
  match fg.slots.find? (fun e => e.1 = k) with
  | none => s
  | some (_, m) =>
    let v := fgV m
    if m.fault.isSome then s else
    let prevIn := fg.slots.any (fun e => e.2.seqNo + 1 = m.seqNo)
    if bit v 10 && prevIn then s
    else if bit v 10 && decide (1 ≤ m.seqNo) && tget false fg.ended (m.seqNo - 1) then s.setFg c f k (m.failEarly 0x5009#16)
    else match m.phase with
    | .waiting =>
      if !(bit v 11) then s.fgBegin c f k m
      else if bit v 432 then
        (if fld v 448 64 ≤ (s.area c).counter (fld v 396 12) then s.fgBegin c f k m else s)
      else s.fgWatch c f k m
    | .ready => s.fgBegin c f k m
    | _ => s
def execFgStart (c f k : Nat) (s : State) : Res :=
  onUnit (isComb c && decide (f < 4 ∧ k < 64)) (if s.fgOn c f then s.fgStart c f k else s)

/-! Units (R290, R291) -/

/-- An address with bytes added to its `OFFSET` alone (R291). -/
def addrPlus (a : W64) (d : Nat) : Option W64 :=
  if a.toNat % 2 ^ 36 + d < 2 ^ 36 then some (a + BitVec.ofNat 64 d) else none
/-- The address, or the fault 0x3002 that names the base it was formed from. -/
def addrOr (a : W64) (d : Nat) : Except (W16 × W64) W64 :=
  match addrPlus a d with | some x => .ok x | none => .error (0x3002#16, a)
/-- A wide list entry (R296). -/
def wideOk (e : Nat) (sp : Option W16) : Except (W16 × W64) W64 :=
  let a : W64 := BitVec.ofNat 64 e
  if e % 4 ≠ 0 then .error (0x5002#16, a) else match sp with | some code => .error (code, a) | none => .ok a

/-- Source and destination of unit `i`, given its list entry. -/
def unitAddrs (v i e : Nat) : Except (W16 × W64) (W64 × W64) := do
  let src ← (match fgOp v with
    | 1 => .ok (fgSrc v)
    | 3 => if fgWide v then wideOk e (srcSpace (BitVec.ofNat 64 e)) else addrOr (fgSrc v) (e * fgSStr v)
    | 5 => .ok 0
    | _ => addrOr (fgSrc v) (i * fgSStr v))
  let dst ← (match fgOp v with
    | 1 => .ok (fgDst v)
    | 4 => if fgWide v then wideOk e (dstSpace (fgRed v) (BitVec.ofNat 64 e)) else addrOr (fgDst v) (e * fgDStr v)
    | _ => addrOr (fgDst v) (i * fgDStr v))
  .ok (src, dst)

/-- Read from the Forager's own Comb Memory. -/
def State.fgRead (s : State) (c off n : Nat) : Except W16 (List Byte) × State := s.performRead (s.residentAt c) c 0 off n []

/-- A fault at issue: it belongs to a unit, and names the access (R295, R297). -/
def State.fgFail (s : State) (c f k : Nat) (m : FgCmd) (code : W16) (unit : Nat) (addr : W64) : State :=
  s.setFg c f k (m.fail code unit addr)

/-- Issue counters (R500, kind 4). -/
def State.fgBump (s : State) (c f bytes : Nat) : State :=
  s.setArea c (((s.area c).count 4 f 1 (max 1 (cdiv bytes 128))).count 4 f 5 bytes)

/-- Send a packet of the command; `u` and `a` are the unit and the address a fault of it names. -/
def State.fgSend (s : State) (c f k : Nat) (m : FgCmd) (p : Pkt) (u : Nat) (a : W64) : State :=
  let m1 := if m.outst.contains p.reqId then m else { m with outst := m.outst ++ [p.reqId], units := (p.reqId, u, a) :: m.units }
  let s1 := (s.setFg c f k m1).fgBump c f p.payload.length
  (if p.isWrite && p.ptype ≠ 8 then s1.writeIssued (s.residentAt c) p.epochLo else s1).sendPkt (.forager c f) p

/-- Read the next piece of a remote source, up to a 512-byte boundary (R395). -/
def State.fgAhead (s : State) (c f k : Nat) (m : FgCmd) (sa : W64) (t : Tgt) : Option State :=
  let v := fgV m
  if m.occWait.isSome then none else
  let dst := s.dstOf t
  if !(s.canSend (.forager c f) dst (fgCls v)) then none else
  let got := m.off + m.buf.length
  let q := min (fgLen v - got) (512 - (t.off + got) % 512)
  let r := s.newReq
  let p : Pkt := { dst := dst, cls := fgCls v, ptype := 4, ctx := t.ctx, space := t.space, off := t.off + got, len := q, reqId := r.1 }
  some (r.2.fgSend c f k { m with occWait := some r.1 } p m.unitIx (sa + BitVec.ofNat 64 got))

/-- The source bytes of the next packet: read here, or read ahead from elsewhere; none: the command waits. -/
def State.fgBytes (s : State) (c f k : Nat) (m : FgCmd) (sa : W64) (dpos p : Nat) : Option (Except W16 (List Byte) × State) ⊕ State :=
  let v := fgV m
  let n := s.residentAt c
  if fgOp v = 5 then .inl (some (.ok (patBytes dpos p (BitVec.ofNat 32 (fld v 64 32))), s))
  else match s.translate n sa (fgLen v) with
  | .error e => .inl (some (.error e, s))
  | .ok t =>
    if t.own c then
      if s.lockWait t then .inl none else
      let vs := if t.space = 1 then [] else
        (wholeBlocks t.off (fgLen v)).filter (fun b => (blocksOf (t.off + m.off) p).contains b)
      .inl (some (s.performRead n c t.space (t.off + m.off) p vs))
    else if p ≤ m.buf.length then .inl (some (.ok (m.buf.take p), s))
    else match s.fgAhead c f k m sa t with
      | some s1 => .inr s1
      | none => .inl none

/-- The position after `p` bytes of a unit of `len` have gone out. -/
def FgCmd.advance (m : FgCmd) (p : Nat) : FgCmd :=
  let v := fgV m
  if m.off + p < fgLen v then { m with off := m.off + p, buf := m.buf.drop p }
  else { m with off := 0, cur := none, buf := [], unitIx := m.unitIx + 1
                phase := if m.unitIx + 1 = fgCount v && !fgTail v then .issued else m.phase }

/-- The next data packet of a unit whose addresses are known (R288, R293, R303, R304). -/
def State.fgData (s : State) (c f k : Nat) (m : FgCmd) (sa da : W64) : Option State :=
  let v := fgV m
  let n := s.residentAt c
  match s.translate n da (fgLen v) with
  | .error e => some (s.fgFail c f k m e m.unitIx da)
  | .ok t =>
    let base := if fgDig v then fgStage v + 1024 else t.off
    let dpos := base + m.off
    let p := min (fgLen v - m.off) (512 - dpos % 512)
    let dst := s.dstOf t
    if !(s.canSend (.forager c f) dst (fgCls v)) then none else
    match s.fgBytes c f k m sa dpos p with
    | .inr s1 => some s1
    | .inl none => none
    | .inl (some (.error e, s1)) => some (s1.fgFail c f k m e m.unitIx (sa + BitVec.ofNat 64 m.off))
    | .inl (some (.ok bs, s1)) =>
      let r := if fgDig v && m.off != 0 then ((match m.units.head? with | some e => e.1 | none => 0), s1) else s1.newReq
      let last := m.off + p = fgLen v
      let q : Pkt := { dst := dst, cls := fgCls v, ptype := if fgRed v = 1 then 2 else if fgRed v = 2 then 3 else 1, ctx := t.ctx
                       space := if fgDig v then 0 else t.space, off := dpos, payload := bs, reqId := r.1
                       first := fgDig v && m.off = 0
                       epochLo := if fgDig v then m.epoch.getLsbD 0 else s.epLow n
                       arrEn := fgSig v = 2 && last && !fgDig v
                       arrCtr := if fgSig v = 2 && last && !fgDig v then fgSigCtr v else 0
                       arrAmt := if fgSig v = 2 && last && !fgDig v then fgSigAmt v else 0 }
      let m1 := (if fgDig v then { m with crc64 := crc64From m.crc64 bs } else m).advance p
      some (r.2.fgSend c f k m1 q m.unitIx (da + BitVec.ofNat 64 m.off))

/-- The command goes to the operation unit (R292). -/
def State.fgToOp (s : State) (c v : Nat) : Bool :=
  let own (a : W64) : Bool := match s.translate (s.residentAt c) a (fgLen v) with | .ok t => t.own c && t.space = 0 | .error _ => false
  ((fgOp v = 1 && own (fgSrc v)) || (fgOp v = 5 && fgCount v = 1)) && own (fgDst v) && fgRed v = 0 && !fgDig v && decide (fgSig v ≤ 1)
def State.fgHand (s : State) (c f k : Nat) (m : FgCmd) : State :=
  let v := fgV m
  let n := s.residentAt c
  let d := (fgDst v).toNat % 2 ^ 36
  let kind := if fgOp v = 5 then OpKind.fill d (fgLen v) (BitVec.ofNat 32 (fld v 64 32)) else .copy ((fgSrc v).toNat % 2 ^ 36) d (fgLen v)
  let s1 := (s.setFg c f k { m with step := 1, epoch := s.openEpoch n }).writeIssued n (s.epLow n)
  let a := s1.area c
  s1.setArea c { a with ops := a.ops ++ [{ kind := kind, who := some (f, k), ctx := n.getD 16, ep := s.epLow n }] }

/-- One packet of data (R288, R296): a unit's addresses are checked as its first packet is issued. -/
def State.fgUnit (s : State) (c f k : Nat) (m : FgCmd) : Option State :=
  let v := fgV m
  match m.cur with
  | some (sa, da) => s.fgData c f k m sa da
  | none =>
    let le := fgList v + fgEntry v * m.unitIx
    let r : Except W16 (List Byte) × State := if fgUsesList v then s.fgRead c le (fgEntry v) else (.ok [], s)
    match r with
    | (.error e, s1) => some (s1.fgFail c f k m e m.unitIx (BitVec.ofNat 64 le))
    | (.ok bs, s1) =>
      match unitAddrs v m.unitIx (leNat bs) with
      | .error (e, a) => some (s1.fgFail c f k m e m.unitIx a)
      | .ok (sa, da) =>
        match (if fgOp v = 5 then Except.ok () else (s1.translate (s1.residentAt c) sa (fgLen v)).map (fun _ => ())) with
        | .error e => some (s1.fgFail c f k m e m.unitIx sa)
        | .ok _ => s1.fgData c f k { m with cur := some (sa, da) } sa da

/-! After the last data packet (R293, R303) -/

/-- A global address in space 3 on the Comb that another address names. -/
def ctrAddr (a : W64) (i : Nat) : W64 := BitVec.ofNat 64 (a.toNat / 2 ^ 39 * 2 ^ 39 + 3 * 2 ^ 36 + 8 * i)
/-- Send an add of the command; it belongs to no unit (R295). -/
def State.fgAdd (s : State) (c f k : Nat) (m : FgCmd) (a : W64) (amt n8 : Nat) : Option State :=
  let v := fgV m
  match s.translate (s.residentAt c) a n8 with
  | .error e => some (s.fgFail c f k m e (fgCount v) a)
  | .ok t =>
    let dst := s.dstOf t
    if !(s.canSend (.forager c f) dst (fgCls v)) then none else
    let r := s.newReq
    let p : Pkt := { dst := dst, cls := fgCls v, ptype := 6, ctx := t.ctx, space := 3, off := t.off, payload := leBytes n8 amt, reqId := r.1 }
    some (r.2.fgSend c f k m p (fgCount v) a)
/-- The trailer of a contribution (R303, R322). -/
def State.fgTrailer (s : State) (c f k : Nat) (m : FgCmd) : Option State :=
  let v := fgV m
  match s.translate (s.residentAt c) (fgDst v) (fgLen v) with
  | .error e => some (s.fgFail c f k m e (fgCount v) (fgDst v))
  | .ok t =>
    let dst := s.dstOf t
    if !(s.canSend (.forager c f) dst (fgCls v)) then none else
    let coll := fgSStr v
    let dig := crc64From m.crc64 (digestTail m.epoch (dstField s.ownModule c) coll)
    let w0 : W64 := BitVec.ofNat 64 (3 * 16 + coll * 2 ^ 32)
    let p : Pkt := { dst := dst, cls := fgCls v, ptype := 8, ctx := t.ctx, space := t.space, off := t.off
                     reqId := (match m.units.head? with | some e => e.1 | none => 0), epochLo := m.epoch.getLsbD 0
                     clitics := [[w0, m.epoch, BitVec.ofNat 64 (fgLen v), dig]], clWords := 4, clNext := 2
                     arrEn := fgSig v = 2, arrCtr := if fgSig v = 2 then fgSigCtr v else 0, arrAmt := if fgSig v = 2 then fgSigAmt v else 0 }
    some (s.fgSend c f k { m with phase := .issued } p (fgCount v) (fgDst v))
def State.fgEnding (s : State) (c f k : Nat) (m : FgCmd) : Option State :=
  let v := fgV m
  if fgDig v then s.fgTrailer c f k m
  else s.fgAdd c f k { m with phase := .issued } (ctrAddr (fgDst v) (fgSigCtr v)) (fgSigAmt v) 4

/-! Expert dispatch (R298-R302) -/

/-- A mirror record (R299). -/
def mrBase (r : Nat) : W64 := BitVec.ofNat 64 (fld r 0 64)
def mrRow0 (r : Nat) : Nat := fld r 64 24
def mrRows (r : Nat) : Nat := fld r 96 24
def mrOcc (r : Nat) : Nat := fld r 128 26
/-- Address of the occupancy word: offset OCC_OFF of space 0 on the Comb that RX_BASE names (R299). -/
def mrOccAddr (r : Nat) : W64 := BitVec.ofNat 64 (fld r 0 64 / 2 ^ 39 * 2 ^ 39 + mrOcc r)
def mrGroup (r : Nat) : Nat := fld r 160 10
def mrValid (r : Nat) : Bool := bit r 175
def mrRsvd (r : Nat) : Bool := fld r 88 8 != 0 || fld r 120 8 != 0 || fld r 154 6 != 0 || fld r 170 5 != 0 || fld r 176 80 != 0
/-- Virtual coordinates of the sending Comb, from the lowest module table entry that names this module with the context's own
number (R300). -/
def State.tupleSrc (s : State) (n c : Nat) : Option Nat :=
  let x := s.ctx n
  (lfind (fun e => bit e.toNat 31 && e.toNat % 2 ^ 14 = s.ownModule && fld e.toNat 14 4 = n) x.mods).map (fun i =>
    (i % 32 * 512 + i / 32 % 32 * 16 + i / 1024) * 1024 + (cxOf c - x.x0) * 16 + (cyOf c - x.y0))
/-- The mirror Comb of a record, as its 24-bit destination. -/
def State.mrKey (s : State) (n : Option Nat) (r : Nat) : Except W16 (Nat × Tgt) :=
  match s.translate n (mrBase r) 4 with
  | .error e => .error e
  | .ok t => .ok (s.dstOf t, t)
/-- An estimate is usable for 2,048 MCLK, which is 128 SCLK (R5, R300). -/
def Est.usable (e : Est) (ts : W64) : Option Nat :=
  match e.val with
  | some v => if ts.toNat - e.at_.toNat < 128 then some (v + e.sent) else none
  | none => none
/-- Use of an estimate moves it to the end of the list, from whose front the table of 512 drops (R300). -/
def Forager.putEst (f : Forager) (e : Est) : Forager :=
  let l := f.est.filter (fun x => x.key != e.key) ++ [e]
  { f with est := l.drop (l.length - 512) }
def Forager.estOf (f : Forager) (key : Nat) : Option Est := f.est.find? (fun e => e.key = key)

/-- Read the occupancy word of a mirror whose estimate is absent or stale. -/
def State.fgOccRead (s : State) (c f k : Nat) (m : FgCmd) (key rec : Nat) (t : Tgt) : Option State :=
  let v := fgV m
  if !(s.canSend (.forager c f) key (fgCls v)) then none else
  let r := s.newReq
  let p : Pkt := { dst := key, cls := fgCls v, ptype := 4, ctx := t.ctx, space := 0, off := mrOcc rec, len := 4, reqId := r.1 }
  let s1 := r.2.setForager c f ((r.2.forager c f).putEst ⟨key, none, 0, s.ts⟩)
  some (s1.fgSend c f k { m with occWait := some r.1 } p m.unitIx (mrOccAddr rec))

/-- The record with the smallest estimate; .inr: an occupancy word must be read first, or waited for. -/
def State.fgChoose (s : State) (c f k : Nat) (m : FgCmd) (n : Option Nat) :
    List (Nat × Nat) → Option (Nat × Nat) → Except W16 (Option Nat ⊕ Option State)
  | [], best => .ok (.inl (best.map (·.1)))
  | (i, rec) :: t, best =>
    match s.mrKey n rec with
    | .error e => .error e
    | .ok (key, tg) =>
      match ((s.forager c f).estOf key).bind (fun e => e.usable s.ts) with
      | some q =>
        let better := match best with | none => true | some (_, b) => decide (q < b)
        s.fgChoose c f k m n t (if better then some (i, q) else best)
      | none => .ok (.inr (if m.occWait.isSome then none else s.fgOccRead c f k m key rec tg))

/-- Choose the mirror of the next entry (R300, R301). -/
def State.fgPick (s : State) (c f k : Nat) (m : FgCmd) (n : Nat) : Option State :=
  let v := fgV m
  let le := fgList v + 16 * m.unitIx
  let bad (s : State) (code : W16) (a : Nat) : Option State := some (s.fgFail c f k m code m.unitIx (BitVec.ofNat 64 a))
  if (s.tupleSrc n c).isNone then bad s 0x5006 le else
  match s.fgRead c le 16 with
  | (.error e, s1) => bad s1 e le
  | (.ok bs, s1) =>
    let e := leNat bs
    let set := fld e 32 12
    let tb := fgTable v + 256 * set
    if fld e 24 8 ≠ 0 ∨ fld e 44 20 ≠ 0 ∨ bit e 127 ∨ fld e 120 8 / 8 ≠ 0 ∨ fgSets v ≤ set then bad s1 0x5006 le else
    match s1.fgRead c tb 256 with
    | (.error e, s2) => bad s2 e tb
    | (.ok rb, s2) =>
      let recs := ((chunks 32 8 rb).map leNat).zipIdx.map (fun r => (r.2, r.1))
      let valid := recs.filter (fun r => mrValid r.2)
      if valid.isEmpty ∨ valid.any (fun r => mrRsvd r.2) then bad s2 0x5006 tb else
      let elig := valid.filter (fun r => decide (tget 0 m.cursors (set * 8 + r.1) < mrRows r.2))
      match elig with
      | [] => bad s2 0x5007 tb
      | [(i, _)] => some (s2.setFg c f k { m with step := set * 8 + i + 1 })
      | l =>
        match s2.fgChoose c f k m (some n) l none with
        | .error e => bad s2 e tb
        | .ok (.inl (some i)) => some (s2.setFg c f k { m with step := set * 8 + i + 1 })
        | .ok (.inl none) => none
        | .ok (.inr r) => r

/-- Record `r` of the table, by set and index. -/
def State.fgRec (s : State) (c v r : Nat) : Except W16 Nat × State :=
  match s.fgRead c (fgTable v + 32 * r) 32 with
  | (.error e, s1) => (.error e, s1)
  | (.ok b, s1) => (.ok (leNat b), s1)

/-- The tuple behind an entry's row, in the same stream (R67, R300). -/
def State.fgTuple (s : State) (c f k : Nat) (m : FgCmd) (n r rec : Nat) : Option State :=
  let v := fgV m
  let le := fgList v + 16 * m.unitIx
  match s.mrKey (some n) rec, s.fgRead c le 16 with
  | .error e, _ => some (s.fgFail c f k m e m.unitIx (mrBase rec))
  | _, (.error e, s1) => some (s1.fgFail c f k m e m.unitIx (BitVec.ofNat 64 le))
  | .ok (key, t), (.ok bs, s1) =>
    if !(s1.canSend (.forager c f) key (fgCls v)) then none else
    let e := leNat bs
    let km := tget 0 m.cursors r
    let ws : List W32 := [BitVec.ofNat 32 ((mrRow0 rec + km) % 2 ^ 24), BitVec.ofNat 32 (fld e 64 32),
      BitVec.ofNat 32 (fld e 96 24 + fld e 120 3 * 2 ^ 24), BitVec.ofNat 32 ((s1.tupleSrc n c).getD 0)]
    let h := fgCls v * 16 + 3 * 2 ^ 10 + fgTag v * 2 ^ 12 + mrGroup rec * 2 ^ 28 + 2 ^ 38
    let q := s1.newReq
    let p : Pkt := { dst := key, cls := fgCls v, ptype := 5, ctx := t.ctx, payload := msgBytes h t.ctx key ws, reqId := q.1 }
    let m1 := { m with cursors := tset 0 m.cursors r (km + 1), step := 0, off := 0, cur := none, buf := [], unitIx := m.unitIx + 1
                       phase := if m.unitIx + 1 = fgCount v && !fgTail v then .issued else m.phase }
    let fg := q.2.forager c f
    let s2 := match fg.estOf key with
      | some es => q.2.setForager c f (fg.putEst { es with sent := es.sent + 1 })
      | none => q.2
    some (s2.fgSend c f k m1 p m.unitIx (mrBase rec))

/-- The next packet of a dispatch entry: choice, row, tuple (R300). -/
def State.fgDispatch (s : State) (c f k : Nat) (m : FgCmd) (n : Nat) : Option State :=
  let v := fgV m
  if m.step = 0 then s.fgPick c f k m n
  else
    let r := m.step - 1
    match s.fgRec c v r with
    | (.error e, s1) => some (s1.fgFail c f k m e m.unitIx (BitVec.ofNat 64 (fgTable v + 32 * r)))
    | (.ok rec, s1) =>
      match m.cur with
      | some (sa, da) =>
        if m.off = fgLen v then s1.fgTuple c f k m n r rec
        else
          -- the row's packets, without moving to the next unit at their end
          match s1.translate (some n) da (fgLen v) with
          | .error e => some (s1.fgFail c f k m e m.unitIx da)
          | .ok t =>
            let p := min (fgLen v - m.off) (512 - (t.off + m.off) % 512)
            let dst := s1.dstOf t
            if !(s1.canSend (.forager c f) dst (fgCls v)) then none else
            match s1.fgBytes c f k m sa (t.off + m.off) p with
            | .inr s2 => some s2
            | .inl none => none
            | .inl (some (.error e, s2)) => some (s2.fgFail c f k m e m.unitIx (sa + BitVec.ofNat 64 m.off))
            | .inl (some (.ok bs, s2)) =>
              let q := s2.newReq
              let arr := fgSig v = 2 && m.off + p = fgLen v
              let pk : Pkt := { dst := dst, cls := fgCls v, ptype := 1, ctx := t.ctx, space := t.space, off := t.off + m.off, payload := bs
                                reqId := q.1, epochLo := s.epLow (some n), arrEn := arr, arrCtr := if arr then fgSigCtr v else 0
                                arrAmt := if arr then fgSigAmt v else 0 }
              some (q.2.fgSend c f k { m with off := m.off + p, buf := m.buf.drop p } pk m.unitIx (da + BitVec.ofNat 64 m.off))
      | none =>
        let le := fgList v + 16 * m.unitIx
        match s1.fgRead c le 16 with
        | (.error e, s2) => some (s2.fgFail c f k m e m.unitIx (BitVec.ofNat 64 le))
        | (.ok bs, s2) =>
          match addrOr (fgSrc v) (fld (leNat bs) 0 24 * fgSStr v), addrOr (mrBase rec) (tget 0 m.cursors r * fgDStr v) with
          | .error (e, a), _ => some (s2.fgFail c f k m e m.unitIx a)
          | _, .error (e, a) => some (s2.fgFail c f k m e m.unitIx a)
          | .ok sa, .ok da =>
            if fgSpace da ≠ 0 then some (s2.fgFail c f k m (if fgSpace da = 3 then 0x4403 else 0x5005) m.unitIx da)
            else if da.toNat % 4 ≠ 0 then some (s2.fgFail c f k m 0x5002 m.unitIx da) else
            match s2.translate (some n) sa (fgLen v), s2.translate (some n) da (fgLen v) with
            | .error e, _ => some (s2.fgFail c f k m e m.unitIx sa)
            | _, .error e => some (s2.fgFail c f k m e m.unitIx da)
            | .ok _, .ok _ => some (s2.setFg c f k { m with cur := some (sa, da) })

/-- The next tally (R302): record `off` of the table onwards, in order of set and record. -/
def State.fgTallyStep (s : State) (c f k : Nat) (m : FgCmd) : Option State :=
  let v := fgV m
  let r := m.off
  if 8 * fgSets v ≤ r then some (s.setFg c f k { m with phase := .issued })
  else match s.fgRec c v r with
  | (.error e, s1) => some (s1.fgFail c f k m e (fgCount v) (BitVec.ofNat 64 (fgTable v + 32 * r)))
  | (.ok rec, s1) =>
    if !(mrValid rec) then some (s1.setFg c f k { m with off := r + 1 })
    else
      let i := fgTallyCtr v + mrGroup rec
      let a := ctrAddr (mrBase rec) i
      if 4095 < i then some (s1.fgFail c f k m 0x5008 (fgCount v) a)
      else s1.fgAdd c f k { m with off := r + 1 } a (2 ^ 32 + tget 0 m.cursors r) 8

/-! Issue (R288) -/

/-- What a started command issues next; none: it cannot issue now. -/
def State.fgNext (s : State) (c f k : Nat) (m : FgCmd) : Option State :=
  let v := fgV m
  if m.phase ≠ .started ∨ m.fault.isSome then none
  else if fgOp v = 6 then
    match s.residentAt c with
    | none => none
    | some n => if m.unitIx < fgCount v then s.fgDispatch c f k m n else s.fgTallyStep c f k m
  else if m.step = 1 then
    (if !m.opDone then none else if fgTail v then s.fgEnding c f k m else some (s.setFg c f k { m with phase := .issued }))
  else if m.unitIx < fgCount v then
    (if m.off = 0 && m.unitIx = 0 && m.cur = none && s.fgToOp c v then some (s.fgHand c f k m) else s.fgUnit c f k m)
  else s.fgEnding c f k m

/-- The first slot of a list that can issue. -/
def State.fgFirst (s : State) (c f : Nat) : List Nat → State
  | [] => s
  | k :: t =>
    match (s.forager c f).slots.find? (fun e => e.1 = k) with
    | none => s.fgFirst c f t
    | some (_, m) =>
      match s.fgNext c f k m with
      | some s1 => s1.setForager c f { s1.forager c f with last := k }
      | none => s.fgFirst c f t
/-- FG_PACKET_ISSUE (R288): started slots share the issue round-robin, one packet at a time. -/
def execFgPacketIssue (c f : Nat) (s : State) : Res :=
  onUnit (isComb c && decide (f < 4))
    (if s.fgOn c f then s.fgFirst c f (cyclicAfter 64 (s.forager c f).last) else s)

/-- An occupancy word has been read (R300). -/
def State.occRead (s : State) (c f key : Nat) (v : W32) : State :=
  let fg := s.forager c f
  match fg.estOf key with
  | some e => if e.val.isNone then s.setForager c f (fg.putEst { e with val := some v.toNat }) else s
  | none => s
/-- DISPATCH_OCC_READ_RETURN (R300): the commands that wait for the value go on. -/
def execDispatchOccReadReturn (c f key : Nat) (v : W32) (s : State) : Res := onUnit (isComb c && decide (f < 4)) (s.occRead c f key v)

/-! Completion (R294-R297) -/

/-- The 32 bytes of a completion record (R295). -/
def fgRecord (m : FgCmd) (ep : W64) : List Byte :=
  let v := fgV m
  match m.fault with
  | none => leBytes 32 (fgTag v * 2 ^ 32 + ep.toNat * 2 ^ 64)
  | some (code, u, a) =>
    let head := (if m.early then 1 else 2) + code.toNat * 2 ^ 16 + fgTag v * 2 ^ 32 + ep.toNat * 2 ^ 64
    leBytes 32 (if m.early then head else head + u % 2 ^ 24 * 2 ^ 128 + u % 2 ^ 24 * 2 ^ 160 + a.toNat * 2 ^ 192)
/-- The record can be written: `CREC_PTR` is in range (R296). -/
def fgCrecOk (v : Nat) : Bool := bit v 13 && fgCrec v % 32 = 0 && decide (fgCrec v + 32 ≤ 0x3000000)

/-- FG_COMPLETE (R294): record, counter, slot. -/
def State.fgComplete (s : State) (c f k : Nat) : State :=
  let fg := s.forager c f
  match fg.slots.find? (fun e => e.1 = k) with
  | none => s
  | some (_, m) =>
    let v := fgV m
    let n := s.residentAt c
    let atOp := fgOp v != 6 && m.step = 1 && !m.opDone
    let fin := m.outst.isEmpty && !atOp && (m.fault.isSome || m.phase = .issued)
    if !fin then s else
    -- the epoch a record names: open when it is written; for a fault, that of R260
    let ep := if m.fault.isSome then s.faultEpoch n else s.openEpoch n
    let s1 := if fgCrecOk v then (s.performWrite n c 0 (fgCrec v) (fgRecord m ep) (s.epLow n)).1 else s
    let s2 := if bit v 12 && m.fault.isNone then s1.passAdd c { ctx := n.getD 16, ix := fld v 16 12, amt := 1, who := some (.forager c f) } else s1
    -- a contribution whose trailer never left holds no write any more
    let s3 := if fgDig v && (m.phase = .started) then s2.writeDone n (m.epoch.getLsbD 0) else s2
    let fg1 := s3.forager c f
    let s4 := s3.setForager c f { fg1 with slots := tdel fg1.slots k, ended := if m.fault.isSome then tset false fg1.ended m.seqNo true else fg1.ended }
    let code : W16 := match m.fault with | some (x, _, _) => x | none => 0
    let s5 := s4.trace c 6 4 f (fgTag v + code.toNat * 65536)
    if m.fault.isSome then s5.event n code c (masterField (.forager c f)) 0 else s5
def execFgComplete (c f k : Nat) (s : State) : Res :=
  onUnit (isComb c && decide (f < 4 ∧ k < 64)) (if s.fgOn c f then s.fgComplete c f k else s)

end Sys2Proof.Machine
end

