-- ==== Sys2Proof/Machine/Debug.lean ====
section
/-! DEFINITION. The debug objects 0x2B20 (R510-R514): the peek path, debug writes, register reads and writes, halts, resumes and steps. -/

namespace Sys2Proof.Machine

open Sys2Proof

/-! What a debug access names (R510, R511) -/

/-- The vendor's grant is in force: it alone reaches service slots (R383). -/
def State.vendorGrant (s : State) : Bool := match s.grant with | some g => g.kind = 2 && !g.pending | none => false
/-- `DBG_STATUS` [31:16]. -/
def State.dbgCode (s : State) (p : Path) (code : W16) : State := s.setDbg p { s.dbgOf p with status := code.setWidth 32, wait := false }
/-- A refused debug access, with its code kept (R511). -/
def State.dbgBad (s : State) (p : Path) (r : Refuse) : Option Refuse × State := (some r, s.dbgCode p r.code)
/-- Outside the grant's scope (R386, R510). -/
def debugDenied : Refuse := ownCode 0x800A
/-- `DBG_TARGET` translated for the path: another module is refused with 0xC00D, a Comb outside the partition lies outside the grant's
scope, and what else R30 finds keeps its code. -/
def State.dbgTarget (s : State) (p : Path) : Except Refuse Tgt :=
  match s.translate (pathCtx p) (BitVec.ofNat 64 (s.obj (pathInst p) 0x2B20 1 0)) 8 with
  | .ok t => if t.rem.isSome then .error badValue else .ok t
  | .error e => .error (if e = 0x3003#16 then debugDenied else ownCode e)

/-- Kind, Comb and unit index of a word of `DBG_REG_SEL` or `DBG_RUN`. -/
def dbgKind (v : Nat) : Nat := v % 8
def dbgIx (v : Nat) : Nat := fld v 13 13
def State.dbgUnit (s : State) (p : Path) (v : Nat) : Except Refuse Nat :=
  if !([0, 1, 3, 4].contains (dbgKind v)) ∨ !(perfExists (dbgKind v) (dbgIx v) 0) then .error badValue else
  match s.callerComb p (fld v 3 10) with
  | none => .error (match p with | .tenant _ => debugDenied | _ => badValue)
  | some c => if dbgKind v = 0 ∧ dbgIx v % 5 = 4 ∧ !s.vendorGrant then .error debugDenied else .ok c

/-! The peek path (R512) -/

/-- A peek gives 8 bytes, or 0 with the code `DBG_STATUS` shows. -/
abbrev Peek := W64 × W16

/-- The 8 bytes of space 0 or 2, without verification: a poisoned or uncorrectable line gives 0 and its code, is logged, and stays as it is. -/
def State.peekMem (s : State) (p : Path) (c space off : Nat) : Peek × State :=
  let m := s.pmem (pathCtx p) c space
  let hard : Bool := if space = 0 then (List.range 8).any (fun i => decide (2 ≤ tget 0 m.ecc ((off + i) / 8)))
                     else (linesOf off 8).any (fun l => decide (4 ≤ tget 0 m.ecc l))
  match (if hard then some (if space = 0 then 0x3007#16 else 0x7001#16) else (m.poisoned off 8).map (·.1)) with
  | some code => ((0, code), s.combReport code 2 (if space = 2 then 2 else 1) c 0 (BitVec.ofNat 64 off))
  | none => ((BitVec.ofNat 64 (leNat (cellsRead m.bytes off 8)), 0), s)
/-- The head word or entry of an endpoint's queue, not popped. -/
def headOr (l : List W32) : Peek := if l.isEmpty then (0, 0x4204#16) else (BitVec.ofNat 64 (leNat (bytes32 (l.take 2))), 0)
def Worker.wqHead (w : Worker) : Peek := match w.wq with | [] => (0, 0x4204#16) | t :: _ => (BitVec.ofNat 64 (lget 0 t.words t.popped).toNat, 0)
def State.peekEndpoint (s : State) (c kind ix : Nat) : Except Refuse Peek × State :=
  if kind = 2 then (let r := s.loadReg c ix true; (.ok (BitVec.ofNat 64 (leNat r.1), 0), r.2))
  else if kind = 1 then
    (.ok (headOr (match (s.eng c).gq.find? (fun g => g.group = ix) with | some g => g.words | none => [])), s)
  else if kind = 0 ∧ ix < 640 ∧ !isStore ix then (.ok (s.worker c ix).wqHead, s)
  else (.error (ownCode 0x4504), s)
/-- A peek of space 0 is held while the Comb's Engine runs a Clause that is not halted. -/
def State.peekHeld (s : State) (p : Path) : Bool :=
  match s.dbgTarget p with
  | .ok t => t.space = 0 && (s.eng t.c).active.isSome && !(s.eng t.c).halted
  | .error _ => false
def State.peek (s : State) (p : Path) : Except Refuse Peek × State :=
  match s.dbgTarget p with
  | .error r => (.error r, s)
  | .ok t =>
    if t.space = 0 ∨ t.space = 2 then (let r := s.peekMem p t.c t.space t.off; (.ok r.1, r.2))
    else if t.space = 1 then (.ok (BitVec.ofNat 64 (leNat (cellsRead ((s.area t.c).cellMem (fld t.off 18 10)) (t.off % 2 ^ 18) 8)), 0), s)
    else if t.space = 3 then (.ok (BitVec.ofNat 64 ((s.area t.c).counter (t.off / 8)), 0), s)
    else s.peekEndpoint t.c (fld t.off 12 2) (fld t.off 2 10)
/-- Answer what a peek gave. -/
def peekAns (p : Path) (r : Except Refuse Peek × State) : Except Refuse ODat × State :=
  match r.1 with
  | .ok v => (.ok (.val v.1), r.2.dbgCode p v.2)
  | .error e => (.error e, r.2.dbgCode p e.code)
def dbgMemRd (p : Path) : Rd := fun s => peekAns p (s.peek p)
/-- The access is a peek that has to wait. -/
def State.dbgWaits (s : State) (p : Path) (idx sub : Nat) : Bool := idx = 0x2B20 && sub = 2 && s.dbgOpen p && s.peekHeld p
/-- DBG_MEM_READ (R511, R512): a held peek gives no answer yet; the command, given again, is its next try. -/
def execDbgMemRead (p : Path) (s : State) : Res :=
  onUnit (isPath p)
    (if s.dbgWaits p 0x2B20 2 then s.setDbg p { s.dbgOf p with wait := true } else s.readAnswer p 0x2B20 2 (dbgMemRd p))
/-- A peek read by SDO is answered on its bus. -/
def State.sdoPeekAbort (s : State) (p : Path) : State :=
  match p, s.mgmt.peekBus with
  | .mgmt, some b => State.sdoAbort { s with mgmt := { s.mgmt with peekBus := none } } b 0x2B20 2 badState.abort
  | _, _ => s.out (.answer p 0x2B20 2 0xC00E#16 0)
/-- PEEK_TIMEOUT (R512). -/
def execPeekTimeout (p : Path) (s : State) : Res :=
  onUnit (isPath p) (if (s.dbgOf p).wait then ((s.dbgCode p 0xC00E#16).refused p 0x2B20 2 badState).sdoPeekAbort p else s)

/-! Debug writes (R512) -/

/-- DBG_MEM_WRITE: an ordinary write of 8 bytes in the open epoch. -/
def dbgMemEff (p : Path) (v : W64) : Eff := fun s =>
  match s.dbgTarget p with
  | .error r => s.dbgBad p r
  | .ok t =>
    if t.space = 3 then s.dbgBad p (ownCode 0x4403)
    else if t.space = 4 then s.dbgBad p (ownCode 0x4504)
    else if s.lockWait t then s.dbgBad p badState
    else match s.performWrite (pathCtx p) t.c t.space t.off (leBytes 8 v.toNat) (s.epLow (pathCtx p)) with
      | (s1, some code) => s1.dbgBad p (ownCode code)
      | (s1, none) => (none, s1.dbgCode p 0)
def execDbgMemWrite (p : Path) (v : W64) (s : State) : Res := onUnit (isPath p) (s.writeAnswer p 0x2B20 2 v (dbgMemEff p v))

/-! Registers (R511) -/

/-- A register of the slot itself, reached only while the slot is halted or stopped. -/
def slotOwn (r : Nat) : Bool := decide (r < 0x120) || r = 0x200 || r = 0x412
/-- The Waggle queue and port heads and the other special registers of a cell, read without effect (R187). -/
def State.peekSpecial (s : State) (c k sl i : Nat) : Except Refuse Peek :=
  let w := s.worker c k
  let one (v : W32) : Except Refuse Peek := .ok (v.setWidth 64, 0)
  if i < 4 then .ok (match w.ports.inQ i with | [] => (0, 0x4204#16) | v :: _ => (v, 0))
  else if i = 0x008 then one w.wqInfo
  else if i = 0x009 then .ok w.wqHead
  else if i = 0x00A then one w.ptCfg
  else if i = 0x010 then one (s.slotId ⟨c, k, sl % 4⟩)
  else if i = 0x011 then one w.slotState
  else if i = 0x012 then .ok ((w.slot sl).rng, 0)
  else if 0x014 ≤ i ∧ i ≤ 0x017 then one (w.slot (i - 0x014)).fault
  else if 0x018 ≤ i ∧ i ≤ 0x01B then one (w.slot (i - 0x018)).fpc
  else if i = 0x01C then .ok (s.ts, 0)
  else .error (ownCode 0x4205)
/-- The slot is halted, frozen or stopped. -/
def State.slotStill (s : State) (c k sl : Nat) : Bool :=
  if sl = 4 then (s.worker c k).svcHalt || !(s.eng c).fallback
  else let x := (s.worker c k).slot sl; x.halted || x.frozen || !x.running
/-- A register of a Worker Cell slot; slot 4 is the service slot, whose PC the spec does not tell (a free value). -/
def State.peekSlot (s : State) (c k sl r : Nat) : Except Refuse Peek × State :=
  let w := s.worker c k
  let x := w.slot sl
  let ok (v : W32) : Except Refuse Peek × State := (.ok (v.setWidth 64, 0), s)
  if slotOwn r ∧ !(s.slotStill c k sl) then (.error badState, s)
  else if r < 0x20 then ok (if sl = 4 then tget 0 w.svcS r else x.s r)
  else if r < 0x120 then ok (if sl = 4 then tget 0 w.svcV (r - 0x20) else tget 0 x.vregs (r - 0x20))
  else if r = 0x200 then (if sl = 4 then (let d := s.draw; (.ok (d.1.setWidth 64, 0), d.2)) else ok (BitVec.ofNat 32 x.pc))
  else if 0x400 ≤ r then (s.peekSpecial c k sl (r - 0x400), s)
  else (.error badValue, s)
def State.peekReg (s : State) (p : Path) : Except Refuse Peek × State :=
  let v := s.obj (pathInst p) 0x2B20 3 0
  let r := fld v 26 12
  let ix := dbgIx v
  match s.dbgUnit p v with
  | .error e => (.error e, s)
  | .ok c =>
    match dbgKind v with
    | 0 => s.peekSlot c (ix / 5) (ix % 5) r
    | 1 => (if (srAccess (ix / 2) r).1 then .ok (((s.store c (ix / 2)).readReg r).setWidth 64, 0) else .error (ownCode 0x4205), s)
    | 3 => (.ok (((s.eng c).readReg (s.eng (partnerOf c)).fallback r).setWidth 64, 0), s)
    | _ =>
      let f := s.forager c ix
      (if r < 0x400 then .ok ((match f.slots.find? (fun e => e.1 = r / 16) with | some e => (lget 0 e.2.desc (r % 16)).setWidth 64 | none => 0), 0)
       else if r = 0x400 then .ok (f.taken, 0) else .error badValue, s)
def dbgRegRd (p : Path) : Rd := fun s => peekAns p (s.peekReg p)
/-- DBG_REG_READ (R511, R512). -/
def execDbgRegRead (p : Path) (s : State) : Res := onUnit (isPath p) (s.readAnswer p 0x2B20 4 (dbgRegRd p))

/-- A write of a special register (R187, R512). -/
def State.putSpecial (s : State) (c k sl i : Nat) (v : W64) : Except Refuse State :=
  let w := s.worker c k
  if i < 8 ∨ i = 0x009 then .error badState
  else if i = 0x00A then
    (if ptCfgOk (v.toNat % 2 ^ 32) then .ok (s.setWorker c k { w with ptCfg := v.setWidth 32 }) else .error (ownCode 0x4202))
  else if i = 0x012 then .ok (s.setWorker c k (w.setSlot sl { w.slot sl with rng := v }))
  else .error (ownCode 0x4205)
def State.putSlot (s : State) (c k sl r : Nat) (v : W64) : Except Refuse State :=
  let w := s.worker c k
  let x := w.slot sl
  let n : W32 := v.setWidth 32
  if slotOwn r ∧ !(s.slotStill c k sl) then .error badState
  else if r < 0x20 then .ok (s.setWorker c k (if sl = 4 then { w with svcS := tset 0 w.svcS r n } else w.setSlot sl (x.setS r n)))
  else if r < 0x120 then
    .ok (s.setWorker c k (if sl = 4 then { w with svcV := tset 0 w.svcV (r - 0x20) n } else w.setSlot sl { x with vregs := tset 0 x.vregs (r - 0x20) n }))
  else if r = 0x200 then
    (if sl = 4 then .ok s else if pcOk v.toNat then .ok (s.setWorker c k (w.setSlot sl { x with pc := v.toNat, fetch := none })) else .error badValue)
  else if 0x400 ≤ r then s.putSpecial c k sl (r - 0x400) v
  else .error badValue
/-- A write of a Store Cell register (R194): `SQ_GEN` and `SQ_CTW` are refused. -/
def State.putStore (s : State) (c k r : Nat) (v : W64) : Except Refuse State :=
  if r < 8 then .error badState
  else if !(srAccess k r).2 then .error (ownCode 0x4205)
  else
    let w := (s.store c k).write r (v.setWidth 32)
    match w.2.1 with
    | some code => .error (ownCode code)
    | none => .ok (s.setStore c k w.1)
/-- DBG_REG_WRITE (R511, R512). -/
def dbgRegEff (p : Path) (v : W64) : Eff := fun s =>
  let q := s.obj (pathInst p) 0x2B20 3 0
  let r := fld q 26 12
  let ix := dbgIx q
  let put : Except Refuse State → Option Refuse × State := fun e =>
    match e with | .ok s1 => (none, s1.dbgCode p 0) | .error r => s.dbgBad p r
  match s.dbgUnit p q with
  | .error e => s.dbgBad p e
  | .ok c =>
    match dbgKind q with
    | 0 => put (s.putSlot c (ix / 5) (ix % 5) r v)
    | 1 => put (s.putStore c (ix / 2) r v)
    | 3 =>
      let ws : List W32 := if r = 0x20 then [v.setWidth 32, (v >>> 32).setWidth 32] else [v.setWidth 32]
      let s1 := s.engPortWrite (pathCtx p) c r ws
      (match ((s.area c).engWrite r ws).2 with | some e => s1.dbgBad p (ownCode e.1) | none => (none, s1.dbgCode p 0))
    | _ =>
      let f := s.forager c ix
      if r < 0x400 then
        put (if f.slots.any (fun e => e.1 = r / 16) then
          .ok (s.setForager c ix { f with slots := f.slots.map (fun (e : Nat × FgCmd) =>
            (e.1, if e.1 = r / 16 then { e.2 with desc := lset e.2.desc (r % 16) (v.setWidth 32) } else e.2)) })
          else .error badState)
      else put (if r = 0x400 then .ok (s.setForager c ix { f with taken := v }) else .error badValue)
def execDbgRegWrite (p : Path) (v : W64) (s : State) : Res := onUnit (isPath p) (s.writeAnswer p 0x2B20 4 v (dbgRegEff p v))

/-! Halts, resumes and steps (R513, R514) -/

/-- Run the meaning of a Worker Cell instruction. -/
def State.runCell (s : State) (u : SlotRef) : COp → Res
  | .nop => execCNop u s
  | .add => execCAdd u s
  | .sub => execCSub u s
  | .and => execCAnd u s
  | .or => execCOr u s
  | .xor => execCXor u s
  | .shl => execCShl u s
  | .shr => execCShr u s
  | .sra => execCSra u s
  | .slt => execCSlt u s
  | .sltu => execCSltu u s
  | .mul => execCMul u s
  | .mulhu => execCMulhu u s
  | .addi => execCAddi u s
  | .andi => execCAndi u s
  | .ori => execCOri u s
  | .xori => execCXori u s
  | .shi => execCShi u s
  | .lui => execCLui u s
  | .beq => execCBeq u s
  | .bne => execCBne u s
  | .blt => execCBlt u s
  | .bge => execCBge u s
  | .bltu => execCBltu u s
  | .bgeu => execCBgeu u s
  | .jal => execCJal u s
  | .jr => execCJr u s
  | .ld => execCLd u s
  | .st => execCSt u s
  | .vld => execCVld u s
  | .vst => execCVst u s
  | .gld => execCGld u s
  | .gst => execCGst u s
  | .fenceR => execCFenceRelease u s
  | .fenceA => execCFenceAcquire u s
  | .fenceRA => execCFenceReleaseAcquire u s
  | .vadd => execCVadd u s
  | .vsub => execCVsub u s
  | .vmul => execCVmul u s
  | .vfma => execCVfma u s
  | .vmax => execCVmax u s
  | .vmin => execCVmin u s
  | .vexp => execCVexp u s
  | .vrcp => execCVrcp u s
  | .vrsq => execCVrsq u s
  | .vcvtDown => execCVcvtFp32ToBf16 u s
  | .vcvtUp => execCVcvtBf16ToFp32 u s
  | .viadd => execCViadd u s
  | .visub => execCVisub u s
  | .vimul => execCVimul u s
  | .vand => execCVand u s
  | .vor => execCVor u s
  | .vxor => execCVxor u s
  | .vshl => execCVshl u s
  | .vshr => execCVshr u s
  | .vsra => execCVsra u s
  | .vilt => execCVilt u s
  | .vredFSum => execCVredFp32Sum u s
  | .vredFMax => execCVredFp32Max u s
  | .vredISum => execCVredInt32Sum u s
  | .vredIMax => execCVredInt32Max u s
  | .vbc => execCVbc u s
  | .vget => execCVget u s
  | .vset => execCVset u s
  | .vmov => execCVmov u s
  | .qnt => execCQnt u s
  | .qsl => execCQsl u s
  | .dqt => execCDqt u s
  | .spx => execCSpx u s
  | .mfs => execCMfs u s
  | .mts => execCMts u s
  | .vpop => execCVpop u s
  | .wsnd => execCWsnd u s
  | .cadd => execCCadd u s
  | .caddRemote => execCCaddRemote u s
  | .cwait => execCCwait u s
  | .ctest => execCCtest u s
  | .crd => execCCrd u s
  | .srr => execCSrr u s
  | .srw => execCSrw u s
  | .spawn => execCSpawn u s
  | .lock => execCLock u s
  | .unlock => execCUnlock u s
  | .endSlot => execCEnd u s
/-- The state after a step that answered; a stop changes nothing. -/
def resState (s : State) : Res → State
  | .next t => t
  | _ => s
/-- Issue the instruction at the slot's PC. -/
def State.issueOne (s : State) (u : SlotRef) : State :=
  let w := s.worker u.comb u.cell
  resState s (match cellOp (fetchWord w (w.slot u.slot)) with | some o => s.runCell u o | none => execCNop u s)
/-- Go on to the end of an open locked sequence, `fuel` instructions at most (R191). -/
def State.issueLocked (u : SlotRef) : Nat → State → State
  | 0, s => s
  | f + 1, s => if (s.slot u).lock.isSome then issueLocked u f (s.issueOne u) else s
/-- One instruction, element, packet or activation read of a unit; the Engine then goes on to its K-chunk boundary as halted (R513). -/
def State.stepUnit (s : State) (kind c ix : Nat) : State :=
  match kind with
  | 0 =>
    if ix % 5 = 4 then (if (s.eng c).fallback then s.fallbackStep c else s)
    else let u : SlotRef := ⟨c, ix / 5, ix % 5⟩; State.issueLocked u 18 (s.issueOne u)
  | 1 =>
    let s1 := if ((s.store c (ix / 2)).gen (ix % 2)).slot.isNone then resState s (execGenDescStart c (ix / 2) (ix % 2) s) else s
    resState s1 (execGenElementMove c (ix / 2) (ix % 2) s1)
  | 3 => if s.engOn c then (let s1 := s.swapTiles c; if s1 = s then s.activation c else s1) else s
  | _ => resState s (execFgPacketIssue c ix s)
/-- Remember who halted a unit, so that the grant's end resumes it (R514). -/
def State.noteHalt (s : State) (p : Path) (h : Nat × Nat × Nat) (b : Bool) : State :=
  let d := s.dbgOf p
  let l := d.halts.filter (fun x => x != h)
  s.setDbg p { d with halts := if b then l ++ [h] else l }
/-- A write of `DBG_RUN` with operation `op` in [27:26]; one with another operation is another command's. -/
def dbgRunEff (p : Path) (v : W64) : Eff := fun s =>
  let n := v.toNat
  let k := dbgKind n
  let ix := dbgIx n
  match s.dbgUnit p n with
  | .error r => s.dbgBad p r
  | .ok c =>
    let s1 := (s.storeObj p 0x2B20 5 v).dbgCode p 0
    (none, match fld n 26 2 with
      | 0 => (s1.setHalt k c ix true).noteHalt p (k, c, ix) true
      | 1 => (s1.setHalt k c ix false).noteHalt p (k, c, ix) false
      | _ => (((s1.setHalt k c ix false).stepUnit k c ix).setHalt k c ix true).noteHalt p (k, c, ix) true)
def State.dbgRun (s : State) (p : Path) (op : Nat) (v : W64) : State :=
  if fld v.toNat 26 2 = op ∨ 3 ≤ fld v.toNat 26 2 then s.writeAnswer p 0x2B20 5 v (dbgRunEff p v) else s
/-- DBG_HALT (R513). -/
def execDbgHalt (p : Path) (v : W64) (s : State) : Res := onUnit (isPath p) (s.dbgRun p 0 v)
/-- DBG_RESUME (R513, R514): a frozen master stays frozen. -/
def execDbgResume (p : Path) (v : W64) (s : State) : Res := onUnit (isPath p) (s.dbgRun p 1 v)
/-- DBG_STEP (R513). -/
def execDbgStep (p : Path) (v : W64) (s : State) : Res := onUnit (isPath p) (s.dbgRun p 2 v)

/-- A unit is halted, frozen, and its halt still on its way to the boundary (R511, R513). -/
def State.haltBits (s : State) (kind c ix : Nat) : Nat :=
  let a := s.area c
  match kind with
  | 0 => (let w := a.worker (ix / 5)
          if ix % 5 = 4 then b2n w.svcHalt else b2n (w.slot (ix % 5)).halted + 2 * b2n (w.slot (ix % 5)).frozen)
  | 1 => b2n (tget {} (a.store (ix / 2)).gens (ix % 2)).halted
  | 3 =>
    let e := a.eng
    let mid : Bool := match e.active with | some sl => (e.run sl).phase = .stream && decide (0 < (e.run sl).pos ∨ 0 < (e.run sl).pass) | none => false
    (if e.halted then (if mid then 4 else 1) else 0) + 2 * b2n ((List.range 4).any (tget false e.frozen))
  | _ => b2n (a.forager ix).halted + 2 * b2n (a.forager ix).frozen
/-- `DBG_STATUS` (R511): of the unit that `DBG_RUN` last named. -/
def State.dbgStatus (s : State) (p : Path) : Nat :=
  let v := s.obj (pathInst p) 0x2B20 5 0
  (match s.dbgUnit p v with | .ok c => s.haltBits (dbgKind v) c (dbgIx v) | .error _ => 0) + (s.dbgOf p).status.toNat * 65536

end Sys2Proof.Machine
end

