-- ==== Sys2Proof/Machine/Pins.lean ====
section
/-! DEFINITION. The multi-function pins: configuration, parking, step-sync, the UART console, and the TAP's reset (R510, R526-R532). -/

namespace Sys2Proof.Machine

open Sys2Proof

/-- The effect of a write of `MFP_CFGn` (R531, R532): a change of `FUNC` parks the pin; a change of `OUT` under `FUNC` 1 is applied; a
change of `PARK` alone is stored. -/
def mfpCfgEff (p : Path) (n : Nat) (v : W64) : Eff := Eff.ok (fun s =>
  let old := s.obj 0 0x2D00 (n + 1) 0
  let w := v.toNat
  let s1 := s.storeObj p 0x2D00 (n + 1) v
  let x := s.pinOf n
  if w % 8 ≠ old % 8 then s1.parkPin n (w % 8) (bit w 3)
  else if w % 8 = 1 ∧ !x.parked ∧ bit w 4 ≠ bit old 4 then (s1.setPin n { x with level := bit w 4 }).out (.pin n (bit w 4))
  else s1)
/-- MFP_CFG_WRITE (R527-R532). -/
def execMfpCfgWrite (p : Path) (n : Nat) (v : W64) (s : State) : Res :=
  onUnit (isPath p && isPin n) (s.writeAnswer p 0x2D00 (n + 1) v (mfpCfgEff p n v))
/-- MFP_HANDOVER (R531): the pin is handed to the function last named; clock out begins with its low phase. -/
def execMfpHandover (n : Nat) (s : State) : Res :=
  onUnit (isPin n)
    (let x := s.pinOf n
     match x.next with
     | none => s
     | some f =>
       if !x.parked then s else
       let lvl : Bool := if f = 1 then bit (s.obj 0 0x2D00 (n + 1) 0) 4 else if f = 4 then s.pulse else false
       let s1 := s.setPin n { x with func := f, next := none, parked := false, level := lvl }
       if f = 1 ∨ f = 2 ∨ f = 4 then s1.out (.pin n lvl) else s1)

/-- STEP_SYNC_IN_EDGE (R530): an edge that stays high for 100 ns on a pin that carries step-sync in. -/
def execStepSyncInEdge (n ns : Nat) (s : State) : Res :=
  onUnit (isPin n)
    (if (s.pinOf n).func = 3 ∧ !(s.pinOf n).parked ∧ 100 ≤ ns then
       (s.setObj 0 0x2D00 13 s.ts.toNat).setObj 0 0x2D00 14 ((s.obj 0 0x2D00 14 0 + 1) % 2 ^ 32)
     else s)
/-- STEP_SYNC_PULSE_END (R530). -/
def execStepSyncPulseEnd (s : State) : Res :=
  .next (if !s.pulse then s else
    let ps := (List.range 8).filter (fun k => (s.pinOf k).func = 4 && !(s.pinOf k).parked)
    ps.foldl (fun (s : State) k => (s.setPin k { s.pinOf k with level := false }).out (.pin k false)) { s with pulse := false })

/-- UART_RECEIVE (R530): a character is discarded unless a vendor grant is in force. -/
def execUartReceive (b : Byte) (s : State) : Res :=
  .next (if s.vendorGrant && (s.pinOf 7).func = 6 && !(s.pinOf 7).parked then { s with uartIn := s.uartIn ++ [b] } else s)

/-- JTAG_TRST (R510, R526): the TAP alone is reset; its instruction is `IDCODE` again. -/
def execJtagTrst (s : State) : Res := .next { s with tapDbg := false }

end Sys2Proof.Machine
end

