-- ==== Sys2Proof/Machine/DictCmd.lean ====
section
/-! DEFINITION. The dictionary as a whole: which object's write has which effect, what each read gives, and the commands of the host window's
DOMAIN channel, the snapshots, the context selector and the boot flash (R473-R478, R485-R494). -/

namespace Sys2Proof.Machine

open Sys2Proof

/-! TPDO objects (R482, R485) -/

/-- Entries of a TPDO that map something, in order. -/
def State.tpdoMap (s : State) (k : Nat) : List Nat :=
  ((List.range 16).map (fun i => s.obj 0 (0x1A00 + k) (i + 1) (s.objDefault (0x1A00 + k) (i + 1)))).filter (· != 0)
/-- A mapping entry names an object of its length that O may read, neither DOMAIN nor VISIBLE_STRING. -/
def State.mapOk (s : State) (v : Nat) : Bool :=
  v = 0 || (match s.objCheck .mgmt (v / 65536) (fld v 8 8) false with
    | .ok r => !r.ty.isDom && r.ty.width = v % 256
    | .error r => r.code = 0x800A)
/-- The effect of a write to a TPDO's mapping (R485). -/
def tpdoMapEff (p : Path) (k sub : Nat) (v : W64) : Eff := fun s =>
  if !(bit (s.obj 0 (0x1800 + k) 1 (s.objDefault (0x1800 + k) 1)) 31) then (some badState, s)
  else
    let s1 := s.storeObj p (0x1A00 + k) sub v
    if !(s.mapOk v.toNat) ∨ 512 < ((s1.tpdoMap k).map (· % 256)).foldl (· + ·) 0 then (some badValue, s) else (none, s1)

/-! Snapshots (R492-R494) -/

/-- Index and subindex of each entry. -/
def snapEntries (l : List Byte) : List (Nat × Nat) := (words32 l).map (fun w => (w.toNat % 65536, fld w.toNat 16 8))
/-- Why an entry is refused. -/
def State.snapBad (s : State) (p : Path) (w : W32) : Option Refuse :=
  match s.objCheck p (w.toNat % 65536) (fld w.toNat 16 8) false with
  | .error r => some r
  | .ok r => if fld w.toNat 24 8 ≠ 0 ∨ r.ty.isDom then some badValue else none
/-- The effect of a write of `SNAP_LIST` (R493): the first entry that fails refuses the list. -/
def snapListEff (p : Path) (l : List Byte) : Eff := fun s =>
  if l.length % 4 ≠ 0 ∨ 256 < l.length then (some badLength, s) else
  match (words32 l).findSome? (s.snapBad p) with
  | some r => (some r, s)
  | none =>
    let i := pathInst p
    (none, ((s.setDom i 0x2090 1 l).setDom i 0x2090 4 (List.replicate (2 * l.length) 0)).setObj i 0x2090 3 0)

/-! Reads -/

/-- What a read of a listed object gives. -/
def domRd (p : Path) (idx sub : Nat) : Rd := fun s =>
  if idx = 0x2802 then challengeRd (sub - 1) s
  else if idx = 0x2807 then frzDataRd (sub - 1) s
  else if idx = 0x2840 then dbgChallengeRd s
  else if idx = 0x2920 ∧ sub = 2 then cperRd s
  else if idx = 0x2A20 then (.ok (.bytes (s.pcBlock p)), s)
  else (.ok (.bytes (s.domVal p idx sub)), s)
def scalarRd (p : Path) (idx sub : Nat) : Rd := fun s =>
  if idx = 0x2A20 ∧ sub = 3 then (.ok (.val (s.pcLatched p).val), s)
  else if idx = 0x2A20 ∧ sub = 4 then (.ok (.val (BitVec.ofNat 64 (b2n (s.pcLatched p).sticky))), s)
  else if idx = 0x2B20 ∧ sub = 2 then dbgMemRd p s
  else if idx = 0x2B20 ∧ sub = 4 then dbgRegRd p s
  else if idx = 0x2B20 ∧ sub = 6 then (.ok (.val (BitVec.ofNat 64 (s.dbgStatus p))), s)
  else (.ok (.val (BitVec.ofNat 64 (s.objVal p idx sub))), s)
def isDomObj (idx sub : Nat) : Bool := match objRow idx sub with | some r => r.ty.isDom | none => false
def objRd (p : Path) (idx sub : Nat) : Rd := if isDomObj idx sub then domRd p idx sub else scalarRd p idx sub
/-- Decide a read of an object. -/
def State.objRead (s : State) (p : Path) (idx sub : Nat) : Except Refuse ODat × State := s.objGet p idx sub (objRd p idx sub)

/-- Read listed scalars one after the other at one edge (R485, R494); the first refusal ends it. -/
def State.readAll (s : State) (p : Path) : List (Nat × Nat) → Except Refuse (List W64) × State
  | [] => (.ok [], s)
  | e :: t =>
    if s.dbgWaits p e.1 e.2 then (.error badState, s) else
    match s.objGet p e.1 e.2 (scalarRd p e.1 e.2) with
    | (.error r, s1) => (.error r, s1)
    | (.ok d, s1) =>
      match s1.readAll p t with
      | (.error r, s2) => (.error r, s2)
      | (.ok l, s2) => (.ok ((match d with | .val v => v | .bytes _ => 0) :: l), s2)
/-- The effect of a write of `SNAP_TAKE` (R494). -/
def snapTakeEff (p : Path) : Eff := fun s =>
  let i := pathInst p
  match s.readAll p (snapEntries (s.dom i 0x2090 1)) with
  | (.error r, _) => (some r, s)
  | (.ok l, s1) => (none, (s1.setDom i 0x2090 4 (bytes64 l)).setObj i 0x2090 3 s.ts.toNat)

/-! Writes -/

/-- The effect of a write of a scalar object: its own rule's, or the value is stored. -/
def effA (p : Path) (idx sub : Nat) (v : W64) : Option Eff :=
  if 0x1A00 ≤ idx ∧ idx ≤ 0x1A03 then some (tpdoMapEff p (idx - 0x1A00) sub v) else
  match idx, sub with
  | 0x2090, _ => some (snapTakeEff p)
  | 0x2100, 11 => some pwrRestartEff
  | 0x2300, 3 => some (refSelEff p v)
  | 0x2300, 8 => some (sscOutEff p v)
  | 0x2501, _ => some (tyCtlEff p (sub - 1) v)
  | 0x2610, _ => some (mwResEff (sub - 1) v)
  | 0x2710, _ => some (dwEff p (sub - 1) v)
  | 0x2720, _ => some (rewindEff (sub - 1) v)
  | 0x2730, _ => some (fgRingEff p (sub - 1) v)
  | _, _ => none
def effB (p : Path) (idx sub : Nat) (v : W64) : Option Eff :=
  match idx, sub with
  | 0x2830, _ => some (opFrzReleaseEff v)
  | 0x2840, _ => some (Eff.ok State.grantEnd)
  | 0x2900, 6 => some elogClearEff
  | 0x2910, _ => some (pbRunEff v)
  | 0x2A00, _ => some (Eff.ok (fun s => s.latch p))
  | 0x2A20, 1 => some (pcSelEff p v)
  | 0x2A20, 3 => some (pcValueEff p v)
  | 0x2A20, 4 => some (pcStickyEff p)
  | 0x2B00, _ => (pathCtx p).map (fun n => trCfgEff n sub v)
  | _, _ => none
def effC (p : Path) (idx sub : Nat) (v : W64) : Option Eff :=
  match idx, sub with
  | 0x2B20, 2 => some (dbgMemEff p v)
  | 0x2B20, 4 => some (dbgRegEff p v)
  | 0x2B20, 5 => some (dbgRunEff p v)
  | 0x2C10, 1 => some (rollPlanEff p v)
  | 0x2C10, 4 => some rollStartEff
  | 0x2C20, _ => some (maintReqEff v)
  | 0x2C30, _ => some fwCommitEff
  | 0x2D00, _ => if sub ≤ 8 then some (mfpCfgEff p (sub - 1) v) else none
  | _, _ => none
def scalarEff (p : Path) (idx sub : Nat) (v : W64) : Eff :=
  match effA p idx sub v with
  | some e => e
  | none => match effB p idx sub v with
    | some e => e
    | none => match effC p idx sub v with
      | some e => e
      | none => Eff.ok (fun s => s.storeObj p idx sub v)
/-- `PEER_LIST` holds whole serial numbers (R389). -/
def peerListEff (l : List Byte) : Eff := fun s => if l.length % 8 ≠ 0 ∨ 131072 < l.length then (some badLength, s) else (none, s.setDom 0 0x2810 2 l)
/-- The effect of a write of a DOMAIN object. -/
def domEff (p : Path) (idx sub : Nat) (b : List Byte) : Eff :=
  match idx with
  | 0x2090 => snapListEff p b
  | 0x2801 => tenantKeyEff (sub - 1) b
  | 0x2803 => tokenEff (sub - 1) b
  | 0x2804 => ctxNonceEff (sub - 1) b
  | 0x2810 => peerListEff b
  | 0x2840 => dbgGrantEff b
  | 0x2850 => fun s => if 4096 < b.length then (some badLength, s) else (none, s.spdmTake 2 b (Config.spdmIsCosign b))
  | 0x2910 => pbImageEff b
  | _ => fwImageEff b
/-- Decide a write of a scalar, and of a DOMAIN. -/
def State.objWrite (s : State) (p : Path) (idx sub : Nat) (v : W64) : Option Refuse × State := s.objPut p idx sub v (scalarEff p idx sub v)
def State.domWrite (s : State) (p : Path) (idx sub : Nat) (b : List Byte) : Option Refuse × State := s.domPut p idx sub (domEff p idx sub b)

/-- OBJECT_WRITE (R473, R487, R490). -/
def execObjectWrite (p : Path) (idx sub : Nat) (v : W64) (s : State) : Res := onUnit (isPath p) (s.writeAnswer p idx sub v (scalarEff p idx sub v))
/-- CTX_SEL_WRITE (R476). -/
def execCtxSelWrite (p : Path) (v : W64) (s : State) : Res := onUnit (isPath p) (s.writeAnswer p 0x2091 3 v (Eff.ok (fun s => s.storeObj p 0x2091 3 v)))
/-- SNAP_LIST_WRITE (R493). -/
def execSnapListWrite (p : Path) (l : List Byte) (s : State) : Res := onUnit (isPath p) (s.domAnswer p 0x2090 1 (snapListEff p l))
/-- SNAP_TAKE (R494). -/
def execSnapTake (p : Path) (v : W64) (s : State) : Res := onUnit (isPath p) (s.writeAnswer p 0x2090 2 v (snapTakeEff p))
/-- PERSIST_STORE (R477): the boot flash takes the value that the object holds. -/
def execPersistStore (idx sub : Nat) (s : State) : Res :=
  .next (if !(persistent idx sub) then s
    else if isDomObj idx sub then { s with flashDoms := tput s.flashDoms (okey 0 idx sub) (s.dom 0 idx sub) }
    else match tget none s.objs (okey 0 idx sub) with
      | some v => { s with flash := tput s.flash (okey 0 idx sub) (some v) }
      | none => s)

/-! The DOMAIN channel (R488) -/

/-- `DW_STATUS`: state and code. -/
def dwWord (st : Nat) (code : W16) : W32 := BitVec.ofNat 32 (st + code.toNat * 65536)
def State.dwEnd (s : State) (h st : Nat) (code : W16) : State := s.setHlp h { s.hlp h with dwStat := dwWord st code }
/-- A write of `DW_SEL` opens a transfer; one for reading takes the object as it is now. -/
def State.dwOpen (s : State) (h : Nat) (v : W64) : State :=
  let w := v.toNat
  let s1 := s.setHlp h { s.hlp h with dwSel := v.setWidth 32, dwLen := 0, dwOff := 0, dwStat := 0, dwBuf := [], dwStage := [], dwParts := [] }
  if 2 ^ 25 ≤ w then s1.dwEnd h 3 0xC00D#16
  else if bit w 24 then s1
  else
    let idx := w % 65536
    let sub := fld w 16 8
    if !(isDomObj idx sub) ∧ (objRow idx sub).isSome then (s1.refused (.hl h) idx sub badLength).dwEnd h 3 0xC00D#16
    else match s1.objRead (.hl h) idx sub with
      | (.error r, s2) => s2.dwEnd h 3 r.code
      | (.ok (.bytes b), s2) => s2.setHlp h { s2.hlp h with dwLen := b.length, dwStage := b }
      | (.ok (.val _), s2) => s2
/-- DW_SEL_WRITE. -/
def execDwSelWrite (h : Nat) (v : W64) (s : State) : Res :=
  onUnit (isHl h) (if s.pathOpen (.hl h) then s.dwOpen h v else s.unanswered (.hl h))
/-- `DW_GO` 1: load 64 KiB of a read, or stage the buffer's bytes at `DW_OFF`. -/
def State.dwMove (s : State) (h len off : Nat) (buf : List Byte) : State :=
  let x := s.hlp h
  let w := x.dwSel.toNat
  let bad := (s.refused (.hl h) (w % 65536) (fld w 16 8) badLength).dwEnd h 3 0xC00D#16
  if x.dwStat.toNat % 4 = 3 then s
  else if off % 65536 ≠ 0 then bad
  else if !(bit w 24) then s.setHlp h { x with dwOff := off, dwBuf := (x.dwStage.drop off).take 65536, dwStat := dwWord 2 0 }
  else if 65536 < buf.length ∨ 0x1000000 < len ∨ len < off + buf.length then bad
  else
    s.setHlp h { x with dwLen := len, dwOff := off, dwBuf := buf, dwStat := dwWord 2 0
                        dwStage := (lfit 0 off x.dwStage) ++ buf ++ x.dwStage.drop (off + buf.length)
                        dwParts := (off, buf.length) :: x.dwParts.filter (fun q => q.1 != off) }
/-- DW_GO_TRANSFER. -/
def execDwGoTransfer (h len off : Nat) (buf : List Byte) (s : State) : Res :=
  onUnit (isHl h) (if s.pathOpen (.hl h) then s.dwMove h len off buf else s.unanswered (.hl h))
/-- `DW_GO` 2: the staged bytes are applied as one write. -/
def State.dwCommit (s : State) (h : Nat) : State :=
  let x := s.hlp h
  let w := x.dwSel.toNat
  let idx := w % 65536
  let sub := fld w 16 8
  if x.dwStat.toNat % 4 = 3 ∨ !(bit w 24) then s
  else if (x.dwParts.map (·.2)).foldl (· + ·) 0 < x.dwLen then (s.refused (.hl h) idx sub badLength).dwEnd h 3 0xC00D#16
  else match s.domWrite (.hl h) idx sub (x.dwStage.take x.dwLen) with
    | (none, s1) => s1.setHlp h { s1.hlp h with dwStat := dwWord 2 0, dwStage := [], dwParts := [] }
    | (some r, s1) => s1.dwEnd h 3 r.code
/-- DW_GO_COMMIT. -/
def execDwGoCommit (h : Nat) (s : State) : Res :=
  onUnit (isHl h) (if s.pathOpen (.hl h) then s.dwCommit h else s.unanswered (.hl h))

end Sys2Proof.Machine
end

