-- ==== Sys2Proof/Machine/Contexts.lean ====
section
/-! DEFINITION. Contexts in a time-slice group: the end of a created context's fill, quanta, switches, and the end of a destruction
(R353-R357). -/

namespace Sys2Proof.Machine

open Sys2Proof

/-- Two contexts have the same partition (R353). -/
def Ctx.sameRect (x y : Ctx) : Bool := x.x0 = y.x0 && x.y0 = y.y0 && x.wM1 = y.wM1 && x.hM1 = y.hM1
/-- Members of a context's group, itself among them. -/
def State.group (s : State) (n : Nat) : List Nat := (List.range 16).filter (fun k => (s.ctx k).st != 0 && (s.ctx k).sameRect (s.ctx n))
/-- The next member in state 3, in ascending order and cyclically (R355). -/
def State.nextMember (s : State) (n : Nat) : Option Nat :=
  ((List.range 15).map (fun i => (n + 1 + i) % 16)).find? (fun k => (s.group n).contains k && (s.ctx k).st = 3)
/-- The resident member of a group. -/
def State.residentOf (s : State) (n : Nat) : Option Nat := (s.group n).find? (fun k => (s.ctx k).resident)
/-- A switch of the group is under way. -/
def State.groupMoves (s : State) (n : Nat) : Bool := (s.group n).any (fun k => (s.ctx k).moving != 0)
def State.setSwitch (s : State) (n m : Nat) : State := s.setCtx n { s.ctx n with switchTo := some m }

/-- CTX_FILL_DONE (R352): the context is ready. -/
def execCtxFillDone (n : Nat) (s : State) : Res :=
  onUnit (isCtx n) (if (s.ctx n).st = 1 then s.setCtx n { s.ctx n with st := 2 } else s)

/-- QUANTUM_EXPIRE (R355): a group with a member whose `SLICE_HOST` bit is set is left alone. -/
def execQuantumExpire (n : Nat) (s : State) : Res :=
  onUnit (isCtx n)
    (if (s.ctx n).st = 0 ∨ !(s.ctx n).resident ∨ s.groupMoves n ∨ (s.group n).any (fun k => bit (s.obj 0 0x2701 2 0) k) then s
     else match s.nextMember n with
       | some m => s.setSwitch n m
       | none => s)

/-- HC_SLICE_TIME (R355): the time that `HC_SLICE` named for context `m`. -/
def execHcSliceTime (m : Nat) (s : State) : Res :=
  onUnit (isCtx m)
    (match (s.ctx m).sliceAt with
     | none => s
     | some _ =>
       let s1 := s.setCtx m { s.ctx m with sliceAt := none }
       match s1.residentOf m with
       | some n => if n = m ∨ (s1.ctx m).st ≠ 3 ∨ s1.groupMoves m then s1 else s1.setSwitch n m
       | none => s1)

/-! A switch (R356) -/

/-- The outgoing masters stop on a Comb: gated units wake before `SWITCH_OUT` (R509), locked sequences roll back (R165). -/
def State.switchOut (s : State) (c : Nat) : State :=
  let s1 := (s.area c).gated.foldl (fun (s : State) (e : Nat × Option W64) => s.wakeUnit c (e.1 / 8192) (e.1 % 8192)) s
  let s2 := s1.trace c 8 6 0 0
  let a := s2.area c
  s2.setArea c { a with workers := a.workers.map (fun (e : Nat × Worker) =>
    (e.1, { e.2 with slots := e.2.slots.map (fun (x : Nat × WSlot) => (x.1, x.2.rollback)) })) }
/-- CONTEXT_SWITCH_START (R356, step 1): the switch that the quantum or `HC_SLICE` asked for. A context that is stopped has no access on
its way (R352). -/
def execContextSwitchStart (n m : Nat) (s : State) : Res :=
  onUnit (isCtx n && isCtx m)
    (if (s.ctx n).switchTo ≠ some m ∨ !(s.ctx n).resident ∨ (s.ctx m).resident ∨ s.groupMoves n ∨ !((s.group n).contains m) then s
     else if (s.ctx n).st ≠ 3 ∧ !s.ctxQuiet n then s
     else
       let s1 := (s.ctx n).combs.foldl (fun (s : State) c => s.switchOut c) s
       let s2 := s1.setCtx n { s1.ctx n with moving := 1, switchTo := none }
       s2.setCtx m { s2.ctx m with moving := 2 })

/-- Save the resident context's state on Comb `c` (R165, R276, R306): what its own masters sent to the Comb and the landing unit has not
delivered goes to the spill area (R269). -/
def State.saveOn (s : State) (n c : Nat) : State :=
  let own (l : Land) : Bool := l.loc && l.pkt.ctx = n
  let ls := (s.comb c).landing.filter own
  let s1 := ls.foldl (fun (s : State) (l : Land) => s.completeOk (masterOf c l.pkt.master) l.pkt.reqId) s
  let m := s1.comb c
  let a := { m.live with spill := m.live.spill ++ ls.map (·.pkt) }
  s1.setComb c { m with live := {}, saved := tput m.saved n (some a), landing := m.landing.filter (fun l => !(own l)) }
/-- Counters at a restore (R276): saved value plus pending sum, and whether one saturates. -/
def Area.restoredCtr (a : Area) : Tbl W64 :=
  a.pendSum.foldl (fun (t : Tbl W64) (e : Nat × Nat) => tset 0 t e.1 (BitVec.ofNat 64 (min ((tget 0 t e.1).toNat + e.2) (2 ^ 64 - 1)))) a.ctr
def Area.saturates (a : Area) : Bool := a.pendSum.any (fun (e : Nat × Nat) => decide (2 ^ 64 ≤ (tget 0 a.ctr e.1).toNat + e.2))
/-- The image becomes live (R356, step 3); the restore acts as an acquire (R250). A context without an image starts from zero (R219). -/
def State.restoreOn (s : State) (k c : Nat) : State :=
  let m := s.comb c
  let a := (tget none m.saved k).getD {}
  let b := { a with
    ctr := a.restoredCtr, pendSum := []
    workers := a.workers.map (fun (e : Nat × Worker) => (e.1, { e.2 with slots := e.2.slots.map (fun (x : Nat × WSlot) => (x.1, x.2.acquire)) })) }
  let s1 := s.setComb c { m with live := b, saved := tdel m.saved k }
  if a.saturates then s1.event (some k) 0x4401#16 c (masterField (.service c)) 0 else s1
/-- The Comb's Engine as it is now takes over the restored Clauses: in Fallback where it has failed meanwhile, in the arrays where a spare
has taken its place (R86, R414). -/
def State.engineIn (s : State) (c : Nat) : State :=
  let m := s.comb c
  if m.engDead && !m.live.eng.fallback then s.fallbackEng c
  else if !m.engDead && m.live.eng.fallback then s.setEng c { m.live.eng with fallback := false }
  else s
/-- Context `k` becomes resident on its partition (R356, steps 3 and 4). -/
def State.bringIn (s : State) (k : Nat) : State :=
  let cs := (s.ctx k).combs
  let s1 := cs.foldl (fun (s : State) c => s.restoreOn k c) s
  let s2 := s1.setCtx k { s1.ctx k with resident := true, moving := 0 }
  cs.foldl (fun (s : State) c => (s.engineIn c).trace c 9 6 0 0) s2
/-- Every counter operation of the context has been applied on the Combs that work (R276). -/
def State.addsDone (s : State) (n : Nat) : Bool :=
  (s.ctx n).combs.all (fun c => s.dead c || (s.comb c).ctrOps.all (fun o => o.ctx != n))
/-- SWITCH_RESTORE_DONE (R356, steps 2 to 4). -/
def execSwitchRestoreDone (m : Nat) (s : State) : Res :=
  onUnit (isCtx m)
    (match s.residentOf m with
     | none => s
     | some n =>
       if (s.ctx n).moving ≠ 1 ∨ (s.ctx m).moving ≠ 2 ∨ !s.addsDone n then s
       else
         let s1 := (s.ctx n).combs.foldl (fun (s : State) c => s.saveOn n c) s
         (s1.setCtx n { s1.ctx n with resident := false, moving := 0 }).bringIn m)

/-! The end of a destruction (R354) -/

/-- A group of one needs no save area (R353): its granules are free again, and zero. -/
def State.dropSave (s : State) (k : Nat) : State :=
  let x := s.ctx k
  let s1 := x.saveBase.foldl (fun (s : State) (e : Nat × Option Nat) =>
    (saveGranules e.2).foldl (fun (s : State) g => s.setComb e.1 ((s.comb e.1).zeroGranules g 1)) s) s
  s1.setCtx k { s1.ctx k with saveBase := [] }
/-- A switch under way in a group is given up when a member is destroyed. -/
def State.switchStop (s : State) (n : Nat) : State :=
  (s.group n).foldl (fun (s : State) k => s.setCtx k { s.ctx k with moving := 0, switchTo := none }) s
/-- Steps 4 and 5: the number is free; the group's next member becomes resident in a resident's place, and what waited for the Combs to
have no owner may start (R469). -/
def State.destroyed (s : State) (n : Nat) : State :=
  let was := (s.ctx n).resident
  let rest := (s.group n).filter (· != n)
  let heir := match s.nextMember n with | some k => some k | none => rest.head?
  let s1 := s.destroyEnd n
  let s2 := match heir with | some k => if was then s1.bringIn k else s1 | none => s1
  let s3 := match rest with | [k] => s2.dropSave k | _ => s2
  let free (h : HCmd) : HCmd := if h.hold && h.op = 0x21 && (h.arg 0).toNat % 16 = n then { h with hold := false } else h
  State.maintKick { s3 with maint := s3.maint.filter (fun e => e.ctx != some n)
                            rings := s3.rings.map (fun (e : Nat × Ring) => (e.1, { e.2 with cmds := e.2.cmds.map free })) }
/-- CTX_DESTROY_DONE (R354). -/
def execCtxDestroyDone (n : Nat) (s : State) : Res := onUnit (isCtx n) (if (s.ctx n).st = 6 then s.destroyed n else s)

end Sys2Proof.Machine
end

