-- ==== Sys2Proof/Machine/Replies.lean ====
section
/-! DEFINITION. Replies at their source: data of reads and wakes (R249, R274, R287, R328, R348), and errors from outside (R189,
R297, R349). -/

namespace Sys2Proof.Machine

open Sys2Proof

/-! DATA -/

/-- Data of a load return to a slot (R176, R249): the register, and the line where the load filled one. -/
def State.loadReturn (s : State) (u : SlotRef) (id : Nat) (bs : List Byte) : State :=
  let x := s.slot u
  match x.pend.find? (fun p => p.id = id) with
  | none => s
  | some p =>
    let y := { x with pend := x.pend.filter (fun q => q.id != id) }
    match s.translate (s.residentAt u.comb) p.addr 4 with
    | .error _ => s.setSlot u (y.setLoad p.reg p.wide bs)
    | .ok t =>
      let n := if p.wide then 8 else 4
      if bs.length = 64 then
        let z := y.setLoad p.reg p.wide ((bs.drop (t.off % 64)).take n)
        s.setSlot u (if p.fills then z.fill (lineKey t) bs else z)
      else s.setSlot u (y.setLoad p.reg p.wide bs)

/-- Data return to a Forager's command: source bytes read ahead, or an occupancy word (R300). -/
def State.fgReturn (s : State) (c f id src : Nat) (bs : List Byte) : State :=
  let fg := s.forager c f
  match fg.slotOf id with
  | none => s
  | some k =>
    let m := tget {} fg.slots k
    let m1 := { m with outst := m.outst.filter (· != id) }
    if m.occWait ≠ some id then s.setFg c f k m1
    else
      let occ := match fg.estOf src with | some e => fgOp (fgV m) = 6 && m.step = 0 && e.val.isNone | none => false
      if occ then (s.setFg c f k { m1 with occWait := none }).occRead c f src (BitVec.ofNat 32 (leNat bs))
      else s.setFg c f k { m1 with occWait := none, buf := m1.buf ++ bs }

/-- Data return to `HC_COPY_OUT` (R348): they are written to host memory over the ring's port. `offs` gives, by request, the
offset of its bytes in the copy. -/
def State.hostReturn (s : State) (f id : Nat) (bs : List Byte) : State :=
  let r := s.ring f
  match r.cmds.find? (fun h => h.outst.contains id) with
  | none => s
  | some h =>
    let a := lget 0 h.words 1 + BitVec.ofNat 64 (tget 0 h.offs id)
    let s1 := s.setRing f { r with cmds := r.cmds.map (fun g =>
      if g.outst.contains id then { g with outst := g.outst.filter (· != id), offs := tdel g.offs id } else g) }
    s1.out (.hostWrite (fld r.cfg.toNat 19 1) a bs)

/-- DATA_RECEIVE (R328): the data of an outstanding read; another copy is discarded. -/
def State.dataReceive (s : State) (i : Nat) : State :=
  match s.replyAt i 0x13 with
  | none => s
  | some p =>
    let s1 := { s with net := ldel s.net i }
    if p.crc != p.e2e then s1 else
    match s1.txFor p with
    | none => s1
    | some k =>
      match s1.tx[k]? with
      | none => s1
      | some t =>
        if !(t.unperf.any (fun q => q.ptype = 4 && q.seq = p.seq && q.reqId = p.reqId)) then s1 else
        let s2 := ({ s1 with tx := lset s1.tx k { t with unperf := t.unperf.filter (fun q => q.seq != p.seq) } }).txClose k
        match t.who with
        | .worker c ce sl => s2.forWaiter t.who p.reqId (fun s => s.loadReturn ⟨c, ce, sl⟩ p.reqId p.payload)
        | .forager c f => s2.forWaiter t.who p.reqId (fun s => s.fgReturn c f p.reqId p.src p.payload)
        | .host f => s2.hostReturn f p.reqId p.payload
        | _ => s2
def execDataReceive (i : Nat) (s : State) : Res := .next (s.dataReceive i)

/-! WAKE -/

/-- A Forager's command whose start condition is met, or poisoned (R287). -/
def Forager.woken (fg : Forager) (id : Nat) (st : W16) : Forager :=
  { fg with slots := fg.slots.map (fun e =>
      if e.2.phase = .watching id then
        let m := { e.2 with outst := e.2.outst.filter (· != id) }
        (e.1, if st = 0 then { m with phase := .ready } else m.failEarly 0x4402#16)
      else e) }
/-- The wake reaches the Forager wherever its context's state is (R306). -/
def State.fgWoken (s : State) (c f id : Nat) (st : W16) : State :=
  (List.range 16).foldl (fun s n =>
    if s.owns n c then
      let a := s.areaOf n c
      s.setAreaOf n c (a.setForager f ((a.forager f).woken id st))
    else s) s
/-- A wake ends `HC_WAIT` (R348). -/
def State.hostWoken (s : State) (f id : Nat) (st : W16) : State :=
  let r := s.ring f
  let ep := s.faultEpoch (s.masterCtx (.host f))
  s.setRing f { r with cmds := r.cmds.map (fun h =>
    if h.watch = some id then
      { h with watch := none, outst := h.outst.filter (· != id), epoch := if st = 0 then h.epoch else ep
               status := if st = 0 then h.status else match h.status with | none => some (2, 0x4402#16) | some x => some x }
    else h) }

/-- WAKE_RECEIVE (R274, R328): the wake is acknowledged, a repeated one too. -/
def State.wakeReceive (s : State) (i : Nat) : State :=
  match s.replyAt i 0x14 with
  | none => s
  | some p =>
    let s1 := { s with net := ldel s.net i }
    if p.crc != p.e2e then s1 else
    let m := masterOf p.dstComb p.master
    let s2 := match m with
      | .forager c f => s1.fgWoken c f p.reqId p.status
      | .host f => s1.hostWoken f p.reqId p.status
      | _ => s1
    s2.sendPkt m { dst := p.src, cls := p.cls, ptype := 9, ctx := p.ctx, reqId := p.reqId }
def execWakeReceive (i : Nat) (s : State) : Res := .next (s.wakeReceive i)

/-! Errors -/

/-- ERROR_COMPLETION (R189, R297, R349): an access of a master ends in an error, and what waits for it stops. -/
def execErrorCompletion (m : Master) (id : Nat) (code : W16) (s : State) : Res :=
  onUnit (isMaster m) (s.completeErr m id code (if masterComb m < 480 then masterComb m else 0))

end Sys2Proof.Machine
end

