-- ==== Sys2Proof/Machine/HostCmd.lean ====
section
/-! DEFINITION. Commands of the host rings: taking an entry, its checks, packets and effects (R346-R352, R355, R358, R489), data from host
memory, and the completion entry (R343, R349). -/

namespace Sys2Proof.Machine

open Sys2Proof

/-! Form (R347, R348, R351) -/

/-- Bits of an argument above `w` are 0. -/
def fits (a : W64) (w : Nat) : Bool := decide (a.toNat < 2 ^ w)
/-- Reserved bits of the arguments are 0, and a copy's length is a multiple of 4 from 4 to 2^31. -/
def argsOk (op : Bool) (h : HCmd) : Bool :=
  match h.op with
  | 0x01 => fits (h.arg 2) 61 && decide (h.len % 4 = 0 ∧ 4 ≤ h.len ∧ h.len ≤ 2 ^ 31)
  | 0x02 => fits (h.arg 2) 32 && decide (h.len % 4 = 0 ∧ 4 ≤ h.len ∧ h.len ≤ 2 ^ 31)
  | 0x08 => !op || fits (h.arg 0) 4
  | 0x09 => fits (h.arg 0) 24
  | 0x0A => fits (h.arg 0) 24
  | 0x20 => fits (h.arg 0) 21 && fits (h.arg 2) 15 && (words32 h.ext).all (fun w => fld w.toNat 18 13 = 0)
  | 0x21 => fits (h.arg 0) 4
  | 0x22 => fits (h.arg 0) 4
  | _ => true
/-- Opcodes of a context ring and of an operator ring. -/
def opcodeOk (op : Bool) (o : Nat) : Bool :=
  if op then [1, 2, 8, 9, 10, 0x20, 0x21, 0x22].contains o else decide (1 ≤ o ∧ o ≤ 10)
/-- The first check: form. A message on an operator ring faults with 0x4501 (R265). -/
def hostFormFault (f : Nat) (h : HCmd) : Option W16 :=
  let op := (fnCtx f).isNone
  if op ∧ h.op = 3 then some 0x4501#16
  else if fld h.w0 10 6 ≠ 0 ∨ 2 ^ 34 ≤ h.w0 ∨ !(opcodeOk op h.op) ∨ !(argsOk op h) then some 0xC007#16
  else none

/-! Commands of a ring -/

def State.hcmd (s : State) (f i : Nat) : HCmd := lget { words := [] } (s.ring f).cmds i
def State.hset (s : State) (f i : Nat) (g : HCmd → HCmd) : State := s.setRing f ((s.ring f).setCmd i (g (s.hcmd f i)))
/-- A command fails; `st` 1 before any effect, 2 after (R349). -/
def State.hfail (s : State) (f i st : Nat) (code : W16) : State :=
  s.hset f i (fun h => { h with status := some (st, code), epoch := s.faultEpoch (fnCtx f), buf := [], hold := false })
/-- A command in progress fails. -/
def State.hstop (s : State) (f i : Nat) (code : W16) : State := s.hfail f i (if (s.hcmd f i).done = 0 then 1 else 2) code
/-- The path of a ring's dictionary accesses (R472, R476). -/
def State.ringPath (s : State) (f : Nat) : Path := match fnCtx f with | some n => .tenant n | none => .hl (s.ring f).port

/-! Packets of a command (R240, R348) -/

/-- Spaces a copy may name; the codes are those of R271 and R265. -/
def copyFault (t : Tgt) : Option W16 := if t.space = 3 then some 0x4403#16 else if t.space = 4 then some 0x4504#16 else none
/-- The next packet of a copy, up to a 512-byte boundary; none: it waits for data or room. -/
def State.copyNext (s : State) (f i : Nat) (h : HCmd) (t : Tgt) : Option State :=
  let m : Master := .host f
  let n := fnCtx f
  let off := t.off + h.done
  let q := min (h.len - h.done) (512 - off % 512)
  let dst := s.dstOf t
  if n.isNone ∧ !(s.ownerOk { t with off := off }) then some (s.freeze m 0x8001#16 (h.arg 1 + BitVec.ofNat 64 h.done))
  else if !(s.canSend m dst h.cls) then none
  else
    let r := s.newReq
    let a2 := (h.arg 2).toNat
    let last := h.done + q = h.len
    if h.op = 1 then
      (if h.buf.length < q then none else
       let en := last && bit a2 60
       let p : Pkt := { dst := dst, cls := h.cls, ptype := 1, ctx := t.ctx, space := t.space, off := off, payload := h.buf.take q, reqId := r.1
                        epochLo := s.epLow n, arrEn := en, arrCtr := if en then fld a2 48 12 else 0, arrAmt := if en then fld a2 32 16 else 0 }
       let s1 := r.2.hset f i (fun g => { g with done := g.done + q, buf := g.buf.drop q, outst := g.outst ++ [r.1] })
       some ((s1.writeIssued n (s.epLow n)).sendPkt m p))
    else
      let p : Pkt := { dst := dst, cls := h.cls, ptype := 4, ctx := t.ctx, space := t.space, off := off, len := q, reqId := r.1 }
      some ((r.2.hset f i (fun g => { g with done := g.done + q, outst := g.outst ++ [r.1], offs := tput g.offs r.1 h.done })).sendPkt m p)
/-- The packet of `HC_MSG`. -/
def State.msgNext (s : State) (f i : Nat) (h : HCmd) : Option State :=
  let m : Master := .host f
  let hd := (h.arg 0).toNat
  let ws := words32 (bytes64 (h.words.drop 4))
  match s.msgTarget (fnCtx f) hd with
  | .error e => some (s.hfail f i 1 e)
  | .ok (rem, cn, c) =>
    let dst := dstField (rem.getD s.ownModule) c
    let cls := fld hd 4 2
    if !(s.canSend m dst cls) then none else
    let r := s.newReq
    let s1 := r.2.hset f i (fun g => { g with done := 1, outst := g.outst ++ [r.1] })
    some (s1.sendPkt m { dst := dst, cls := cls, ptype := 5, ctx := cn, payload := msgBytes hd cn dst (ws.take (fld hd 10 2 + 1)), reqId := r.1 })
/-- The packet of `HC_ADD` or `HC_WAIT`. -/
def State.ctrNext (s : State) (f i : Nat) (h : HCmd) : Option State :=
  let m : Master := .host f
  match s.translate (fnCtx f) (h.arg 0) 8 with
  | .error e => some (s.hfail f i 1 e)
  | .ok t =>
    if t.space ≠ 3 then some (s.hfail f i 1 0x4403#16) else
    let dst := s.dstOf t
    if !(s.canSend m dst h.cls) then none else
    let r := s.newReq
    let w := h.op = 5
    let s1 := r.2.hset f i (fun g => { g with done := 1, outst := g.outst ++ [r.1], watch := if w then some r.1 else none })
    let p : Pkt := { dst := dst, cls := h.cls, ptype := 6, ctx := t.ctx, space := 3, off := t.off, payload := leBytes 8 (h.arg 1).toNat, reqId := r.1 }
    some (s1.sendPkt m (if w then { dst := dst, cls := h.cls, ptype := 7, ctx := t.ctx, space := 3, off := t.off, reqId := r.1,
                                    clitics := [[16#64, h.arg 1]], clWords := 2, clNext := 1 } else p))
def State.hostNext (s : State) (f i : Nat) : Option State :=
  let h := s.hcmd f i
  if h.isCopy then
    match s.translate (fnCtx f) (h.arg 1) h.len with
    | .error e => some (s.hstop f i e)
    | .ok t => match copyFault t with
      | some e => some (s.hstop f i e)
      | none => s.copyNext f i h t
  else if h.op = 3 then s.msgNext f i h
  else s.ctrNext f i h
/-- Issue what the ring's commands have to issue, in their order, as far as room and data allow. -/
def State.hostPump (f : Nat) : Nat → State → State
  | 0, s => s
  | k + 1, s =>
    let r := s.ring f
    if r.frozen || s.refs.stopped then s else
    match lfind (fun h => h.status.isNone && decide (h.done < h.goal)) r.cmds with
    | none => s
    | some i => match s.hostNext f i with
      | none => s
      | some s1 => State.hostPump f k s1
/-- Packets a pump can issue at most: 256 of each of the streams that a copy's two Combs have. -/
def pumpFuel : Nat := 1024

/-! Dictionary accesses (R489) -/

/-- `HC_OBJ_RD`: a held peek is tried again later (R512). -/
def State.hostRd (s : State) (f i : Nat) (h : HCmd) : State :=
  let p := s.ringPath f
  let a := (h.arg 0).toNat
  let idx := a % 65536
  let sub := fld a 16 8
  if s.dbgWaits p idx sub then (s.hset f i (fun g => { g with hold := true })).setDbg p { s.dbgOf p with wait := true }
  else match s.objRead p idx sub with
    | (.error r, s1) => s1.hfail f i 1 r.code
    | (.ok (.val v), s1) => s1.hset f i (fun g => { g with hold := false, result := v })
    | (.ok (.bytes b), s1) =>
      if fld (h.arg 2).toNat 0 32 < b.length then (s1.refused p idx sub badLength).hfail f i 1 badLength.code
      else (s1.hset f i (fun g => { g with hold := false, result := BitVec.ofNat 64 b.length })).out (.hostWrite (s.ring f).port (h.arg 1) b)
/-- `HC_OBJ_WR`; the bytes of a DOMAIN were read from host memory. -/
def State.hostWr (s : State) (f i : Nat) (h : HCmd) : State :=
  let p := s.ringPath f
  let a := (h.arg 0).toNat
  let idx := a % 65536
  let sub := fld a 16 8
  let n := fld (h.arg 2).toNat 0 32
  if isDomObj idx sub ∧ h.ext.length < n then s.hfail f i 1 0xC009#16
  else
    let r := if isDomObj idx sub then s.domWrite p idx sub (h.ext.take n) else s.objWrite p idx sub (lget 0 h.words 4)
    match r.1 with
    | none => r.2
    | some x => r.2.hfail f i 1 x.code

/-! Creation (R351, R353) -/

/-- The partition that `ARG0` gives. -/
def rectOf (a : Nat) : Ctx := { x0 := fld a 0 6, y0 := fld a 6 4, wM1 := fld a 10 6, hM1 := fld a 16 4, paired := bit a 20 }
def Ctx.overlaps (x y : Ctx) : Bool := x.combs.any (fun c => y.covers c)
/-- Order 3. -/
def State.rectOk (s : State) (x : Ctx) : Bool :=
  decide (x.x0 + x.wM1 < 40 ∧ x.y0 + x.hM1 < 12)
  && (List.range 16).all (fun k => (s.ctx k).st = 0 || (s.ctx k).sameRect x || !(x.overlaps (s.ctx k)))
  && x.combs.all (fun c => !(s.comb c).lost) && (!x.paired || (x.y0 % 2 = 0 && x.hM1 % 2 = 1))
/-- Order 4. -/
def State.tableOk (s : State) (entries : Nat) (t : List W32) : Bool :=
  decide (entries ≤ 16384) && t.all (fun e => !(bit e.toNat 31) || s.inTorus (e.toNat % 2 ^ 14))
/-- Members of the group that a new context joins, and those of them without a save area yet. -/
def State.joins (s : State) (x : Ctx) : List Nat := (List.range 16).filter (fun k => (s.ctx k).st != 0 && (s.ctx k).sameRect x)
def State.noSave (s : State) (x : Ctx) : List Nat := (s.joins x).filter (fun k => (s.ctx k).saveBase.isEmpty)
/-- Order 5: on every Comb, the granules outside reservations and images hold the movable save areas and the new ones. -/
def State.saveFits (s : State) (x : Ctx) : Bool :=
  (s.joins x).isEmpty || x.combs.all (fun c =>
    decide (((List.range 80).filter (s.heldGranule c)).length + 2 * (s.movableAt c).length + 2 * ((s.noSave x).length + 1) ≤ 80))
/-- Give contexts `ks` save areas on Comb `c`: movable ones and new ones take the lowest free granules. -/
def State.placeNew (s : State) (c : Nat) (ks : List Nat) : State :=
  let held := (List.range 80).filter (s.heldGranule c)
  ((s.movableAt c ++ ks).foldl (fun (acc : List Nat × State) k =>
    let free := (List.range 80).filter (fun g => !(acc.1.contains g))
    let g0 := lget 0 free 0
    let g1 := lget 0 free 1
    let x := acc.2.ctx k
    (acc.1 ++ [g0, g1], acc.2.setCtx k { x with saveBase := tput x.saveBase c (some (g0 * 128 + g1)) })) (held, s)).2
/-- A vendor or operator grant is pending, in force or ending (R385-R387). -/
def State.grantHeld (s : State) : Bool := s.grant.isSome || s.dbgEnding
/-- The checks in their order; none: all pass. -/
def State.createFault (s : State) (h : HCmd) : Option W16 :=
  let x := rectOf (h.arg 0).toNat
  let n := (h.arg 2).toNat
  let t := words32 (h.ext.take (4 * n))
  if s.grantHeld then some 0x8009#16
  else if (List.range 16).all (fun k => (s.ctx k).st != 0) then some 0xC004#16
  else if !(s.rectOk x) then some 0xC005#16
  else if n ≤ 16384 ∧ h.ext.length < 4 * n then some 0xC009#16
  else if !(s.tableOk n t) then some 0xC008#16
  else if !(s.saveFits x) then some 0xC00A#16
  else none
/-- The context exists: filling, resident where it is alone on its partition; otherwise with an empty image and a save area (R219, R353). -/
def State.createCtx (s : State) (n : Nat) (x : Ctx) (t : List W32) : State :=
  let old := s.joins x
  let new := s.noSave x
  let pc : W32 := if x.paired then 1 else 0
  let s1 := s.setCtx n { x with st := 1, resident := old.isEmpty, mods := t }
  x.combs.foldl (fun (s : State) c =>
    let m := s.comb c
    if old.isEmpty then
      let z := m.live.zeroed false
      s.setComb c { m with live := { z with eng := { z.eng with pairCtl := pc } } }
    else
      let s2 := s.setComb c { m with saved := tput m.saved n (some { eng := { pairCtl := pc } }) }
      s2.placeNew c (new ++ [n])) s1
def State.hostCreate (s : State) (f i : Nat) (h : HCmd) : State :=
  match s.createFault h with
  | some e => s.hfail f i 1 e
  | none =>
    match (List.range 16).find? (fun k => (s.ctx k).st = 0) with
    | none => s.hfail f i 1 0xC004#16
    | some n =>
      (s.createCtx n (rectOf (h.arg 0).toNat) (words32 (h.ext.take (4 * (h.arg 2).toNat)))).hset f i (fun g => { g with result := BitVec.ofNat 64 n })

/-! Taking an entry (R346) -/

/-- The effect of a command whose form is right. -/
def State.hostStart (s : State) (f i : Nat) : State :=
  let h := s.hcmd f i
  let k := (h.arg 0).toNat % 16
  let n := (fnCtx f).getD k
  let x := s.ctx n
  match h.op with
  | 0x01 => s.out (.hostRead (s.ring f).port (h.arg 0) h.len)
  | 0x06 =>
    let r := s.newReq
    (r.2.setCtx n { x with fences := x.fences ++ [⟨h.arg 1, f, r.1, false⟩] }).hset f i (fun g => { g with outst := [r.1] })
  | 0x07 => if x.st = 2 ∨ x.st = 4 then s.launchCtx n else s.hfail f i 1 0xC006#16
  | 0x08 => if 2 ≤ x.st ∧ x.st ≤ 4 then (s.stopCtx n).hset f i (fun g => { g with hold := true }) else s.hfail f i 1 0xC006#16
  | 0x09 => s.hostRd f i h
  | 0x0A => s.hostWr f i h
  | 0x20 => s.hostCreate f i h
  | 0x21 => if x.st = 0 ∨ x.st = 6 then s.hfail f i 1 0xC006#16
            else ((s.switchStop n).destroyStart n).hset f i (fun g => { g with hold := true })
  | 0x22 => if x.st = 3 then s.setCtx n { x with sliceAt := some (h.arg 1) } else s.hfail f i 1 0xC006#16
  | _ => s
/-- The device can take the ring's next entry: `ORDERED` waits for the entry before, and a full completion ring for its room;
`HC_CTX_CREATE` waits for the module to be ready (R451). -/
def State.canTake (s : State) (f : Nat) (h : HCmd) : Bool :=
  let r := s.ring f
  s.boot.fw && r.en && !r.frozen && s.hlCarries r.port && r.sqHead != r.sqTail && (!h.ordered || r.cmds.isEmpty)
    && !(r.cmds.any (·.finished) && !r.cqRoom)
    && (h.op != 0x20 || (s.stage = 5 && (s.pwrState = 2 || s.pwrState = 3)))
/-- HC_TAKE (R346-R352). -/
def State.hcTake (s : State) (f : Nat) (e : List W64) (ext : List Byte) : State :=
  let h : HCmd := { words := e, ext := ext, comb := 480 }
  if !(s.canTake f h) then s else
  let r := s.ring f
  let i := r.cmds.length
  let s1 := s.setRing f { r with sqHead := r.sqHead + 1, cmds := r.cmds ++ [h] }
  match hostFormFault f h with
  | some c => s1.hfail f i 1 c
  | none => State.hostPump f pumpFuel (s1.hostStart f i)
def execHcTake (f : Nat) (e : List W64) (ext : List Byte) (s : State) : Res := onUnit (isHostFn f && decide (e.length = 8)) (s.hcTake f e ext)

/-- HL_DMA_COMPLETION (R358): bytes from host memory for the ring's oldest copy that waits for them, or the failure of its read. -/
def State.hlDma (s : State) (f : Nat) (ok : Bool) (data : List Byte) : State :=
  match lfind (fun h => h.op = 1 && h.status.isNone && decide (h.got < h.len)) (s.ring f).cmds with
  | none => s
  | some i =>
    if !ok then s.hstop f i 0xC009#16
    else
      let s1 := s.hset f i (fun h => let d := data.take (h.len - h.got); { h with got := h.got + d.length, buf := h.buf ++ d })
      State.hostPump f pumpFuel s1
def execHlDmaCompletion (f : Nat) (ok : Bool) (data : List Byte) (s : State) : Res := onUnit (isHostFn f) (s.hlDma f ok data)

/-! Completion entries (R349) -/

/-- A command that waited for something else goes on: `HC_STOP` for the context's accesses, `HC_CTX_DESTROY` for the context's end, a held
peek for its Engine. -/
def State.unhold (s : State) (f i : Nat) : State :=
  let h := s.hcmd f i
  if !h.hold ∨ h.status.isSome then s else
  let n := (fnCtx f).getD ((h.arg 0).toNat % 16)
  if (h.op = 8 ∧ s.ctxQuiet n) ∨ (h.op = 0x21 ∧ (s.ctx n).st = 0) then s.hset f i (fun g => { g with hold := false })
  else if h.op = 9 then s.hostRd f i h
  else s
/-- Write the completion entry of a finished command, unless `NO_CQE` spares a success one, and retire the command. -/
def State.retire (s : State) (f i : Nat) (h : HCmd) : State :=
  let r := s.ring f
  let s1 := s.setRing f { r with cmds := ldel r.cmds i }
  let st := match h.status with | some x => x.1 | none => 0
  let code := match h.status with | some x => x.2 | none => 0
  if st = 0 ∧ h.noCqe then s1 else
  s1.cqWrite f (st * 2 + code.toNat * 2 ^ 16 + h.tag * 2 ^ 32 + s.virtComb (fnCtx f) h.comb % 1024 * 2 ^ 48) h.epoch h.result 0
/-- COMPLETION_POST (R349): the commands of the ring go on, and the oldest finished one is retired. -/
def State.completionPost (s : State) (f : Nat) : State :=
  let r := s.ring f
  if !r.en ∨ r.frozen ∨ !(s.hlCarries r.port) then s else
  let s1 := (List.range r.cmds.length).foldl (fun (s : State) i => s.unhold f i) s
  let s2 := State.hostPump f pumpFuel s1
  let r2 := s2.ring f
  match lfind HCmd.finished r2.cmds with
  | none => s2
  | some i =>
    let h := lget { words := [] } r2.cmds i
    if (h.status.isNone && h.noCqe) || r2.cqRoom then s2.retire f i h else s2
def execCompletionPost (f : Nat) (s : State) : Res := onUnit (isHostFn f) (s.completionPost f)

end Sys2Proof.Machine
end

