-- ==== Sys2Proof/Machine/Mgmt.lean ====
section
/-! DEFINITION. The Management Port's services: SDO transfers, NMT, LSS, TPDOs, heartbeat and EMCY (R479-R485, R490); and the JTAG port's
access to the debug objects (R510). Frame formats are those of CiA 301 and CiA 305, which R480 names (log entry 58). -/

namespace Sys2Proof.Machine

open Sys2Proof

/-! Aborts -/

/-- Command specifier or transfer sequence invalid (R490). -/
def sdoBadSeq : W32 := 0x05040001#32
/-- CiA 301's codes for a block size and a checksum that do not fit. -/
def sdoBadBlock : W32 := 0x05040002#32
def sdoBadCrc : W32 := 0x05040004#32
def State.setSdo (s : State) (x : Option Sdo) : State := { s with mgmt := { s.mgmt with sdo := x } }
/-- The open transfer ends with an abort. -/
def State.sdoFail (s : State) (x : Sdo) (code : W32) : State := (s.setSdo none).sdoAbort x.bus x.idx x.sub code
/-- One byte into a CRC-16 with polynomial 0x1021, as CiA 301's block transfer uses it. -/
def crc16Step : Nat → W16 → W16
  | 0, c => c
  | n + 1, c => crc16Step n (if c.getLsbD 15 then (c <<< 1) ^^^ 0x1021#16 else c <<< 1)
def crc16From (c : W16) : List Byte → W16
  | [] => c
  | b :: t => crc16From (crc16Step 8 (c ^^^ (b.setWidth 16 <<< 8))) t

/-! A whole value, written and read (R473, R490) -/

/-- The object's limit on a transfer other than by blocks (R480). -/
def sdoLimit : Nat := 65536
/-- Apply the bytes of a download: their number is the type's. -/
def State.sdoStore (s : State) (idx sub : Nat) (b : List Byte) : Option Refuse × State :=
  match s.objCheck .mgmt idx sub true with
  | .error r => (some r, s.refused .mgmt idx sub r)
  | .ok row =>
    if row.ty.isDom then s.domWrite .mgmt idx sub b
    else if 8 * b.length ≠ row.ty.width then (some badLength, s.refused .mgmt idx sub badLength)
    else s.objWrite .mgmt idx sub (BitVec.ofNat 64 (leNat b))
/-- The bytes of an upload. -/
def State.sdoLoad (s : State) (idx sub : Nat) : Except Refuse (List Byte) × State :=
  match s.objRead .mgmt idx sub with
  | (.error r, s1) => (.error r, s1)
  | (.ok (.bytes b), s1) => (.ok b, s1)
  | (.ok (.val v), s1) => (.ok (leBytes (match objRow idx sub with | some r => r.ty.width / 8 | none => 0) v.toNat), s1)
/-- The answer to the last frame of a download. -/
def State.sdoApply (s : State) (b idx sub : Nat) (data : List Byte) (ans : List Byte) : State :=
  match s.sdoStore idx sub data with
  | (none, s1) => s1.sdoOut b ans
  | (some r, s1) => s1.sdoAbort b idx sub r.abort

/-! Initiates -/

/-- The first four bytes of an initiate: command, index, subindex. -/
def sdoHead (cmd idx sub : Nat) : List Byte := leBytes 1 cmd ++ leBytes 2 idx ++ leBytes 1 sub
/-- A transfer opens only for an object that the caller may write; a longer one than R480 allows is refused. -/
def State.sdoOpenWrite (s : State) (x : Sdo) (ans : List Byte) : State :=
  match s.objCheck .mgmt x.idx x.sub true with
  | .error r => (s.refused .mgmt x.idx x.sub r).sdoAbort x.bus x.idx x.sub r.abort
  | .ok _ =>
    if x.kind = 0 ∧ sdoLimit < x.size.getD 0 then s.sdoAbort x.bus x.idx x.sub sdoBadSeq
    else (s.setSdo (some x)).sdoOut x.bus ans
/-- Download initiate: expedited, with its size or the type's, or segmented. -/
def State.sdoDownload (s : State) (b c idx sub : Nat) (d : List Byte) : State :=
  let n := fld c 2 2
  if bit c 1 then
    let w := match objRow idx sub with | some r => r.ty.width / 8 | none => 4
    let len := if bit c 0 then 4 - n else if w = 0 then 4 else w
    s.sdoApply b idx sub (d.take len) (sdoHead 0x60 idx sub)
  else s.sdoOpenWrite { bus := b, kind := 0, idx := idx, sub := sub, size := if bit c 0 then some (leNat d) else none } (sdoHead 0x60 idx sub)
/-- A peek that must wait is not answered yet. -/
def State.sdoHold (s : State) (b : Nat) : State :=
  State.setDbg { s with mgmt := { s.mgmt with peekBus := some b } } .mgmt { s.dbgOf .mgmt with wait := true }
/-- Upload initiate: expedited for 1 to 4 bytes, else segmented. -/
def State.sdoUpload (s : State) (b idx sub : Nat) : State :=
  if s.dbgWaits .mgmt idx sub then s.sdoHold b else
  match s.sdoLoad idx sub with
  | (.error r, s1) => s1.sdoAbort b idx sub r.abort
  | (.ok l, s1) =>
    if sdoLimit < l.length then s1.sdoAbort b idx sub sdoBadSeq
    else if 1 ≤ l.length ∧ l.length ≤ 4 then s1.sdoOut b (sdoHead (0x43 + (4 - l.length) * 4) idx sub ++ l)
    else (s1.setSdo (some { bus := b, kind := 1, idx := idx, sub := sub, data := l })).sdoOut b (sdoHead 0x41 idx sub ++ leBytes 4 l.length)
/-- Block download initiate: 127 segments a block, with CRC. -/
def State.sdoBlkDown (s : State) (b c idx sub : Nat) (d : List Byte) : State :=
  s.sdoOpenWrite { bus := b, kind := 2, idx := idx, sub := sub, size := if bit c 1 then some (leNat d) else none, crc := bit c 2, blkSize := 127, phase := 1 }
    (sdoHead 0xA4 idx sub ++ [127])
/-- Block upload initiate. -/
def State.sdoBlkUp (s : State) (b c idx sub : Nat) (d : List Byte) : State :=
  let n := leNat (d.take 1)
  if n = 0 ∨ 127 < n then s.sdoAbort b idx sub sdoBadBlock
  else if s.dbgWaits .mgmt idx sub then s.sdoHold b
  else match s.sdoLoad idx sub with
    | (.error r, s1) => s1.sdoAbort b idx sub r.abort
    | (.ok l, s1) =>
      (s1.setSdo (some { bus := b, kind := 3, idx := idx, sub := sub, data := l, crc := bit c 2, blkSize := n })).sdoOut b
        (sdoHead 0xC6 idx sub ++ leBytes 4 l.length)
/-- The frame is an initiate: download, upload, block download, block upload. -/
def sdoInit (c : Nat) : Bool := c / 32 = 1 || c / 32 = 2 || (c / 32 = 6 && c % 2 = 0) || (c / 32 = 5 && c % 4 = 0)
/-- An initiate with no transfer open. -/
def State.sdoStart (s : State) (b : Nat) (f : List Byte) : State :=
  let c := leNat (f.take 1)
  let idx := leNat ((f.drop 1).take 2)
  let sub := leNat ((f.drop 3).take 1)
  let d := f.drop 4
  match c / 32 with
  | 1 => s.sdoDownload b c idx sub d
  | 2 => s.sdoUpload b idx sub
  | 6 => s.sdoBlkDown b c idx sub d
  | _ => s.sdoBlkUp b c idx sub d

/-! Segments -/

/-- The bytes taken match the size announced. -/
def Sdo.sizeOk (x : Sdo) (l : List Byte) : Bool := match x.size with | some n => l.length = n | none => true
/-- The download is complete. -/
def State.sdoFinish (s : State) (x : Sdo) (l : List Byte) (ans : List Byte) : State :=
  if x.sizeOk l then (s.setSdo none).sdoApply x.bus x.idx x.sub l ans
  else ((s.refused .mgmt x.idx x.sub badLength).sdoFail x badLength.abort)
/-- Download segment. -/
def State.sdoDownSeg (s : State) (x : Sdo) (f : List Byte) : State :=
  let c := leNat (f.take 1)
  let l := x.data ++ (f.drop 1).take (7 - fld c 1 3)
  let ans := leBytes 1 (0x20 + b2n x.toggle * 16)
  if bit c 4 != x.toggle ∨ sdoLimit < l.length then s.sdoFail x sdoBadSeq
  else if bit c 0 then s.sdoFinish x l ans
  else (s.setSdo (some { x with data := l, toggle := !x.toggle })).sdoOut x.bus ans
/-- Upload segment. -/
def State.sdoUpSeg (s : State) (x : Sdo) (c : Nat) : State :=
  if bit c 4 != x.toggle then s.sdoFail x sdoBadSeq else
  let l := (x.data.drop x.pos).take 7
  let done : Bool := decide (x.data.length ≤ x.pos + 7)
  (s.setSdo (if done then none else some { x with pos := x.pos + 7, toggle := !x.toggle })).sdoOut x.bus
    (leBytes 1 (b2n x.toggle * 16 + (7 - l.length) * 2 + b2n done) ++ l)

/-! Blocks -/

/-- A segment of a block download: taken in its turn; a block's end is acknowledged with the last segment taken in order. -/
def State.sdoBlkSeg (s : State) (x : Sdo) (f : List Byte) : State :=
  let c := leNat (f.take 1)
  let good : Bool := c % 128 = x.seq + 1 && !x.last
  let x1 : Sdo := if good then { x with data := x.data ++ f.drop 1, seq := x.seq + 1, last := decide (128 ≤ c) } else x
  if 128 ≤ c ∨ c % 128 = x.blkSize then
    (s.setSdo (some { x1 with seq := 0, phase := if x1.last then 2 else 1 })).sdoOut x.bus (leBytes 1 0xA2 ++ leBytes 1 x1.seq ++ [127])
  else s.setSdo (some x1)
/-- The end of a block download: unused bytes of the last segment, and the CRC. -/
def State.sdoBlkEnd (s : State) (x : Sdo) (f : List Byte) : State :=
  let c := leNat (f.take 1)
  let l := x.data.take (x.data.length - fld c 2 3)
  if c / 32 ≠ 6 ∨ c % 2 ≠ 1 then s.sdoFail x sdoBadSeq
  else if x.crc ∧ leNat ((f.drop 1).take 2) ≠ (crc16From 0 l).toNat then s.sdoFail x sdoBadCrc
  else s.sdoFinish x l (leBytes 1 0xA1)
/-- Segments of the next block of an upload, from `pos` on. -/
def Sdo.upBlock (x : Sdo) : List (List Byte) :=
  let total := (x.data.length + 6) / 7
  (List.range (min x.blkSize (total - x.pos / 7))).map (fun i =>
    leBytes 1 (i + 1 + (if x.pos / 7 + i + 1 = total then 128 else 0)) ++ (x.data.drop (x.pos + 7 * i)).take 7)
def State.sdoSendBlock (s : State) (x : Sdo) : State :=
  x.upBlock.foldl (fun (s : State) l => s.sdoOut x.bus l) (s.setSdo (some { x with phase := 1 }))
/-- A client's frame in a block upload: start, acknowledgement with the next block's size, and end. -/
def State.sdoBlkUpFrame (s : State) (x : Sdo) (f : List Byte) : State :=
  let c := leNat (f.take 1)
  let ack := leNat ((f.drop 1).take 1)
  let n := leNat ((f.drop 2).take 1)
  let total := (x.data.length + 6) / 7
  if c / 32 ≠ 5 then s.sdoFail x sdoBadSeq
  else if x.phase = 0 ∧ c % 4 = 3 then (if total = 0 then (s.setSdo (some { x with phase := 2 })).sdoOut x.bus (leBytes 1 0xC1 ++ leBytes 2 0) else s.sdoSendBlock x)
  else if x.phase = 1 ∧ c % 4 = 2 then
    (if x.upBlock.length < ack then s.sdoFail x sdoBadSeq
     else if n = 0 ∨ 127 < n then s.sdoFail x sdoBadBlock
     else
      let x1 : Sdo := { x with pos := x.pos + 7 * ack, blkSize := n }
      if total ≤ x1.pos / 7 then
        (s.setSdo (some { x1 with phase := 2 })).sdoOut x.bus
          (leBytes 1 (0xC1 + (7 * total - x.data.length) * 4) ++ leBytes 2 (if x.crc then (crc16From 0 x.data).toNat else 0))
      else s.sdoSendBlock x1)
  else if x.phase = 2 ∧ c % 4 = 1 then s.setSdo none
  else s.sdoFail x sdoBadSeq

/-! Requests (R481) -/

/-- A frame on the bus of the open transfer. A segment of a block download is known by its place alone; any other initiate is refused
and the transfer goes on. -/
def State.sdoGo (s : State) (x : Sdo) (f : List Byte) : State :=
  let c := leNat (f.take 1)
  if c = 0x80 then s.setSdo none
  else if x.kind = 2 ∧ x.phase = 1 then s.sdoBlkSeg x f
  else if sdoInit c then s.sdoAbort x.bus (leNat ((f.drop 1).take 2)) (leNat ((f.drop 3).take 1)) badState.abort
  else match x.kind with
    | 0 => if c / 32 = 0 then s.sdoDownSeg x f else s.sdoFail x sdoBadSeq
    | 1 => if c / 32 = 3 then s.sdoUpSeg x c else s.sdoFail x sdoBadSeq
    | 2 => s.sdoBlkEnd x f
    | _ => s.sdoBlkUpFrame x f
/-- A frame on bus `b`. -/
def State.sdoFrame (s : State) (b : Nat) (f : List Byte) : State :=
  let c := leNat (f.take 1)
  let idx := leNat ((f.drop 1).take 2)
  let sub := leNat ((f.drop 3).take 1)
  match s.mgmt.sdo with
  | some x =>
    if x.bus = b then s.sdoGo x f
    else if c = 0x80 then s
    else s.sdoAbort b idx sub (if sdoInit c then badState.abort else sdoBadSeq)
  | none => if c = 0x80 then s else if sdoInit c then s.sdoStart b f else s.sdoAbort b 0 0 sdoBadSeq
/-- The SDO server takes frames: the port is open and not stopped; the ROM's server runs in recovery (R478). -/
def State.sdoOn (s : State) (b : Nat) (f : List Byte) : Bool :=
  s.pathOpen .mgmt && (s.stage = 6 || s.mgmt.nmt = 5 || s.mgmt.nmt = 127) && bit s.mgmt.busEn b && !(s.mgmt.off b) && f.length = 8
/-- SDO_REQUEST (R479-R481, R490). -/
def execSdoRequest (bus : Nat) (frame : List Byte) (s : State) : Res :=
  onUnit (decide (bus < 2)) (if s.sdoOn bus frame then s.sdoFrame bus frame else s)
/-- SDO_TIMEOUT (R481). -/
def execSdoTimeout (s : State) : Res :=
  .next (match s.mgmt.sdo with | some x => s.sdoFail x 0x05040000#32 | none => s)

/-! NMT and LSS (R480) -/

/-- NMT_COMMAND: start 1, stop 2, enter pre-operational 128, reset node 129, reset communication 130; node 0 names every node. -/
def execNmtCommand (cs node : Nat) (s : State) : Res :=
  .next (
    if s.mgmt.nmt = 0 ∨ !(s.pathOpen .mgmt) ∨ (node ≠ 0 ∧ node ≠ s.mgmt.node) then s
    else match cs with
      | 1 => { s with mgmt := { s.mgmt with nmt := 5 } }
      | 2 => { s with mgmt := { s.mgmt with nmt := 4 } }
      | 128 => { s with mgmt := { s.mgmt with nmt := 127 } }
      | 129 => s.commReset
      | 130 => s.commReset
      | _ => s)
/-- The LSS answer's COB-ID and frame. -/
def State.lssOut (s : State) (l : List Byte) : State := s.canOut 0x7E4 ((l ++ List.replicate 8 0).take 8)
/-- Switch state selective: the four values of 0x1018 in order. -/
def State.lssSelect (s : State) (k v : Nat) : State :=
  let m := s.mgmt
  let ok : Bool := m.lssMatch = k && v = s.objVal .mgmt 0x1018 (k + 1)
  if ok ∧ k = 3 then State.lssOut { s with mgmt := { m with lss := 1, lssMatch := 0 } } [0x44]
  else { s with mgmt := { m with lssMatch := if ok then k + 1 else if k = 0 ∨ m.lssMatch = k then 0 else m.lssMatch } }
/-- Configure node-ID: `CAN_NODE_ID`, in force from the next reset of communication (R479). -/
def State.lssNode (s : State) (n : Nat) : State :=
  if 1 ≤ n ∧ n ≤ 127 then (s.setObj 0 0x2010 1 n).lssOut [0x11, 0] else s.lssOut [0x11, 1]
/-- Store configuration: the boot flash takes it (R477). -/
def State.lssStore (s : State) : State :=
  State.lssOut { s with flash := tput s.flash (okey 0 0x2010 1) (some (BitVec.ofNat 64 (s.obj 0 0x2010 1 0x7F))) } [0x17, 0]
/-- LSS_COMMAND. -/
def execLssCommand (frame : List Byte) (s : State) : Res :=
  .next (
    let c := leNat (frame.take 1)
    if s.mgmt.nmt = 0 ∨ !(s.pathOpen .mgmt) ∨ frame.length ≠ 8 then s
    else if 0x40 ≤ c ∧ c ≤ 0x43 then (if s.mgmt.lss = 0 then s.lssSelect (c - 0x40) (leNat ((frame.drop 1).take 4)) else s)
    else if s.mgmt.lss = 1 ∧ c = 0x11 then s.lssNode (leNat ((frame.drop 1).take 1))
    else if s.mgmt.lss = 1 ∧ c = 0x17 then s.lssStore
    else s)

/-! Frames that the module sends of itself (R482-R485) -/

/-- TPDO_TIMER_EXPIRE: in the Operational state, a valid TPDO that maps something latches its objects and is sent. -/
def State.tpdoSend (s : State) (k : Nat) : State :=
  let cob := s.obj 0 (0x1800 + k) 1 (s.objDefault (0x1800 + k) 1)
  let m := s.tpdoMap k
  if s.mgmt.nmt ≠ 5 ∨ !(s.pathOpen .mgmt) ∨ bit cob 31 ∨ m.isEmpty then s else
  match s.readAll .mgmt (m.map (fun v => (v / 65536, fld v 8 8))) with
  | (.error _, _) => s
  | (.ok l, s1) => s1.canOut (cob % 2048) ((m.zip l).flatMap (fun (q : Nat × W64) => leBytes (q.1 % 256 / 8) q.2.toNat))
def execTpdoTimerExpire (k : Nat) (s : State) : Res := onUnit (decide (k < 4)) (s.tpdoSend k)
/-- HEARTBEAT_PRODUCE: the NMT state, unless `HEARTBEAT_TIME` is 0. -/
def execHeartbeatProduce (s : State) : Res :=
  .next (if s.mgmt.nmt = 0 ∨ !(s.pathOpen .mgmt) ∨ s.obj 0 0x1017 0 1000 = 0 then s else s.canOut (0x700 + s.mgmt.node) (leBytes 1 s.mgmt.nmt))
/-- The 8 bytes of an EMCY frame (R483). -/
def State.emcyFrame (s : State) (q : W16 × Nat × Nat × Nat) : List Byte :=
  leBytes 2 0xFF00 ++ leBytes 1 (s.objVal .mgmt 0x1001 0) ++ leBytes 2 q.1.toNat ++ leBytes 3 (q.2.1 % 1024 + q.2.2.1 % 4096 * 1024 + q.2.2.2 % 4 * 2 ^ 22)
/-- EMCY_SEND: the oldest waiting frame, in the Operational and Pre-operational states. -/
def execEmcySend (s : State) : Res :=
  .next (match s.mgmt.emcy with
    | [] => s
    | q :: t =>
      if s.pathOpen .mgmt ∧ (s.mgmt.nmt = 5 ∨ s.mgmt.nmt = 127) then
        State.canOut { s with mgmt := { s.mgmt with emcy := t } } (0x80 + s.mgmt.node) (s.emcyFrame q)
      else s)

/-! JTAG (R510) -/

/-- What Capture-DR is to load: value, subindex, refused. -/
def State.jtagKeep (s : State) (v : W64) (sub : Nat) (bad : Bool) : State :=
  s.setDbg .jtag { s.dbgOf .jtag with last := v, sub := sub, refused := bad }
/-- Update-DR under `DBG_ACCESS`; what a refused read returns is a free value. -/
def State.jtagAccess (s : State) (sub : Nat) (wr : Bool) (v : W64) : State :=
  if !(s.pathOpen .jtag) then s
  else if wr then
    match s.objWrite .jtag 0x2B20 sub v with
    | (none, s1) => s1.jtagKeep v sub false
    | (some _, s1) => s1.jtagKeep v sub true
  else if s.dbgWaits .jtag 0x2B20 sub then s.setDbg .jtag { s.dbgOf .jtag with wait := true }
  else match s.objRead .jtag 0x2B20 sub with
    | (.ok (.val x), s1) => s1.jtagKeep x sub false
    | (.ok (.bytes _), s1) => s1.jtagKeep 0 sub false
    | (.error _, s1) => (let d := s1.draw; d.2.jtagKeep (d.1.setWidth 64) sub true)
/-- JTAG_UPDATE_DR: the instruction selected is `DBG_ACCESS`. -/
def execJtagUpdateDr (dr : BitVec 73) (s : State) : Res :=
  .next (State.jtagAccess { s with tapDbg := true } (dr.toNat % 256) (bit dr.toNat 8) (BitVec.ofNat 64 (dr.toNat / 512)))

end Sys2Proof.Machine
end

