-- ==== Sys2Proof/Machine/Dispatch.lean ====
section
/-! DEFINITION. One arm per command of the table: a direct call of its meaning. -/

namespace Sys2Proof.Machine

open Sys2Proof

def exec (i : Instr) (s : State) : Host.Outcome State Fault Refusal :=
  match i with
  | .cqTailDoorbell c slot v => Sys2Proof.Machine.execCqTailDoorbell c slot v s
  | .slotCtlSkip c slot => Sys2Proof.Machine.execSlotCtlSkip c slot s
  | .slotCtlRetry c slot => Sys2Proof.Machine.execSlotCtlRetry c slot s
  | .gqClose c w0 w1 => Sys2Proof.Machine.execGqClose c w0 w1 s
  | .pairCtlWrite c v => Sys2Proof.Machine.execPairCtlWrite c v s
  | .registerWrite c idx ws => Sys2Proof.Machine.execRegisterWrite c idx ws s
  | .gqOccPublish c => Sys2Proof.Machine.execGqOccPublish c s
  | .clauseStart c slot => Sys2Proof.Machine.execClauseStart c slot s
  | .tileStart c => Sys2Proof.Machine.execTileStart c s
  | .shadowLoadDone c => Sys2Proof.Machine.execShadowLoadDone c s
  | .weightSwap c => Sys2Proof.Machine.execWeightSwap c s
  | .activationRead c => Sys2Proof.Machine.execActivationRead c s
  | .kmnSegmentStart c => Sys2Proof.Machine.execKmnSegmentStart c s
  | .bankDrainStart c => Sys2Proof.Machine.execBankDrainStart c s
  | .outputSegmentEmit c => Sys2Proof.Machine.execOutputSegmentEmit c s
  | .pairCheckArrival c crc => Sys2Proof.Machine.execPairCheckArrival c crc s
  | .clauseComplete c => Sys2Proof.Machine.execClauseComplete c s
  | .gatherFullResolve c => Sys2Proof.Machine.execGatherFullResolve c s
  | .engineWatchdogExpire c => Sys2Proof.Machine.execEngineWatchdogExpire c s
  | .engineFallbackEntry c => Sys2Proof.Machine.execEngineFallbackEntry c s
  | .slotFreeze m code addr => Sys2Proof.Machine.execSlotFreeze m code addr s
  | .cNop u => Sys2Proof.Machine.execCNop u s
  | .cAdd u => Sys2Proof.Machine.execCAdd u s
  | .cSub u => Sys2Proof.Machine.execCSub u s
  | .cAnd u => Sys2Proof.Machine.execCAnd u s
  | .cOr u => Sys2Proof.Machine.execCOr u s
  | .cXor u => Sys2Proof.Machine.execCXor u s
  | .cShl u => Sys2Proof.Machine.execCShl u s
  | .cShr u => Sys2Proof.Machine.execCShr u s
  | .cSra u => Sys2Proof.Machine.execCSra u s
  | .cSlt u => Sys2Proof.Machine.execCSlt u s
  | .cSltu u => Sys2Proof.Machine.execCSltu u s
  | .cMul u => Sys2Proof.Machine.execCMul u s
  | .cMulhu u => Sys2Proof.Machine.execCMulhu u s
  | .cAddi u => Sys2Proof.Machine.execCAddi u s
  | .cAndi u => Sys2Proof.Machine.execCAndi u s
  | .cOri u => Sys2Proof.Machine.execCOri u s
  | .cXori u => Sys2Proof.Machine.execCXori u s
  | .cShi u => Sys2Proof.Machine.execCShi u s
  | .cLui u => Sys2Proof.Machine.execCLui u s
  | .cBeq u => Sys2Proof.Machine.execCBeq u s
  | .cBne u => Sys2Proof.Machine.execCBne u s
  | .cBlt u => Sys2Proof.Machine.execCBlt u s
  | .cBge u => Sys2Proof.Machine.execCBge u s
  | .cBltu u => Sys2Proof.Machine.execCBltu u s
  | .cBgeu u => Sys2Proof.Machine.execCBgeu u s
  | .cJal u => Sys2Proof.Machine.execCJal u s
  | .cJr u => Sys2Proof.Machine.execCJr u s
  | .cLd u => Sys2Proof.Machine.execCLd u s
  | .cSt u => Sys2Proof.Machine.execCSt u s
  | .cVld u => Sys2Proof.Machine.execCVld u s
  | .cVst u => Sys2Proof.Machine.execCVst u s
  | .cGld u => Sys2Proof.Machine.execCGld u s
  | .cGst u => Sys2Proof.Machine.execCGst u s
  | .cFenceRelease u => Sys2Proof.Machine.execCFenceRelease u s
  | .cFenceAcquire u => Sys2Proof.Machine.execCFenceAcquire u s
  | .cFenceReleaseAcquire u => Sys2Proof.Machine.execCFenceReleaseAcquire u s
  | .cVadd u => Sys2Proof.Machine.execCVadd u s
  | .cVsub u => Sys2Proof.Machine.execCVsub u s
  | .cVmul u => Sys2Proof.Machine.execCVmul u s
  | .cVfma u => Sys2Proof.Machine.execCVfma u s
  | .cVmax u => Sys2Proof.Machine.execCVmax u s
  | .cVmin u => Sys2Proof.Machine.execCVmin u s
  | .cVexp u => Sys2Proof.Machine.execCVexp u s
  | .cVrcp u => Sys2Proof.Machine.execCVrcp u s
  | .cVrsq u => Sys2Proof.Machine.execCVrsq u s
  | .cVcvtFp32ToBf16 u => Sys2Proof.Machine.execCVcvtFp32ToBf16 u s
  | .cVcvtBf16ToFp32 u => Sys2Proof.Machine.execCVcvtBf16ToFp32 u s
  | .cViadd u => Sys2Proof.Machine.execCViadd u s
  | .cVisub u => Sys2Proof.Machine.execCVisub u s
  | .cVimul u => Sys2Proof.Machine.execCVimul u s
  | .cVand u => Sys2Proof.Machine.execCVand u s
  | .cVor u => Sys2Proof.Machine.execCVor u s
  | .cVxor u => Sys2Proof.Machine.execCVxor u s
  | .cVshl u => Sys2Proof.Machine.execCVshl u s
  | .cVshr u => Sys2Proof.Machine.execCVshr u s
  | .cVsra u => Sys2Proof.Machine.execCVsra u s
  | .cVilt u => Sys2Proof.Machine.execCVilt u s
  | .cVredFp32Sum u => Sys2Proof.Machine.execCVredFp32Sum u s
  | .cVredFp32Max u => Sys2Proof.Machine.execCVredFp32Max u s
  | .cVredInt32Sum u => Sys2Proof.Machine.execCVredInt32Sum u s
  | .cVredInt32Max u => Sys2Proof.Machine.execCVredInt32Max u s
  | .cVbc u => Sys2Proof.Machine.execCVbc u s
  | .cVget u => Sys2Proof.Machine.execCVget u s
  | .cVset u => Sys2Proof.Machine.execCVset u s
  | .cVmov u => Sys2Proof.Machine.execCVmov u s
  | .cQnt u => Sys2Proof.Machine.execCQnt u s
  | .cQsl u => Sys2Proof.Machine.execCQsl u s
  | .cDqt u => Sys2Proof.Machine.execCDqt u s
  | .cSpx u => Sys2Proof.Machine.execCSpx u s
  | .cMfs u => Sys2Proof.Machine.execCMfs u s
  | .cMts u => Sys2Proof.Machine.execCMts u s
  | .cVpop u => Sys2Proof.Machine.execCVpop u s
  | .cWsnd u => Sys2Proof.Machine.execCWsnd u s
  | .cCadd u => Sys2Proof.Machine.execCCadd u s
  | .cCaddRemote u => Sys2Proof.Machine.execCCaddRemote u s
  | .cCwait u => Sys2Proof.Machine.execCCwait u s
  | .cCtest u => Sys2Proof.Machine.execCCtest u s
  | .cCrd u => Sys2Proof.Machine.execCCrd u s
  | .cSrr u => Sys2Proof.Machine.execCSrr u s
  | .cSrw u => Sys2Proof.Machine.execCSrw u s
  | .cSpawn u => Sys2Proof.Machine.execCSpawn u s
  | .cLock u => Sys2Proof.Machine.execCLock u s
  | .cUnlock u => Sys2Proof.Machine.execCUnlock u s
  | .cEnd u => Sys2Proof.Machine.execCEnd u s
  | .slotWake u => Sys2Proof.Machine.execSlotWake u s
  | .linkWordArrival c cell d => Sys2Proof.Machine.execLinkWordArrival c cell d s
  | .linkCreditReturn c cell d => Sys2Proof.Machine.execLinkCreditReturn c cell d s
  | .passThroughForward c cell d => Sys2Proof.Machine.execPassThroughForward c cell d s
  | .errorCompletion m id code => Sys2Proof.Machine.execErrorCompletion m id code s
  | .storeCellRegWriteArrival c cell => Sys2Proof.Machine.execStoreCellRegWriteArrival c cell s
  | .genDescStart c cell g => Sys2Proof.Machine.execGenDescStart c cell g s
  | .genElementMove c cell g => Sys2Proof.Machine.execGenElementMove c cell g s
  | .ctwSignal c cell slot => Sys2Proof.Machine.execCtwSignal c cell slot s
  | .ctwRelease c cell slot => Sys2Proof.Machine.execCtwRelease c cell slot s
  | .edgeSlotWrite c cell => Sys2Proof.Machine.execEdgeSlotWrite c cell s
  | .slSegmentArrival c d => Sys2Proof.Machine.execSlSegmentArrival c d s
  | .fallbackIssue c cell => Sys2Proof.Machine.execFallbackIssue c cell s
  | .reduceOnArrivalAdd c => Sys2Proof.Machine.execReduceOnArrivalAdd c s
  | .opFill c => Sys2Proof.Machine.execOpFill c s
  | .opCopy c => Sys2Proof.Machine.execOpCopy c s
  | .opUnitDone c => Sys2Proof.Machine.execOpUnitDone c s
  | .eccWriteback c word => Sys2Proof.Machine.execEccWriteback c word s
  | .switchBufferDrain c => Sys2Proof.Machine.execSwitchBufferDrain c s
  | .ownerChangeFill c => Sys2Proof.Machine.execOwnerChangeFill c s
  | .cmDwWrite p n v => Sys2Proof.Machine.execCmDwWrite p n v s
  | .mwFrame c ch demand => Sys2Proof.Machine.execMwFrame c ch demand s
  | .mwResWrite p n v => Sys2Proof.Machine.execMwResWrite p n v s
  | .mwUnitsIncrease n => Sys2Proof.Machine.execMwUnitsIncrease n s
  | .mwGranuleFillDone n => Sys2Proof.Machine.execMwGranuleFillDone n s
  | .mwRowSpare c ch bank row => Sys2Proof.Machine.execMwRowSpare c ch bank row s
  | .partitionReset c line scrub => Sys2Proof.Machine.execPartitionReset c line scrub s
  | .partitionResetDone n => Sys2Proof.Machine.execPartitionResetDone n s
  | .mwLaneRetrain c ch lane pass => Sys2Proof.Machine.execMwLaneRetrain c ch lane pass s
  | .readBufferExpire u way => Sys2Proof.Machine.execReadBufferExpire u way s
  | .hcCommit n => Sys2Proof.Machine.execHcCommit n s
  | .commitComplete n => Sys2Proof.Machine.execCommitComplete n s
  | .commitFail n code => Sys2Proof.Machine.execCommitFail n code s
  | .epochRewind p n v => Sys2Proof.Machine.execEpochRewind p n v s
  | .msgDeliver c k => Sys2Proof.Machine.execMsgDeliver c k s
  | .spillDeliver c => Sys2Proof.Machine.execSpillDeliver c s
  | .counterAdd c => Sys2Proof.Machine.execCounterAdd c s
  | .watchRegister c => Sys2Proof.Machine.execWatchRegister c s
  | .watchWake c k => Sys2Proof.Machine.execWatchWake c k s
  | .wakeResend c k => Sys2Proof.Machine.execWakeResend c k s
  | .wakeAck c k => Sys2Proof.Machine.execWakeAck c k s
  | .fgRingWrite p f v => Sys2Proof.Machine.execFgRingWrite p f v s
  | .fgTake c f => Sys2Proof.Machine.execFgTake c f s
  | .fgStart c f k => Sys2Proof.Machine.execFgStart c f k s
  | .fgPacketIssue c f => Sys2Proof.Machine.execFgPacketIssue c f s
  | .dispatchOccReadReturn c f key v => Sys2Proof.Machine.execDispatchOccReadReturn c f key v s
  | .fgComplete c f k => Sys2Proof.Machine.execFgComplete c f k s
  | .digestCheck c => Sys2Proof.Machine.execDigestCheck c s
  | .slRxWrite p d v => Sys2Proof.Machine.execSlRxWrite p d v s
  | .pktParse ix => Sys2Proof.Machine.execPktParse ix s
  | .pktHop ix bad => Sys2Proof.Machine.execPktHop ix bad s
  | .pktAccept ix => Sys2Proof.Machine.execPktAccept ix s
  | .ackReceive ix => Sys2Proof.Machine.execAckReceive ix s
  | .nackReceive ix => Sys2Proof.Machine.execNackReceive ix s
  | .busyReceive ix => Sys2Proof.Machine.execBusyReceive ix s
  | .dataReceive ix => Sys2Proof.Machine.execDataReceive ix s
  | .retxTimeout k => Sys2Proof.Machine.execRetxTimeout k s
  | .rxEntryExpire k => Sys2Proof.Machine.execRxEntryExpire k s
  | .fcModeChange l => Sys2Proof.Machine.execFcModeChange l s
  | .tyFrameReceive p bytes => Sys2Proof.Machine.execTyFrameReceive p bytes s
  | .tyRekey p => Sys2Proof.Machine.execTyRekey p s
  | .tyOldKeyExpire p => Sys2Proof.Machine.execTyOldKeyExpire p s
  | .pauseExpire p ch => Sys2Proof.Machine.execPauseExpire p ch s
  | .pauseRepeat p ch => Sys2Proof.Machine.execPauseRepeat p ch s
  | .laneRetrainStart p lane => Sys2Proof.Machine.execLaneRetrainStart p lane s
  | .laneTrainDone p lane pass => Sys2Proof.Machine.execLaneTrainDone p lane pass s
  | .laneRequestRetry p => Sys2Proof.Machine.execLaneRequestRetry p s
  | .tyCtlWrite p q v => Sys2Proof.Machine.execTyCtlWrite p q v s
  | .sqTailDoorbell f v => Sys2Proof.Machine.execSqTailDoorbell f v s
  | .cqHeadDoorbell f v => Sys2Proof.Machine.execCqHeadDoorbell f v s
  | .ringConfigWrite f w v => Sys2Proof.Machine.execRingConfigWrite f w v s
  | .hcTake f e ext => Sys2Proof.Machine.execHcTake f e ext s
  | .hcSliceTime n => Sys2Proof.Machine.execHcSliceTime n s
  | .completionPost f => Sys2Proof.Machine.execCompletionPost f s
  | .eventPost => Sys2Proof.Machine.execEventPost s
  | .ctxFillDone n => Sys2Proof.Machine.execCtxFillDone n s
  | .quantumExpire n => Sys2Proof.Machine.execQuantumExpire n s
  | .contextSwitchStart n m => Sys2Proof.Machine.execContextSwitchStart n m s
  | .switchRestoreDone m => Sys2Proof.Machine.execSwitchRestoreDone m s
  | .hlPortDown p => Sys2Proof.Machine.execHlPortDown p s
  | .perstAssert p => Sys2Proof.Machine.execPerstAssert p s
  | .perstRelease p => Sys2Proof.Machine.execPerstRelease p s
  | .linkKeyTimeout p => Sys2Proof.Machine.execLinkKeyTimeout p s
  | .linkKeyRetry p => Sys2Proof.Machine.execLinkKeyRetry p s
  | .ideKeyProg p ks sub key => Sys2Proof.Machine.execIdeKeyProg p ks sub key s
  | .spdmRequest t req => Sys2Proof.Machine.execSpdmRequest t req s
  | .spdmCosign t => Sys2Proof.Machine.execSpdmCosign t s
  | .ctxNonceWrite n nonce => Sys2Proof.Machine.execCtxNonceWrite n nonce s
  | .freezeRequest src m code => Sys2Proof.Machine.execFreezeRequest src m code s
  | .tenantKeyWrite n key => Sys2Proof.Machine.execTenantKeyWrite n key s
  | .challengeRead n => Sys2Proof.Machine.execChallengeRead n s
  | .challengeLapse n => Sys2Proof.Machine.execChallengeLapse n s
  | .tokenOpenEntry n tok => Sys2Proof.Machine.execTokenOpenEntry n tok s
  | .tokenReleaseEntry n tok => Sys2Proof.Machine.execTokenReleaseEntry n tok s
  | .tokenReleaseAll n tok => Sys2Proof.Machine.execTokenReleaseAll n tok s
  | .tokenTenantDebugStart n tok => Sys2Proof.Machine.execTokenTenantDebugStart n tok s
  | .tokenTenantDebugEnd n tok => Sys2Proof.Machine.execTokenTenantDebugEnd n tok s
  | .frzDataRead n => Sys2Proof.Machine.execFrzDataRead n s
  | .opFrzRelease p v => Sys2Proof.Machine.execOpFrzRelease p v s
  | .dbgChallengeRead p => Sys2Proof.Machine.execDbgChallengeRead p s
  | .dbgGrant p g => Sys2Proof.Machine.execDbgGrant p g s
  | .dbgGrantFillDone => Sys2Proof.Machine.execDbgGrantFillDone s
  | .dbgEnd p v => Sys2Proof.Machine.execDbgEnd p v s
  | .dbgGrantExpire => Sys2Proof.Machine.execDbgGrantExpire s
  | .pbImageWrite p img => Sys2Proof.Machine.execPbImageWrite p img s
  | .pbRun p v => Sys2Proof.Machine.execPbRun p v s
  | .pbRunDone ds => Sys2Proof.Machine.execPbRunDone ds s
  | .errorReport r => Sys2Proof.Machine.execErrorReport r s
  | .elogIntake => Sys2Proof.Machine.execElogIntake s
  | .elogClear p v => Sys2Proof.Machine.execElogClear p v s
  | .cperNextRead p => Sys2Proof.Machine.execCperNextRead p s
  | .combHeartbeat c fatal => Sys2Proof.Machine.execCombHeartbeat c fatal s
  | .heartbeatMiss c => Sys2Proof.Machine.execHeartbeatMiss c s
  | .combFail c => Sys2Proof.Machine.execCombFail c s
  | .combSpareJoinDone c => Sys2Proof.Machine.execCombSpareJoinDone c s
  | .inputUndervoltage dv ms => Sys2Proof.Machine.execInputUndervoltage dv ms s
  | .inputOvervoltage dv us => Sys2Proof.Machine.execInputOvervoltage dv us s
  | .inputRecover dv ms => Sys2Proof.Machine.execInputRecover dv ms s
  | .converterShort k => Sys2Proof.Machine.execConverterShort k s
  | .converterRetry k => Sys2Proof.Machine.execConverterRetry k s
  | .converterRetryReset k => Sys2Proof.Machine.execConverterRetryReset k s
  | .lockoutClear => Sys2Proof.Machine.execLockoutClear s
  | .trip code => Sys2Proof.Machine.execTrip code s
  | .pwrRestart p v => Sys2Proof.Machine.execPwrRestart p v s
  | .governorTick inp base links mem comp => Sys2Proof.Machine.execGovernorTick inp base links mem comp s
  | .pwrCapWrite p v => Sys2Proof.Machine.execPwrCapWrite p v s
  | .pwrAlertPin ns => Sys2Proof.Machine.execPwrAlertPin ns s
  | .ibcAlert k on => Sys2Proof.Machine.execIbcAlert k on s
  | .floorExit => Sys2Proof.Machine.execFloorExit s
  | .slopeGrantTick reqs => Sys2Proof.Machine.execSlopeGrantTick reqs s
  | .thermalTick tj => Sys2Proof.Machine.execThermalTick tj s
  | .throttleStep f => Sys2Proof.Machine.execThrottleStep f s
  | .coolantTick tin tout flow dp => Sys2Proof.Machine.execCoolantTick tin tout flow dp s
  | .avsTick f need => Sys2Proof.Machine.execAvsTick f need s
  | .energyTick acts => Sys2Proof.Machine.execEnergyTick acts s
  | .oscQualifyWindow diff => Sys2Proof.Machine.execOscQualifyWindow diff s
  | .oscArbitrationDone a b => Sys2Proof.Machine.execOscArbitrationDone a b s
  | .refEdgeLoss => Sys2Proof.Machine.execRefEdgeLoss s
  | .refSwitchStart => Sys2Proof.Machine.execRefSwitchStart s
  | .refSwitchStop => Sys2Proof.Machine.execRefSwitchStop s
  | .refSwitchRestart => Sys2Proof.Machine.execRefSwitchRestart s
  | .refSelWrite p v => Sys2Proof.Machine.execRefSelWrite p v s
  | .sscOutWrite p v => Sys2Proof.Machine.execSscOutWrite p v s
  | .powerGood => Sys2Proof.Machine.execPowerGood s
  | .firmwareBoot => Sys2Proof.Machine.execFirmwareBoot s
  | .bistDone rs => Sys2Proof.Machine.execBistDone rs s
  | .mwCalibrateDone bad => Sys2Proof.Machine.execMwCalibrateDone bad s
  | .swarmBroadcast fw => Sys2Proof.Machine.execSwarmBroadcast fw s
  | .swarmAnswer f slot pass => Sys2Proof.Machine.execSwarmAnswer f slot pass s
  | .moduleReady => Sys2Proof.Machine.execModuleReady s
  | .resetNAssert us => Sys2Proof.Machine.execResetNAssert us s
  | .fwImageWrite p img => Sys2Proof.Machine.execFwImageWrite p img s
  | .fwCommit p v => Sys2Proof.Machine.execFwCommit p v s
  | .portLightReceived p lanes => Sys2Proof.Machine.execPortLightReceived p lanes s
  | .portUnconnected p => Sys2Proof.Machine.execPortUnconnected p s
  | .portTrainRetry p => Sys2Proof.Machine.execPortTrainRetry p s
  | .rollPlanWrite p v => Sys2Proof.Machine.execRollPlanWrite p v s
  | .neighbourCheck p peer => Sys2Proof.Machine.execNeighbourCheck p peer s
  | .rollToken p remain => Sys2Proof.Machine.execRollToken p remain s
  | .rollReport p n => Sys2Proof.Machine.execRollReport p n s
  | .rollDeadline => Sys2Proof.Machine.execRollDeadline s
  | .rollCount n pts => Sys2Proof.Machine.execRollCount n pts s
  | .rollStart p v => Sys2Proof.Machine.execRollStart p v s
  | .tsSyncTick pts => Sys2Proof.Machine.execTsSyncTick pts s
  | .maintReq p v => Sys2Proof.Machine.execMaintReq p v s
  | .maintActivityEnd t ok => Sys2Proof.Machine.execMaintActivityEnd t ok s
  | .spareRemap c region => Sys2Proof.Machine.execSpareRemap c region s
  | .spareRegionCopyDone f => Sys2Proof.Machine.execSpareRegionCopyDone f s
  | .sdoRequest bus frame => Sys2Proof.Machine.execSdoRequest bus frame s
  | .sdoTimeout => Sys2Proof.Machine.execSdoTimeout s
  | .nmtCommand cs node => Sys2Proof.Machine.execNmtCommand cs node s
  | .lssCommand frame => Sys2Proof.Machine.execLssCommand frame s
  | .tpdoTimerExpire k => Sys2Proof.Machine.execTpdoTimerExpire k s
  | .heartbeatProduce => Sys2Proof.Machine.execHeartbeatProduce s
  | .emcySend => Sys2Proof.Machine.execEmcySend s
  | .objectWrite p idx sub v => Sys2Proof.Machine.execObjectWrite p idx sub v s
  | .persistStore idx sub => Sys2Proof.Machine.execPersistStore idx sub s
  | .ctxSelWrite p v => Sys2Proof.Machine.execCtxSelWrite p v s
  | .dwSelWrite h v => Sys2Proof.Machine.execDwSelWrite h v s
  | .dwGoTransfer h len off buf => Sys2Proof.Machine.execDwGoTransfer h len off buf s
  | .dwGoCommit h => Sys2Proof.Machine.execDwGoCommit h s
  | .snapListWrite p l => Sys2Proof.Machine.execSnapListWrite p l s
  | .snapTake p v => Sys2Proof.Machine.execSnapTake p v s
  | .pcLatch p v => Sys2Proof.Machine.execPcLatch p v s
  | .pcSelWrite p v => Sys2Proof.Machine.execPcSelWrite p v s
  | .pcValueWrite p v => Sys2Proof.Machine.execPcValueWrite p v s
  | .pcStickyClear p v => Sys2Proof.Machine.execPcStickyClear p v s
  | .trCfgWrite n sub v => Sys2Proof.Machine.execTrCfgWrite n sub v s
  | .traceRecordWrite c => Sys2Proof.Machine.execTraceRecordWrite c s
  | .unitGate c k ix => Sys2Proof.Machine.execUnitGate c k ix s
  | .unitWake c k ix => Sys2Proof.Machine.execUnitWake c k ix s
  | .dbgMemRead p => Sys2Proof.Machine.execDbgMemRead p s
  | .dbgMemWrite p v => Sys2Proof.Machine.execDbgMemWrite p v s
  | .dbgRegRead p => Sys2Proof.Machine.execDbgRegRead p s
  | .dbgRegWrite p v => Sys2Proof.Machine.execDbgRegWrite p v s
  | .peekTimeout p => Sys2Proof.Machine.execPeekTimeout p s
  | .dbgHalt p v => Sys2Proof.Machine.execDbgHalt p v s
  | .dbgResume p v => Sys2Proof.Machine.execDbgResume p v s
  | .dbgStep p v => Sys2Proof.Machine.execDbgStep p v s
  | .jtagUpdateDr dr => Sys2Proof.Machine.execJtagUpdateDr dr s
  | .jtagTrst => Sys2Proof.Machine.execJtagTrst s
  | .mfpCfgWrite p n v => Sys2Proof.Machine.execMfpCfgWrite p n v s
  | .mfpHandover n => Sys2Proof.Machine.execMfpHandover n s
  | .stepSyncInEdge n ns => Sys2Proof.Machine.execStepSyncInEdge n ns s
  | .stepSyncPulseEnd => Sys2Proof.Machine.execStepSyncPulseEnd s
  | .uartReceive b => Sys2Proof.Machine.execUartReceive b s
  | .wakeReceive ix => Sys2Proof.Machine.execWakeReceive ix s
  | .ackIntervalExpire k => Sys2Proof.Machine.execAckIntervalExpire k s
  | .hlLinkTrained p rate lanes flit => Sys2Proof.Machine.execHlLinkTrained p rate lanes flit s
  | .hlDmaCompletion f ok data => Sys2Proof.Machine.execHlDmaCompletion f ok data s
  | .vkeepOff => Sys2Proof.Machine.execVkeepOff s
  | .frameRaise => Sys2Proof.Machine.execFrameRaise s
  | .converterRampEnd k pct => Sys2Proof.Machine.execConverterRampEnd k pct s
  | .ctxDestroyDone n => Sys2Proof.Machine.execCtxDestroyDone n s
  | .dbgEndingDone ok => Sys2Proof.Machine.execDbgEndingDone ok s
  | .canBusOff b => Sys2Proof.Machine.execCanBusOff b s
  | .canBusRecover b => Sys2Proof.Machine.execCanBusRecover b s

end Sys2Proof.Machine
end

