-- ==== Sys2Proof/Machine/Step.lean ====
section
/-! DEFINITION. One step: the command at the front of the queue runs on the state with the queue's rest; on an empty
queue one SCLK passes (log entry 12). -/

namespace Sys2Proof.Machine

open Sys2Proof

/-- What passes when no command waits: TS counts one SCLK, unless a reference switch has stopped it or a count is held
(R443, R498, R499). -/
def State.tick (s : State) : State :=
  if s.refs.stopped then s
  else if s.boot.tsHold then { s with boot := { s.boot with tsHold := false } }
  else { s with ts := s.ts + 1 }

/-- One step of the block. -/
def step (s : State) : Host.Outcome State Fault Refusal :=
  match s.pending with
  | [] => .next s.tick
  | i :: rest => exec i { s with pending := rest }

/-- The state with the command that the word spells put at the front of its queue. -/
def State.withFetchWord (s : State) (nbits w : Nat) : State :=
  match decodeTableWord nbits w with
  | some i => { s with pending := i :: s.pending }
  | none => s

end Sys2Proof.Machine
end

