-- ==== Sys2Proof/Safety.lean ====
section
/-! DEFINITION. What a safe step is, and the terms in which the claims speak: what a command gives, when a Worker Cell
slot issues an instruction, and the state in which it retires. -/

namespace Sys2Proof

open Sys2Proof.Machine

/-- The step from `s` goes on. -/
def Safe (s : State) : Prop := ∃ t, step s = .next t

/-- Command `i` runs on `s` to a next state of which `P` holds. -/
def Gives (i : Instr) (s : State) (P : State → Prop) : Prop := ∃ t, exec i s = .next t ∧ P t

namespace Claims

/-! Worker Cells -/

/-- Slot `u` can issue, its PC lies in local memory, and the word there is `w`, which is instruction `o`; none of the scalar registers
`w` names waits for a load, and a lock the slot holds lets `w` stand (R145, R162, R172, R191). -/
abbrev issues (o : COp) (u : SlotRef) (s : State) (w : Nat) : Prop :=
  isSlot u = true ∧ s.canIssue u = true ∧ (s.slot u).pc < 0x4000 ∧ fetchWord (s.worker u.comb u.cell) (s.slot u) = w
  ∧ cellOp w = some o
  ∧ (scalarsOf o w).any (fun r => (s.slot u).pend.any (fun p => p.reg = r || (p.wide && p.reg + 1 = r))) = false
  ∧ lockFault (s.slot u) o w = false

/-- The slot with the line of its PC in the fetch buffer (R172). -/
def now (s : State) (u : SlotRef) : WSlot := fetchLine (s.worker u.comb u.cell) (s.slot u)

/-- The instruction retires: slot `u` holds `x` and goes on at `pc` (R162, R168, R191). -/
def retireAt (s : State) (u : SlotRef) (x : WSlot) (pc : Nat) : State :=
  (s.setSlot u { x with pc := pc }.lockCount).issued u
/-- The instruction retires and the slot goes on at the next word. -/
def retire (s : State) (u : SlotRef) (x : WSlot) : State := retireAt s u x ((s.slot u).pc + 4)

/-- Scalar register `d` receives `v`, and the instruction retires. -/
def setsS (s : State) (u : SlotRef) (d : Nat) (v : W32) : Res := .next (retire s u ((now s u).setS d v))
/-- Vector register `d` receives the lanes `l`, and the instruction retires. -/
def setsV (s : State) (u : SlotRef) (d : Nat) (l : List W32) : Res := .next (retire s u ((now s u).setVec d l))
/-- The slot stops with `code` at the instruction at its PC (R189, R193). -/
def stops (s : State) (u : SlotRef) (code : W16) : Res :=
  .next ((s.setSlot u (now s u)).slotStop u code (s.slot u).pc)

/-- The instruction retires with the effect that `t` holds: the slot goes on at the next word (R162, R168, R191). -/
def done (s : State) (u : SlotRef) (t : State) : Res :=
  .next ((t.setSlot u { t.slot u with pc := (s.slot u).pc + 4 }.lockCount).issued u)
/-- The state in which the instruction finds the machine: the line of its PC fetched. -/
def fetched (s : State) (u : SlotRef) : State := s.setSlot u (now s u)

/-- A transfer to `t` with the slot holding `x`: to a word of local memory it retires there; else the slot stops with 0x3006 at the
transfer (R177). -/
def transfer (s : State) (u : SlotRef) (x : WSlot) (t : Int) : Res :=
  if 0 ≤ t ∧ t ≤ 0x3FFF ∧ t % 4 = 0 then .next (retireAt s u x t.toNat) else stops s u 0x3006#16
/-- A conditional branch (R174, R177). -/
def branchOn (p : Bool) (s : State) (u : SlotRef) (w : Nat) : Res :=
  if p then transfer s u (now s u) ((s.slot u).pc + 4 * wSImm w) else .next (retire s u (now s u))

/-- The Worker Cell instruction a command issues, and the slot it names. -/
def cellCmd : Instr → Option (COp × SlotRef)
  | .cNop u => some (.nop, u) | .cAdd u => some (.add, u) | .cSub u => some (.sub, u) | .cAnd u => some (.and, u)
  | .cOr u => some (.or, u) | .cXor u => some (.xor, u) | .cShl u => some (.shl, u) | .cShr u => some (.shr, u)
  | .cSra u => some (.sra, u) | .cSlt u => some (.slt, u) | .cSltu u => some (.sltu, u) | .cMul u => some (.mul, u)
  | .cMulhu u => some (.mulhu, u) | .cAddi u => some (.addi, u) | .cAndi u => some (.andi, u) | .cOri u => some (.ori, u)
  | .cXori u => some (.xori, u) | .cShi u => some (.shi, u) | .cLui u => some (.lui, u) | .cBeq u => some (.beq, u)
  | .cBne u => some (.bne, u) | .cBlt u => some (.blt, u) | .cBge u => some (.bge, u) | .cBltu u => some (.bltu, u)
  | .cBgeu u => some (.bgeu, u) | .cJal u => some (.jal, u) | .cJr u => some (.jr, u) | .cLd u => some (.ld, u)
  | .cSt u => some (.st, u) | .cVld u => some (.vld, u) | .cVst u => some (.vst, u) | .cGld u => some (.gld, u)
  | .cGst u => some (.gst, u) | .cFenceRelease u => some (.fenceR, u) | .cFenceAcquire u => some (.fenceA, u)
  | .cFenceReleaseAcquire u => some (.fenceRA, u) | .cVadd u => some (.vadd, u) | .cVsub u => some (.vsub, u)
  | .cVmul u => some (.vmul, u) | .cVfma u => some (.vfma, u) | .cVmax u => some (.vmax, u) | .cVmin u => some (.vmin, u)
  | .cVexp u => some (.vexp, u) | .cVrcp u => some (.vrcp, u) | .cVrsq u => some (.vrsq, u)
  | .cVcvtFp32ToBf16 u => some (.vcvtDown, u) | .cVcvtBf16ToFp32 u => some (.vcvtUp, u) | .cViadd u => some (.viadd, u)
  | .cVisub u => some (.visub, u) | .cVimul u => some (.vimul, u) | .cVand u => some (.vand, u) | .cVor u => some (.vor, u)
  | .cVxor u => some (.vxor, u) | .cVshl u => some (.vshl, u) | .cVshr u => some (.vshr, u) | .cVsra u => some (.vsra, u)
  | .cVilt u => some (.vilt, u) | .cVredFp32Sum u => some (.vredFSum, u) | .cVredFp32Max u => some (.vredFMax, u)
  | .cVredInt32Sum u => some (.vredISum, u) | .cVredInt32Max u => some (.vredIMax, u) | .cVbc u => some (.vbc, u)
  | .cVget u => some (.vget, u) | .cVset u => some (.vset, u) | .cVmov u => some (.vmov, u) | .cQnt u => some (.qnt, u)
  | .cQsl u => some (.qsl, u) | .cDqt u => some (.dqt, u) | .cSpx u => some (.spx, u) | .cMfs u => some (.mfs, u)
  | .cMts u => some (.mts, u) | .cVpop u => some (.vpop, u) | .cWsnd u => some (.wsnd, u) | .cCadd u => some (.cadd, u)
  | .cCaddRemote u => some (.caddRemote, u) | .cCwait u => some (.cwait, u) | .cCtest u => some (.ctest, u)
  | .cCrd u => some (.crd, u) | .cSrr u => some (.srr, u) | .cSrw u => some (.srw, u) | .cSpawn u => some (.spawn, u)
  | .cLock u => some (.lock, u) | .cUnlock u => some (.unlock, u) | .cEnd u => some (.endSlot, u)
  | _ => none

/-! Dictionary accesses -/

/-- A write of `v` to a scalar object over path `p` passes every test of R490 that stands before the object's own rule. -/
def writable (p : Path) (idx sub : Nat) (v : W64) (s : State) : Bool :=
  s.pathOpen p && s.objOpen p idx sub && s.selOk p idx && objRange idx sub v.toNat
  && match s.objCheck p idx sub true with
    | .ok row => !row.ty.isDom && decide (v.toNat < 2 ^ row.ty.width)
    | .error _ => false
/-- A write of a DOMAIN object passes them. -/
def domWritable (p : Path) (idx sub : Nat) (s : State) : Bool :=
  s.pathOpen p && s.objOpen p idx sub && match s.objCheck p idx sub true with
    | .ok row => row.ty.isDom
    | .error _ => false
/-- A read passes them. -/
def readable (p : Path) (idx sub : Nat) (s : State) : Bool :=
  s.pathOpen p && s.objOpen p idx sub && s.selOk p idx && (s.objCheck p idx sub false).isOk
/-- The write is accepted with the effect that `t` holds, and answered so. -/
def accepts (p : Path) (idx sub : Nat) (t : State) : Res := .next (t.out (.answer p idx sub 0 0))
/-- The access is refused: it leaves `t`, its refusal is recorded, and its code is the answer (R490, R491). -/
def refuses (p : Path) (idx sub : Nat) (r : Refuse) (t : State) : Res := .next ((t.refused p idx sub r).out (.answer p idx sub r.code 0))

/-! References -/

/-- A switch of references stands at a step of R443, the compute clocks are stopped in that step alone, and each oscillator is
unqualified, qualified or failed (R444, R445). -/
abbrev refsOk (r : Refs) : Prop := r.switching ≤ 3 ∧ (r.stopped = true ↔ r.switching = 3) ∧ r.stA ≤ 2 ∧ r.stB ≤ 2

end Claims

end Sys2Proof
end

