-- ==== Sys2Proof/Certificates/Slice0/Obligations.lean ====
section
/-! DEFINITION. The statements for the provers. Each docstring names the rules of spec/ it rests on; a clause that rests on a choice of
the model names its log entry. -/

open Sys2Proof Sys2Proof.Machine Sys2Proof.Claims

/-! The block as a whole -/

/-- A step with a command waiting is exec of that command on the state with the queue's rest. -/
def Obligations.StepRunsFrontCommand : Prop :=
  ∀ (i : Instr) (rest : List Instr) (s : State), step { s with pending := i :: rest } = exec i { s with pending := rest }

/-- On an empty queue one SCLK passes (log entry 12, the model's choice): TS counts 1, modulo 2^64, unless a reference switch has stopped
it; nothing but TS and a held count changes (R498, R443, R499). -/
def Obligations.IdleStepCountsTs : Prop :=
  ∀ s : State, s.pending = [] →
    (s.refs.stopped = true → step s = .next s)
    ∧ (s.refs.stopped = false → s.boot.tsHold = false → step s = .next { s with ts := s.ts + 1 })
    ∧ (s.refs.stopped = false → s.boot.tsHold = true → step s = .next { s with boot := { s.boot with tsHold := false } })

/-- A command whose operands name units of the part runs to a next state from every state: no command is refused, and ordinary data ends
no run. A command that names a unit the part does not have stops with that fault (R4, R11 to R15, R28). -/
def Obligations.CommandsRunOrNameNoUnit : Prop :=
  (∀ (i : Instr) (s : State), i.wf = true → ∃ t, exec i s = .next t)
  ∧ (∀ (i : Instr) (s : State), i.wf = false → exec i s = .fault .noSuchUnit)

/-! Worker Cells -/

/-- Scalar instructions that compute (R174, R176): the destination receives what the table says, nothing else of the slot changes, and
the slot goes on at the next word. Branches compare `A` and `B` and go `OFF` words from themselves; `JAL` and `JR` write the link PC + 4 and go; a transfer to an
address outside local memory or not aligned faults with 0x3006 (R174, R176, R177). -/
def Obligations.ScalarInstructionsAndBranches : Prop :=
  (∀ (u : SlotRef) (s : State) (w : Nat),
     let a := (s.slot u).s (wA w)
     let b := (s.slot u).s (wB w)
     let n := b.toNat % 32
     let d := wD w
     let imm : W32 := BitVec.ofNat 32 (wImm w)
     (issues .nop u s w → exec (.cNop u) s = .next (retire s u (now s u)))
     ∧ (issues .add u s w → exec (.cAdd u) s = setsS s u d (a + b))
     ∧ (issues .sub u s w → exec (.cSub u) s = setsS s u d (a - b))
     ∧ (issues .and u s w → exec (.cAnd u) s = setsS s u d (a &&& b))
     ∧ (issues .or u s w → exec (.cOr u) s = setsS s u d (a ||| b))
     ∧ (issues .xor u s w → exec (.cXor u) s = setsS s u d (a ^^^ b))
     ∧ (issues .shl u s w → exec (.cShl u) s = setsS s u d (a <<< n))
     ∧ (issues .shr u s w → exec (.cShr u) s = setsS s u d (a >>> n))
     ∧ (issues .sra u s w → exec (.cSra u) s = setsS s u d (a.sshiftRight n))
     ∧ (issues .slt u s w → exec (.cSlt u) s = setsS s u d (if a.toInt < b.toInt then 1 else 0))
     ∧ (issues .sltu u s w → exec (.cSltu u) s = setsS s u d (if a.toNat < b.toNat then 1 else 0))
     ∧ (issues .mul u s w → exec (.cMul u) s = setsS s u d (a * b))
     ∧ (issues .mulhu u s w → exec (.cMulhu u) s = setsS s u d (BitVec.ofNat 32 (a.toNat * b.toNat / 2 ^ 32)))
     ∧ (issues .addi u s w → exec (.cAddi u) s = setsS s u d (a + BitVec.ofInt 32 (wSImm w)))
     ∧ (issues .andi u s w → exec (.cAndi u) s = setsS s u d (a &&& imm))
     ∧ (issues .ori u s w → exec (.cOri u) s = setsS s u d (a ||| imm))
     ∧ (issues .xori u s w → exec (.cXori u) s = setsS s u d (a ^^^ imm))
     ∧ (issues .shi u s w → fld w 5 2 = 0 → exec (.cShi u) s = setsS s u d (a <<< fld w 0 5))
     ∧ (issues .shi u s w → fld w 5 2 = 1 → exec (.cShi u) s = setsS s u d (a >>> fld w 0 5))
     ∧ (issues .shi u s w → fld w 5 2 = 2 → exec (.cShi u) s = setsS s u d (a.sshiftRight (fld w 0 5)))
     ∧ (issues .lui u s w → exec (.cLui u) s = setsS s u d (BitVec.ofNat 32 (wImm21 w * 2 ^ 11))))
  ∧ (∀ (u : SlotRef) (s : State) (w : Nat),
         let a := (s.slot u).s (wD w)
         let b := (s.slot u).s (wA w)
         let link := (now s u).setS (wD w) (BitVec.ofNat 32 ((s.slot u).pc + 4))
         (issues .beq u s w → exec (.cBeq u) s = branchOn (a = b) s u w)
         ∧ (issues .bne u s w → exec (.cBne u) s = branchOn (a ≠ b) s u w)
         ∧ (issues .blt u s w → exec (.cBlt u) s = branchOn (a.toInt < b.toInt) s u w)
         ∧ (issues .bge u s w → exec (.cBge u) s = branchOn (b.toInt ≤ a.toInt) s u w)
         ∧ (issues .bltu u s w → exec (.cBltu u) s = branchOn (a.toNat < b.toNat) s u w)
         ∧ (issues .bgeu u s w → exec (.cBgeu u) s = branchOn (b.toNat ≤ a.toNat) s u w)
         ∧ (issues .jal u s w → exec (.cJal u) s = transfer s u link ((s.slot u).pc + 4 * wSImm w))
         ∧ (issues .jr u s w → exec (.cJr u) s = transfer s u link b.toNat))

/-- Loads and stores of local memory outside a locked sequence: 4 or 64 bytes, little-endian, aligned and inside local memory, else the
slot stops with 0x3006 (R172, R176, R178). A store leaves every other byte of local memory as it was. -/
def Obligations.LocalLoadsAndStores : Prop :=
  ∀ (u : SlotRef) (s : State) (w : Nat), (s.slot u).lock = none →
    let k := (fetched s u).worker u.comb u.cell
    let a := ((s.slot u).s (wA w) + BitVec.ofInt 32 (wSImm w)).toNat
    let d := wD w
    (issues .ld u s w → a % 4 = 0 → a < 0x4000 →
        exec (.cLd u) s = setsS s u d (BitVec.ofNat 32 (leNat (cellsRead (s.worker u.comb u.cell).mem a 4))))
    ∧ (issues .vld u s w → a % 64 = 0 → a < 0x4000 →
        exec (.cVld u) s = setsV s u d ((List.range 16).map (fun j =>
          BitVec.ofNat 32 (leNat (cellsRead (s.worker u.comb u.cell).mem (a + 4 * j) 4)))))
    ∧ (issues .st u s w → a % 4 = 0 → a < 0x4000 →
        exec (.cSt u) s = done s u ((fetched s u).setWorker u.comb u.cell
          { k with mem := cellsWrite k.mem a (leBytes 4 ((s.slot u).s d).toNat) }))
    ∧ (issues .vst u s w → a % 64 = 0 → a < 0x4000 →
        exec (.cVst u) s = done s u ((fetched s u).setWorker u.comb u.cell
          { k with mem := cellsWrite k.mem a (bytes32 ((s.slot u).vec d)) }))
    ∧ (issues .ld u s w → ¬(a % 4 = 0 ∧ a < 0x4000) → exec (.cLd u) s = stops s u 0x3006#16)
    ∧ (issues .vld u s w → ¬(a % 64 = 0 ∧ a < 0x4000) → exec (.cVld u) s = stops s u 0x3006#16)
    ∧ (issues .st u s w → ¬(a % 4 = 0 ∧ a < 0x4000) → exec (.cSt u) s = stops s u 0x3006#16)
    ∧ (issues .vst u s w → ¬(a % 64 = 0 ∧ a < 0x4000) → exec (.cVst u) s = stops s u 0x3006#16)
    ∧ (∀ (m : List Host.Cell) (b : List Byte) (j : Nat), (j < a ∨ a + b.length ≤ j) → tget 0 (cellsWrite m a b) j = tget 0 m j)

/-- Vector arithmetic lane by lane, on FP32 or with `FN`[4] on both BF16 halves, each result rounded once; `faddP`, `fmulP`, `ffmaP` round
the exact result to the precision given (R175, R176, R179). -/
def Obligations.VectorFloatInstructions : Prop :=
  ∀ (u : SlotRef) (s : State) (w : Nat),
    let va := (s.slot u).vec (wA w)
    let vb := (s.slot u).vec (wB w)
    let vd := (s.slot u).vec (wD w)
    let d := wD w
    let two (f : Nat → FV → FV → W32) : List W32 :=
      if bit w 4 then packHalves (((halves va).zip (halves vb)).map (fun p => bfDown (f 8 (fv (bfUp p.1)) (fv (bfUp p.2)))))
      else (va.zip vb).map (fun p => f 24 (fv p.1) (fv p.2))
    let one (f : Nat → W32 → W32) : List W32 :=
      if bit w 4 then packHalves ((halves va).map (fun h => bfDown (f 8 (bfUp h)))) else va.map (f 24)
    (issues .vadd u s w → exec (.cVadd u) s = setsV s u d (two faddP))
    ∧ (issues .vsub u s w → exec (.cVsub u) s = setsV s u d (two (fun p x y => faddP p x (fnegV y))))
    ∧ (issues .vmul u s w → exec (.cVmul u) s = setsV s u d (two fmulP))
    ∧ (issues .vmax u s w → exec (.cVmax u) s = setsV s u d (two fmaxP))
    ∧ (issues .vmin u s w → exec (.cVmin u) s = setsV s u d (two fminP))
    ∧ (issues .vfma u s w → bit w 4 = false → exec (.cVfma u) s = setsV s u d
        ((vd.zip (va.zip vb)).map (fun p => ffmaP 24 (fv p.1) (fv p.2.1) (fv p.2.2))))
    ∧ (issues .vfma u s w → bit w 4 = true → exec (.cVfma u) s = setsV s u d
        (packHalves (((halves vd).zip ((halves va).zip (halves vb))).map (fun p =>
          bfDown (ffmaP 8 (fv (bfUp p.1)) (fv (bfUp p.2.1)) (fv (bfUp p.2.2)))))))
    ∧ (issues .vexp u s w → exec (.cVexp u) s = setsV s u d (one fexpP))
    ∧ (issues .vrcp u s w → exec (.cVrcp u) s = setsV s u d (one frcpP))
    ∧ (issues .vrsq u s w → exec (.cVrsq u) s = setsV s u d (one frsqP))
    ∧ (issues .vcvtDown u s w → exec (.cVcvtFp32ToBf16 u) s = setsV s u d
        (packHalves ((va ++ (s.slot u).vec (wA w + 1)).map (fun v => bfDown (fvWord 8 (fv v))))))
    ∧ (issues .vcvtUp u s w → exec (.cVcvtBf16ToFp32 u) s =
        let l := (halves va).map (fun h => fvWord 24 (fv (bfUp h)))
        .next (retire s u (((now s u).setVec d (l.take 16)).setVec (d + 1) (l.drop 16))))

/-- INT32 vector arithmetic, reductions in the fixed tree of neighbouring lanes, and moves between lanes and scalars (R175, R176, R180). -/
def Obligations.VectorIntegerReduceMove : Prop :=
  ∀ (u : SlotRef) (s : State) (w : Nat),
    let x := s.slot u
    let d := wD w
    let va := x.vec (wA w)
    let lanes (f : W32 → W32 → W32) : List W32 := (va.zip (x.vec (wB w))).map (fun p => f p.1 p.2)
    let tree (f : W32 → W32 → W32) : W32 :=
      let l (i : Nat) := x.lane (wA w) i
      f (f (f (f (l 0) (l 1)) (f (l 2) (l 3))) (f (f (l 4) (l 5)) (f (l 6) (l 7))))
        (f (f (f (l 8) (l 9)) (f (l 10) (l 11))) (f (f (l 12) (l 13)) (f (l 14) (l 15))))
    (issues .viadd u s w → exec (.cViadd u) s = setsV s u d (lanes (· + ·)))
    ∧ (issues .visub u s w → exec (.cVisub u) s = setsV s u d (lanes (· - ·)))
    ∧ (issues .vimul u s w → exec (.cVimul u) s = setsV s u d (lanes (· * ·)))
    ∧ (issues .vand u s w → exec (.cVand u) s = setsV s u d (lanes (· &&& ·)))
    ∧ (issues .vor u s w → exec (.cVor u) s = setsV s u d (lanes (· ||| ·)))
    ∧ (issues .vxor u s w → exec (.cVxor u) s = setsV s u d (lanes (· ^^^ ·)))
    ∧ (issues .vshl u s w → exec (.cVshl u) s = setsV s u d (lanes (fun a b => a <<< (b.toNat % 32))))
    ∧ (issues .vshr u s w → exec (.cVshr u) s = setsV s u d (lanes (fun a b => a >>> (b.toNat % 32))))
    ∧ (issues .vsra u s w → exec (.cVsra u) s = setsV s u d (lanes (fun a b => a.sshiftRight (b.toNat % 32))))
    ∧ (issues .vilt u s w → exec (.cVilt u) s = setsV s u d (lanes (fun a b => if a.toInt < b.toInt then 1 else 0)))
    ∧ (issues .vredFSum u s w → exec (.cVredFp32Sum u) s = setsS s u d (tree (fun a b => faddP 24 (fv a) (fv b))))
    ∧ (issues .vredFMax u s w → exec (.cVredFp32Max u) s = setsS s u d (tree (fun a b => fmaxP 24 (fv a) (fv b))))
    ∧ (issues .vredISum u s w → exec (.cVredInt32Sum u) s = setsS s u d (tree (· + ·)))
    ∧ (issues .vredIMax u s w → exec (.cVredInt32Max u) s = setsS s u d (tree (fun a b => if a.toInt < b.toInt then b else a)))
    ∧ (issues .vbc u s w → exec (.cVbc u) s = setsV s u d (List.replicate 16 (x.s (wA w))))
    ∧ (issues .vget u s w → exec (.cVget u) s = setsS s u d (x.lane (wA w) (fld w 7 4)))
    ∧ (issues .vset u s w → exec (.cVset u) s = .next (retire s u ((now s u).setLane d (fld w 7 4) (x.s (wA w)))))
    ∧ (issues .vmov u s w → exec (.cVmov u) s = setsV s u d va)

/-- Quantise, slice, dequantise and Ellipsis expansion (R45, R176, R181 to R186): codes and scale of the block at vd and sb; the low slice of
the residual; values of the codes under the scale; a group's columns, or 0x2002 and 0x2003 in that order. -/
def Obligations.QuantiseAndExpand : Prop :=
  ∀ (u : SlotRef) (s : State) (w : Nat),
    let x := s.slot u
    let d := wD w
    let f := fld w 0 2
    let src := qSource w x
    let zero := src.map (fun _ => (0 : Nat))
    let q := quantBlock f false none (src.map fv) zero
    (issues .qnt u s w → bit w 4 = false → bit w 5 = false → exec (.cQnt u) s =
        .next (retire s u (((now s u).setVec d (bitLanes (packCodes (fmtW f) q.2))).setS (wB w) (BitVec.ofNat 32 q.1))))
    ∧ (issues .qnt u s w → bit w 4 = true → bit w 5 = false → exec (.cQnt u) s =
        let r := rngDraws src.length x.rng
        let y := quantBlock f true none (src.map fv) r.1
        .next (retire s u ((({ now s u with rng := r.2 } : WSlot).setVec d (bitLanes (packCodes (fmtW f) y.2))).setS (wB w) (BitVec.ofNat 32 y.1))))
    ∧ (issues .qsl u s w → q.1 ≠ 255 → exec (.cQsl u) s =
        let res := (src.zip q.2).map (fun p => faddP 24 (fv p.1) (fnegV (fv (dequant f q.1 p.2))))
        let lo := quantBlock f false none (res.map fv) zero
        .next (retire s u ((((now s u).setVec d (bitLanes (packCodes (fmtW f) q.2))).setVec (d + 1) (bitLanes (packCodes (fmtW f) lo.2))).setS
          (wB w) (BitVec.ofNat 32 (q.1 + 256 * lo.1)))))
    ∧ (issues .dqt u s w → bit w 2 = true → exec (.cDqt u) s =
        setsV s u d ((unpackCodes (fmtW f) 16 (wnum (x.vec (wA w)))).map (dequant f ((x.s (wB w)).toNat % 256))))
    ∧ (issues .dqt u s w → bit w 2 = false → exec (.cDqt u) s =
        let l := (unpackCodes (fmtW f) 32 (wnum (x.vec (wA w)))).map (dequant f ((x.s (wB w)).toNat % 256))
        .next (retire s u (((now s u).setVec d (l.take 16)).setVec (d + 1) (l.drop 16))))
    ∧ (issues .spx u s w →
        let n := if bit w 0 then 2 else 4
        let vs := ((x.vec (wA w)).drop (2 * n * fld w 1 2)).take (2 * n)
        let ix := (List.range (2 * n)).map (fun j => fld (x.s (wB w)).toNat (3 * j) 3)
        let lim (t : Nat) := if t = 0 then 8 else t
        let g0 := groupFault (ix.take n) (lim (fld w 3 3))
        let g1 := groupFault (ix.drop n) (lim (fld w 6 3))
        exec (.cSpx u) s = match g0, g1 with
          | some c, _ => stops s u c
          | none, some c => stops s u c
          | none, none => setsV s u d (spread (ix.take n) (vs.take n) ++ spread (ix.drop n) (vs.drop n)))

/-- A slot that cannot issue does nothing, and so does a command that names another instruction than the word at the slot's PC (log entry 8,
the model's choice); an illegal word stops the slot with 0x4204 (R189), a PC at or past 0x4000 with 0x3006 and `SLOT_FPCs` 0x3FFC (R177), a word
the lock's rules forbid with 0x4206 (R191). An access of a slot that a release still holds does not issue: the slot keeps its PC and its registers, and only its fetch buffer is
filled (R145, R162, R245). -/
def Obligations.CellsThatDoNotIssueOrWait : Prop :=
  (∀ (i : Instr) (o : COp) (u : SlotRef) (s : State), cellCmd i = some (o, u) → isSlot u = true →
     let w := fetchWord (s.worker u.comb u.cell) (s.slot u)
     (s.canIssue u = false → exec i s = .next s)
     ∧ (s.canIssue u = true → 0x4000 ≤ (s.slot u).pc → exec i s = .next (s.slotStop u 0x3006#16 0x3FFC))
     ∧ (s.canIssue u = true → (s.slot u).pc < 0x4000 → cellOp w = none → exec i s = stops s u 0x4204#16)
     ∧ (∀ o', s.canIssue u = true → (s.slot u).pc < 0x4000 → cellOp w = some o' → o' ≠ o → exec i s = .next s)
     ∧ (s.canIssue u = true → (s.slot u).pc < 0x4000 → cellOp w = some o
         → (scalarsOf o w).any (fun r => (s.slot u).pend.any (fun p => p.reg = r || (p.wide && p.reg + 1 = r))) = false
         → lockFault (s.slot u) o w = true → exec i s = stops s u 0x4206#16))
  ∧ (∀ (u : SlotRef) (s : State) (w : Nat), (s.slot u).held = true →
         (issues .gld u s w → exec (.cGld u) s = .next (fetched s u)) ∧ (issues .gst u s w → exec (.cGst u) s = .next (fetched s u))
         ∧ (issues .wsnd u s w → exec (.cWsnd u) s = .next (fetched s u)) ∧ (issues .cadd u s w → exec (.cCadd u) s = .next (fetched s u))
         ∧ (issues .caddRemote u s w → exec (.cCaddRemote u) s = .next (fetched s u)) ∧ (issues .ctest u s w → exec (.cCtest u) s = .next (fetched s u))
         ∧ (issues .crd u s w → exec (.cCrd u) s = .next (fetched s u)) ∧ (issues .srr u s w → exec (.cSrr u) s = .next (fetched s u))
         ∧ (issues .srw u s w → exec (.cSrw u) s = .next (fetched s u))
         ∧ (fetched s u).slot u = { s.slot u with fetch := (now s u).fetch })

/-- The frame of retirement: an instruction that writes only its slot leaves every other slot, every memory, counter and Engine, and every
field of the state but the Combs as they were; of the Comb, the slot, the slot last served and the counters of R500 change (R162, R168). The frame of a stop: the slot no longer runs, its code and the address stand in `SLOT_FAULTs` and `SLOT_FPCs`; registers and the random
state are as they were outside a locked sequence; other slots and every memory are untouched (R189). -/
def Obligations.RetirementAndStopFrames : Prop :=
  (∀ (s : State) (u : SlotRef) (x : WSlot) (pc : Nat),
     let t := retireAt s u x pc
     (∀ u', u' ≠ u → t.slot u' = s.slot u')
     ∧ (t.slot u).pc = pc ∧ (t.slot u).sregs = x.sregs ∧ (t.slot u).vregs = x.vregs ∧ (t.slot u).rng = x.rng
     ∧ (t.slot u).running = x.running ∧ (t.slot u).fault = x.fault ∧ (t.slot u).fpc = x.fpc
     ∧ (∀ c k, (t.worker c k).mem = (s.worker c k).mem ∧ (t.worker c k).wq = (s.worker c k).wq ∧ (t.worker c k).ports = (s.worker c k).ports)
     ∧ (∀ c k, t.store c k = s.store c k) ∧ (∀ c, t.eng c = s.eng c)
     ∧ (∀ c, (t.area c).mem = (s.area c).mem ∧ (t.area c).ctr = (s.area c).ctr ∧ (t.area c).fg = (s.area c).fg)
     ∧ (∀ c, (t.comb c).mw = (s.comb c).mw ∧ (t.comb c).landing = (s.comb c).landing)
     ∧ (∀ c, c ≠ u.comb → t.comb c = s.comb c)
     ∧ t = { s with combs := t.combs })
  ∧ (∀ (s : State) (u : SlotRef) (code : W16), (s.slot u).lock = none →
         ∃ t, stops s u code = .next t
           ∧ (t.slot u).running = false ∧ (t.slot u).fault = code.setWidth 32 ∧ (t.slot u).fpc = BitVec.ofNat 32 (s.slot u).pc
           ∧ (t.slot u).sregs = (s.slot u).sregs ∧ (t.slot u).vregs = (s.slot u).vregs ∧ (t.slot u).rng = (s.slot u).rng
           ∧ (∀ u', u' ≠ u → t.slot u' = s.slot u')
           ∧ (∀ c k, (t.worker c k).mem = (s.worker c k).mem) ∧ (∀ c, (t.area c).mem = (s.area c).mem ∧ (t.area c).ctr = (s.area c).ctr)
           ∧ (∀ c, t.eng c = s.eng c))

/-- Special registers: reads of `TS`, the random state, `PT_CFG`, `SLOT_FAULTs` and `SLOT_FPCs`; writes of the random state and of a `PT_CFG`
that R153 allows; port and queue pops, which deschedule the slot while nothing is there; everything else faults with 0x4205
(R153, R154, R163, R167, R187). -/
def Obligations.SpecialRegisters : Prop :=
  ∀ (u : SlotRef) (s : State) (w : Nat),
    let x := s.slot u
    let f := fetched s u
    let k := f.worker u.comb u.cell
    let d := wD w
    let i := wIdx w
    (issues .mfs u s w → i = 0x1C → exec (.cMfs u) s = .next (retire s u ((now s u).setPair d s.ts)))
    ∧ (issues .mfs u s w → i = 0x12 → exec (.cMfs u) s = .next (retire s u ((now s u).setPair d x.rng)))
    ∧ (issues .mfs u s w → i = 0x0A → exec (.cMfs u) s = setsS s u d (s.worker u.comb u.cell).ptCfg)
    ∧ (issues .mfs u s w → i = 0x08 → exec (.cMfs u) s = setsS s u d (s.worker u.comb u.cell).wqInfo)
    ∧ (issues .mfs u s w → 0x14 ≤ i → i ≤ 0x17 → exec (.cMfs u) s = setsS s u d (k.slot (i - 0x14)).fault)
    ∧ (issues .mfs u s w → 0x18 ≤ i → i ≤ 0x1B → exec (.cMfs u) s = setsS s u d (k.slot (i - 0x18)).fpc)
    ∧ (issues .mfs u s w → i < 4 → ptNames k.ptCfg.toNat i = false → ∀ v l, k.ports.inQ i = v :: l →
        exec (.cMfs u) s = done s u ((f.setSlot u ((now s u).setPair d v)).popWord u.comb u.cell i))
    ∧ (issues .mfs u s w → i < 4 → ptNames k.ptCfg.toNat i = false → k.ports.inQ i = [] →
        exec (.cMfs u) s = .next (f.deschedule u (.portIn i)))
    ∧ (issues .mfs u s w → i < 4 → ptNames k.ptCfg.toNat i = true → exec (.cMfs u) s = stops s u 0x4201#16)
    ∧ (issues .mfs u s w → i = 9 → ∀ t l, k.wq = t :: l → exec (.cMfs u) s =
        done s u (f.setWorker u.comb u.cell ({ k with wq := popOne k.wq }.setSlot u.slot ((now s u).setS d (lget 0 t.words t.popped)))))
    ∧ (issues .mfs u s w → 0x1D ≤ i → exec (.cMfs u) s = stops s u 0x4205#16)
    ∧ (issues .mts u s w → i = 0x12 → exec (.cMts u) s = .next (retire s u { now s u with rng := x.pair (wA w) }))
    ∧ (issues .mts u s w → i = 0x0A → ptCfgOk (x.s (wA w)).toNat = true →
        exec (.cMts u) s = done s u (f.setWorker u.comb u.cell { k with ptCfg := x.s (wA w) }))
    ∧ (issues .mts u s w → i = 0x0A → ptCfgOk (x.s (wA w)).toNat = false → exec (.cMts u) s = stops s u 0x4202#16)
    ∧ (issues .mts u s w → 4 ≤ i → i < 8 → ptEn k.ptCfg.toNat (i - 4) = false → f.canPut u.comb u.cell (i - 4) = true →
        exec (.cMts u) s = done s u (f.putWord u.comb u.cell (i - 4) (x.pair (wA w))))
    ∧ (issues .mts u s w → 0x13 ≤ i → exec (.cMts u) s = stops s u 0x4205#16)
    ∧ (issues .vpop u s w → ∀ t l, k.wq = t :: l → exec (.cVpop u) s =
        done s u (f.setWorker u.comb u.cell ({ k with wq := l }.setSlot u.slot ((now s u).setVec d (t.words.drop t.popped)))))
    ∧ (issues .vpop u s w → k.wq = [] → exec (.cVpop u) s = .next (f.deschedule u .queue))

/-- Fences, locks, spawning and the slot's end (R173, R188, R190 to R193, R245, R249): a release holds later accesses while earlier ones are
out, an acquire empties the read buffer; `LOCK` records registers, random state and address; `UNLOCK` writes the lock buffer to local memory;
`SPAWN` starts an idle slot with zeroed registers, and faults with 0x4208 for a busy one; `END` stops the slot with no fault. -/
def Obligations.FencesLocksSlots : Prop :=
  ∀ (u : SlotRef) (s : State) (w : Nat),
    let x := now s u
    let f := fetched s u
    let k := f.worker u.comb u.cell
    let t := ((s.slot u).s (wA w)).toNat % 4
    let pc := ((s.slot u).s (wB w)).toNat
    (issues .fenceR u s w → exec (.cFenceRelease u) s = .next (retire s u { x with held := !x.outst.isEmpty }))
    ∧ (issues .fenceA u s w → exec (.cFenceAcquire u) s = .next (retire s u x.acquire) ∧ x.acquire.rb = [])
    ∧ (issues .fenceRA u s w → exec (.cFenceReleaseAcquire u) s = .next (retire s u { x.acquire with held := !x.outst.isEmpty }))
    ∧ (issues .lock u s w → exec (.cLock u) s =
        .next (retire s u { x with lock := some { sregs := x.sregs, vregs := x.vregs, rng := x.rng, pc := x.pc } }))
    ∧ (issues .unlock u s w → ∀ l, x.lock = some l → exec (.cUnlock u) s = done s u (f.setWorker u.comb u.cell
        ({ k with mem := l.buf.foldl (fun (m : Tbl Byte) (e : Nat × Byte) => tset 0 m e.1 e.2) k.mem }.setSlot u.slot { x with lock := none })))
    ∧ (issues .spawn u s w → pc % 4 = 0 → pc ≤ 0x3FFF → t ≠ u.slot → (k.slot t).running = false → (k.slot t).frozen = false →
        (k.slot t).wait = .ready → exec (.cSpawn u) s = done s u (f.setSlot ⟨u.comb, u.cell, t⟩
          { running := true, pc := pc, outst := (k.slot t).outst, halted := (k.slot t).halted }))
    ∧ (issues .spawn u s w → pc % 4 = 0 → pc ≤ 0x3FFF → (t = u.slot ∨ (k.slot t).running = true ∨ (k.slot t).frozen = true ∨
        (k.slot t).wait ≠ .ready) → exec (.cSpawn u) s = stops s u 0x4208#16)
    ∧ (issues .spawn u s w → ¬(pc % 4 = 0 ∧ pc ≤ 0x3FFF) → exec (.cSpawn u) s = stops s u 0x3006#16)
    ∧ (issues .endSlot u s w → exec (.cEnd u) s =
        .next ((f.setSlot u { x with running := false, pc := (s.slot u).pc + 4 }).issued u))

/-- Global loads and stores of a slot that no release holds (R29, R176, R189, R215, R249): a translation that fails stops the slot with its
code; a load from the own Comb's memory gives the bytes there, and fills the read buffer with its line; a counter of the own Comb is read
whole; a store to the own Comb writes the bytes; one to another Comb leaves as a packet. -/
def Obligations.GlobalLoadsAndStores : Prop :=
  ∀ (u : SlotRef) (s : State) (w : Nat), (s.slot u).held = false →
    let x := now s u
    let f := fetched s u
    let wide := bit w 0
    let n := if wide then 8 else 4
    let cn := f.residentAt u.comb
    let addr := x.pair (wA w)
    let bs := if wide then leBytes 8 (x.pair (wD w)).toNat else leBytes 4 (x.s (wD w)).toNat
    (issues .gld u s w → ∀ e, f.translate cn addr n = .error e → exec (.cGld u) s = stops s u e)
    ∧ (issues .gst u s w → ∀ e, f.translate cn addr n = .error e → exec (.cGst u) s = stops s u e)
    ∧ (issues .gld u s w → f.ownBehind u = false → ∀ t, f.translate cn addr n = .ok t → t.own u.comb = true → t.space = 3 → wide = true →
        exec (.cGld u) s = .next (retire s u (x.setPair (wD w) (BitVec.ofNat 64 ((f.area t.c).counter (t.off / 8))))))
    ∧ (issues .gld u s w → f.ownBehind u = false → ∀ t b f', f.translate cn addr n = .ok t → t.own u.comb = true → t.space = 0 →
        t.off % 64 + n ≤ 64 → x.rb.find? (fun l => l.line = lineKey t) = none → f.performRead cn t.c 0 (t.off / 64 * 64) 64 [] = (.ok b, f') →
        exec (.cGld u) s = done s u (f'.setSlot u
          (((f'.slot u).setLoad (wD w) wide ((b.drop (t.off % 64)).take n)).fill (lineKey t) b)))
    ∧ (issues .gld u s w → f.ownBehind u = false → ∀ t l, f.translate cn addr n = .ok t → t.space = 0 → t.off % 64 + n ≤ 64 →
        x.rb.find? (fun l => l.line = lineKey t) = some l →
        exec (.cGld u) s = .next (retire s u ((x.setLoad (wD w) wide ((l.data.drop (t.off % 64)).take n)).fill (lineKey t) l.data)))
    ∧ (issues .gst u s w → f.ownBehind u = false → ∀ t f', f.translate cn addr n = .ok t → t.own u.comb = true → t.space = 0 →
        f.performWrite cn t.c 0 t.off bs (f.epLow cn) = (f', none) →
        exec (.cGst u) s = done s u (f'.setSlot u ((f'.slot u).storeThrough t bs)))
    ∧ (issues .gst u s w → ∀ t, f.translate cn addr n = .ok t → t.own u.comb = false → t.space = 0 →
        f.canSend (.worker u.comb u.cell u.slot) (f.dstOf t) 0 = true →
        exec (.cGst u) s = done s u (((f.newReq.2.setSlot u (((f.newReq.2.slot u).storeThrough t bs).issue f.newReq.1)).writeIssued cn
          (f.epLow cn)).sendPkt (.worker u.comb u.cell u.slot)
            { dst := f.dstOf t, cls := 0, ptype := 1, ctx := t.ctx, space := 0, off := t.off, payload := bs, epochLo := f.epLow cn, reqId := f.newReq.1 }))
    ∧ (issues .gst u s w → f.ownBehind u = false → ∀ t, f.translate cn addr n = .ok t → t.space = 3 → exec (.cGst u) s = stops s u 0x4403#16)
    ∧ (issues .gld u s w → ∀ t, f.translate cn addr n = .ok t → t.own u.comb = false → t.space = 0 → t.off % 64 + n ≤ 64 →
        x.rb.find? (fun l => l.line = lineKey t) = none → f.canSend (.worker u.comb u.cell u.slot) (f.dstOf t) 0 = true →
        let g := f.newReq.2.setSlot u { f.newReq.2.slot u with pend := (f.newReq.2.slot u).pend ++ [⟨f.newReq.1, wD w, wide, addr, x.pc, true⟩] }
        exec (.cGld u) s = done s u (g.sendPkt (.worker u.comb u.cell u.slot)
          { dst := f.dstOf t, cls := 0, ptype := 4, ctx := t.ctx, space := 0, off := t.off / 64 * 64, len := 64, reqId := f.newReq.1 }))

/-- Messages and sync counters from a Worker slot that no release holds, with no message of its own still in the landing buffer (R262 to R266,
R271, R275): a message for the own Comb enters its landing unit, one for another Comb leaves as a packet; `CADD` passes the amount to the own counter unit,
with `B` in the instruction to the Comb a pair names; `CWAIT`, `CTEST` and `CRD` compare and read the own Comb's counter, unsigned. -/
def Obligations.MessagesAndCounters : Prop :=
  ∀ (u : SlotRef) (s : State) (w : Nat), (s.slot u).held = false →
    let x := now s u
    let f := fetched s u
    let r := f.newReq
    let m : Master := .worker u.comb u.cell u.slot
    let cn := f.residentAt u.comb
    let h := (x.pair (wA w)).toNat
    let n := if bit w 0 then 8 else 4
    let amt := if bit w 0 then (x.pair (wA w)).toNat else (x.s (wA w)).toNat
    let v := (x.pair (wA w)).toNat
    let ctr := (f.area u.comb).counter (wIdx w)
    let msg (rem : Option Nat) (c8 c : Nat) : Pkt :=
      { dst := dstField (rem.getD f.ownModule) c, src := dstField f.ownModule u.comb, master := masterField m, cls := fld h 4 2, ptype := 5, ctx := c8,
        payload := msgBytes h c8 (dstField (rem.getD f.ownModule) c) ((x.vec (wB w)).take (fld h 10 2 + 1)), reqId := r.1 }
    let add (t : Tgt) : Pkt :=
      { dst := f.dstOf t, src := dstField f.ownModule u.comb, master := masterField m, cls := 0, ptype := 6, ctx := t.ctx, space := 3, off := t.off,
        payload := leBytes n amt, reqId := r.1 }
    (issues .wsnd u s w → ∀ e, f.msgTarget cn h = .error e → exec (.cWsnd u) s = stops s u e)
    ∧ (issues .wsnd u s w → ∀ c8, f.msgTarget cn h = .ok (none, c8, u.comb) → (f.comb u.comb).landRoom (fld h 4 2) = true →
        exec (.cWsnd u) s = done s u ((r.2.setSlot u ((r.2.slot u).issue r.1)).landLocal u.comb (fld h 4 2) (msg none c8 u.comb)))
    ∧ (issues .wsnd u s w → ∀ rem c8 c, f.msgTarget cn h = .ok (rem, c8, c) → (rem ≠ none ∨ c ≠ u.comb) →
        f.canSend m (dstField (rem.getD f.ownModule) c) (fld h 4 2) = true →
        exec (.cWsnd u) s = done s u ((r.2.setSlot u ((r.2.slot u).issue r.1)).sendPkt m (msg rem c8 c)))
    ∧ (issues .cadd u s w → f.ownBehind u = false → exec (.cCadd u) s =
        done s u ((r.2.setSlot u ((r.2.slot u).issue r.1)).passAdd u.comb { ctx := cn.getD 16, ix := wIdx w, amt := amt, who := some m, id := r.1 }))
    ∧ (issues .caddRemote u s w → ∀ t, f.translate cn (x.pair (wD w)) n = .ok t → t.space = 3 → t.own u.comb = false →
        f.canSend m (f.dstOf t) 0 = true → exec (.cCaddRemote u) s =
        done s u ((r.2.setSlot u ((r.2.slot u).issue r.1)).sendPkt m (add t)))
    ∧ (issues .caddRemote u s w → ∀ t, f.translate cn (x.pair (wD w)) n = .ok t → t.space = 3 → t.own u.comb = true →
        (f.comb u.comb).landRoom 0 = true → exec (.cCaddRemote u) s =
        done s u ((r.2.setSlot u ((r.2.slot u).issue r.1)).landLocal u.comb 0 (add t)))
    ∧ (issues .caddRemote u s w → ∀ t, f.translate cn (x.pair (wD w)) n = .ok t → t.space ≠ 3 → exec (.cCaddRemote u) s = stops s u 0x4403#16)
    ∧ (issues .cwait u s w → v ≤ ctr → exec (.cCwait u) s = .next (retire s u x))
    ∧ (issues .cwait u s w → ctr < v → exec (.cCwait u) s = .next (f.deschedule u (.counter (wIdx w) (x.pair (wA w)))))
    ∧ (issues .ctest u s w → exec (.cCtest u) s = setsS s u (wD w) (if v ≤ ctr then 1 else 0))
    ∧ (issues .crd u s w → exec (.cCrd u) s = .next (retire s u (x.setPair (wD w) (BitVec.ofNat 64 ctr))))

/-- Store Cell registers over the row bus, from a slot that no release holds (R194): a readable register is read, a write is posted to the
Store Cell, which takes posted writes one at a time in their order; another register or cell faults with 0x4205. Store Cells (R147 to R151, R194 to R197): posted register writes land in order and complete their writer, or stop it; a generator starts the ready head descriptor,
moves elements between SRAM and a port, and stops its slot with 0x3006 outside the SRAM and 0x4203 for a malformed word; `SIGNAL` and `RELEASE`
retire from the queue with their counter additions, `RELEASE` freeing edge slots. -/
def Obligations.StoreCells : Prop :=
  ((∀ (u : SlotRef) (s : State) (w k : Nat), (s.slot u).held = false → srCell u.cell (wIdx w) = some k →
     let x := now s u
     let f := fetched s u
     let r := wIdx w % 32
     let q := f.newReq
     let g := q.2.setSlot u ((q.2.slot u).issue q.1)
     (issues .srr u s w → (srAccess k r).1 = true → exec (.cSrr u) s = setsS s u (wD w) ((f.store u.comb k).readReg r))
     ∧ (issues .srr u s w → (srAccess k r).1 = false → exec (.cSrr u) s = stops s u 0x4205#16)
     ∧ (issues .srw u s w → (srAccess k r).2 = true → exec (.cSrw u) s = done s u (g.setStore u.comb k
         { g.store u.comb k with regQ := (g.store u.comb k).regQ ++ [(r, x.s (wA w), u.cell * 4 + u.slot, q.1, x.pc)] }))
     ∧ (issues .srw u s w → (srAccess k r).2 = false → exec (.cSrw u) s = stops s u 0x4205#16))
   ∧ (∀ (u : SlotRef) (s : State) (w : Nat), (s.slot u).held = false → srCell u.cell (wIdx w) = none →
       (issues .srr u s w → exec (.cSrr u) s = stops s u 0x4205#16) ∧ (issues .srw u s w → exec (.cSrw u) s = stops s u 0x4205#16)))
  ∧ (∀ (c k g : Nat) (s : State), isStoreCell c k = true →
         let t := s.store c k
         (∀ r v who id pc rest t', t.regQ = (r, v, who, id, pc) :: rest → { t with regQ := rest }.write r v = (t', none, none) →
             exec (.storeCellRegWriteArrival c k) s = .next ((s.setStore c k t').completeOk (.worker c (who / 4) (who % 4)) id))
         ∧ (∀ r v who id pc rest t' code st, t.regQ = (r, v, who, id, pc) :: rest → { t with regQ := rest }.write r v = (t', some code, st) →
             exec (.storeCellRegWriteArrival c k) s = .next ((s.setStore c k t').accessFault ⟨c, who / 4, who % 4⟩ id pc code))
         ∧ (g < 2 → s.ctxRuns c = true → s.dead c = false → ∀ i ws l, (s.area c).genTurn k g = some i → (t.slot i).q = .desc ws :: l →
             let t1 := t.setGen g { t.gen g with slot := some i, pos := 0, last := i }
             (gBad (wnum ws) = false → exec (.genDescStart c k g) s = .next (s.setStore c k t1))
             ∧ (gBad (wnum ws) = true → exec (.genDescStart c k g) s = .next ((s.setStore c k t1).storeStop c k i 0x4203#16 true)))
         ∧ (g < 2 → s.ctxRuns c = true → s.dead c = false → (t.gen g).halted = false → ∀ i ws l, (t.gen g).slot = some i → (t.slot i).q = .desc ws :: l →
             let d := wnum ws
             let a := gAddr d (t.gen g).pos
             ((a < 0 ∨ 0x2FFFF < a ∨ a % (gSize d : Int) ≠ 0) → exec (.genElementMove c k g) s = .next (s.storeStop c k i 0x3006#16 true))
             ∧ (0 ≤ a → a ≤ 0x2FFFF → a % (gSize d : Int) = 0 → gIn d = false → ptEn t.ptCfg.toNat (gPort d) = false → s.canPut c k (gPort d) = true →
                 exec (.genElementMove c k g) s =
                   .next ((s.putWord c k (gPort d) (BitVec.ofNat 64 (leNat (cellsRead t.mem a.toNat (gSize d))))).genMoved c k g i d))
             ∧ (∀ v q, 0 ≤ a → a ≤ 0x2FFFF → a % (gSize d : Int) = 0 → gIn d = true → ptNames t.ptCfg.toNat (gPort d) = false → t.ports.inQ (gPort d) = v :: q →
                 let s1 := s.popWord c k (gPort d)
                 exec (.genElementMove c k g) s = .next ((s1.setStore c k { s1.store c k with
                   mem := cellsWrite (s1.store c k).mem a.toNat (leBytes (gSize d) v.toNat) }).genMoved c k g i d)))
         ∧ (∀ i ws l, i < 4 → s.ctxRuns c = true → s.dead c = false → (List.range 2).find? (fun g => (s.area c).genTurn k g = some i) = some g →
             (t.slot i).q = .ctw ws :: l → ctwBad k (wnum ws) = false →
             let d := wnum ws
             let t1 := (t.setSlot i { t.slot i with q := l }).setGen g { t.gen g with last := i }
             (fld d 0 4 = 0 → exec (.ctwSignal c k i) s = .next ((s.setStore c k t1).passAdd c
                 { ctx := (s.residentAt c).getD 16, ix := fld d 20 12, amt := fld d 32 16, who := some (.worker c k i) }))
             ∧ (fld d 0 4 = 1 → bit d 5 = false →
                 exec (.ctwRelease c k i) s = .next (s.setStore c k { t1 with edgeRd := t1.edgeRd + BitVec.ofNat 32 (fld d 32 16) }))
             ∧ (fld d 0 4 = 1 → bit d 5 = true →
                 exec (.ctwRelease c k i) s = .next ((s.setStore c k { t1 with edgeRd := t1.edgeRd + BitVec.ofNat 32 (fld d 32 16) }).passAdd c
                   { ctx := (s.residentAt c).getD 16, ix := fld d 20 12, amt := 1, who := some (.worker c k i) }))))

/-! Links, Store Cells and edge ports -/

/-- Words and credits on the links between cells, and the pass-through (R152, R153): a word in transit joins its inbound queue; a credit in transit returns to
the sender; the head word of an inbound queue goes out on every direction whose enabled byte names it, once each can take a word. -/
def Obligations.CellLinksMoveWords : Prop :=
  ∀ (c k d : Nat) (s : State), isCell c k = true → d < 4 →
    let p := s.portsOf c k
    let cfg := (s.area c).ptCfgOf k
    let outs := (List.range 4).filter (fun e => ptEn cfg e && ptSrc cfg e = d)
    (∀ v l, tget [] p.wire d = v :: l → exec (.linkWordArrival c k d) s =
        .next (s.setPortsOf c k { p with wire := tset [] p.wire d l, inq := tset [] p.inq d (p.inQ d ++ [v]) }))
    ∧ (tget [] p.wire d = [] → exec (.linkWordArrival c k d) s = .next s)
    ∧ (0 < tget 0 p.back d → exec (.linkCreditReturn c k d) s =
        .next (s.setPortsOf c k { p with back := tset 0 p.back d (tget 0 p.back d - 1), used := tset 0 p.used d (tget 0 p.used d - 1) }))
    ∧ (tget 0 p.back d = 0 → exec (.linkCreditReturn c k d) s = .next s)
    ∧ (∀ v l, p.inQ d = v :: l → outs ≠ [] → outs.all (s.canPut c k) = true →
        exec (.passThroughForward c k d) s = .next (outs.foldl (fun t e => t.putWord c k e v) (s.popWord c k d)))
    ∧ (∀ e, e ∈ outs → s.canPut c k e = false → exec (.passThroughForward c k d) s = .next s)

/-- A descheduled slot returns when its condition holds and not before (R163, R164): a counter at its value; a word in the inbound queue that it alone waits
for. An access that ends in an error stops the Worker slot that waits for it with the code and the access's own address (R189). -/
def Obligations.SlotsWakeAndLinesExpire : Prop :=
  (∀ (u : SlotRef) (s : State) (i : Nat) (v : W64), isSlot u = true → (s.slot u).wait = .counter i v →
      (v.toNat ≤ (s.area u.comb).counter i →
        exec (.slotWake u) s = .next (s.setSlot u { s.slot u with wait := .ready, woke := .counter i v }))
      ∧ ((s.area u.comb).counter i < v.toNat → exec (.slotWake u) s = .next s))
  ∧ (∀ (u : SlotRef) (s : State) (d : Nat), isSlot u = true → (s.slot u).wait = .portIn d →
      (∀ i, i < 4 → i ≠ u.slot → ((s.worker u.comb u.cell).slot i).wait ≠ .portIn d ∧ ((s.worker u.comb u.cell).slot i).woke ≠ .portIn d) →
      ((s.portsOf u.comb u.cell).inQ d ≠ [] →
        exec (.slotWake u) s = .next (s.setSlot u { s.slot u with wait := .ready, woke := .portIn d }))
      ∧ ((s.portsOf u.comb u.cell).inQ d = [] → exec (.slotWake u) s = .next s))
  ∧ (∀ (u : SlotRef) (s : State), isSlot u = true → (s.slot u).wait = .ready → exec (.slotWake u) s = .next s)
  ∧ (∀ (u : SlotRef) (way : Nat) (s : State), isSlot u = true → way < 2 →
      exec (.readBufferExpire u way) s = .next (s.setSlot u { s.slot u with rb := ldel (s.slot u).rb way }))

/-- Edge rings and Scheduled Links (R157 to R159, R309, R400): the waiting segment is written into the ring's next slot, values from its start, trailer and header
behind them, and `EDGE_WR` counts it; a segment from a neighbour Comb takes the edge port of its group in the turn that the first segment of a
Clause begins, and leaves the link. -/
def Obligations.EdgeRingsAndScheduledLinks : Prop :=
  (∀ (c k : Nat) (s : State) (g : Seg) (l : List Seg), isEdgePort c k = true →
    let t := s.store c k
    t.edgeQ = g :: l → t.ringRoom = true → g.form = 0 → crc32c g.body = g.crc →
    let at0 := t.edgeBase.toNat + 1152 * (t.edgeWr.toNat % t.edgeSlots.toNat)
    exec (.edgeSlotWrite c k) s = .next (s.setStore c k { t with
      mem := cellsWrite (cellsWrite (cellsWrite t.mem at0 (bytes32 g.vals)) (at0 + 1072) (bytes32 g.trailer)) (at0 + 1088) (leBytes 8 g.header)
      edgeWr := t.edgeWr + 1, edgeQ := l }))
  ∧ (∀ (c k : Nat) (s : State), isEdgePort c k = true → (s.store c k).edgeQ = [] → exec (.edgeSlotWrite c k) s = .next s)
  ∧ (∀ (c d c' n : Nat) (s : State) (g : Seg) (a : Area), isComb c = true → d < 4 → slNeighbour c d = some c' → s.residentAt c = some n →
    let d' := if d % 2 = 0 then d + 1 else d - 1
    tget none (s.area c').slOut d' = some g →
    let i := if g.first then 0 else tget 0 (s.area c).slK d
    (s.area c).toEdge (s.slRx n d) i { g with src := d + 1 } = some a →
    exec (.slSegmentArrival c d) s = .next ((s.setArea c { a with slK := tset 0 a.slK d (i + 1) }).setArea c'
      { s.area c' with slOut := tdel (s.area c').slOut d' }))

/-! The Matrix Engine -/

/-- The Engine's control port, written by the resident context (R69, R70, R72, R76, R116): a doorbell within the ring moves `CQ_TAILs`, one beyond it is discarded
with 0x4105; a close is kept once and discarded with 0x4103 when its group has consumed more or is closed; `SKIP` retires the stopped Clause, `RETRY` of a
Clause that never started runs it afresh; other registers take the values R72 allows and discard the rest with 0x4104. The Keeper writes `PAIR_CTL` of both Engines of a pair, bit 0 alone (R7, R72, R80); the occupancy of the gather port goes to the word `GQ_PUB_ADDR` names when
enabled, and nowhere otherwise (R71). -/
def Obligations.EnginePortsAndPairs : Prop :=
  (∀ (c sl : Nat) (s : State), isComb c = true → sl < 4 →
     let n := s.residentAt c
     let a := s.areaAt n c
     let e := a.eng
     let keeps (e' : Engine) : Res := .next (s.setAreaAt n c { a with eng := e' })
     let discards (code : W16) (g : Nat) : Res :=
       .next ((s.setAreaAt n c { a with eng := { e with gqFault := BitVec.ofNat 32 (code.toNat + g * 65536), lastFault := code } }).event n code c (masterField (.engine c 0)) 0)
     let h := tget 0 e.cqHead sl
     (∀ v : W32, (v - h).toNat ≤ (tget 0 e.cqSize sl).toNat → (tget 0 e.cqTail sl - h).toNat ≤ (v - h).toNat →
         exec (.cqTailDoorbell c sl v) s = keeps { e with cqTail := tset 0 e.cqTail sl v })
     ∧ (∀ v : W32, (tget 0 e.cqSize sl).toNat < (v - h).toNat → exec (.cqTailDoorbell c sl v) s = discards 0x4105#16 0)
     ∧ (∀ st, (tget {} e.runs sl).phase = .stopped st → clOpcode (wnum (tget {} e.runs sl).cl) ≠ 3 → ∃ e',
         exec (.slotCtlSkip c sl) s = keeps e' ∧ e'.runs = tdel e.runs sl ∧ e'.cqHead = tset 0 e.cqHead sl (h + 1) ∧ e'.cqTail = e.cqTail ∧ e'.gq = e.gq)
     ∧ ((∀ st, (tget {} e.runs sl).phase ≠ .stopped st) → exec (.slotCtlSkip c sl) s = keeps e ∧ exec (.slotCtlRetry c sl) s = keeps e)
     ∧ ((tget {} e.runs sl).phase = .stopped 1 → exec (.slotCtlRetry c sl) s = keeps { e with runs := tdel e.runs sl })
     ∧ (∀ w0 w1 : W32, w0.toNat < 1024 → w1.toNat < 2 ^ 24 → tget none e.closes w0.toNat = none → tget 0 e.consumed w0.toNat ≤ w1.toNat →
         exec (.gqClose c w0 w1) s = keeps { e with closes := tput e.closes w0.toNat (some w1.toNat) })
     ∧ (∀ (w0 w1 : W32) (m : Nat), w0.toNat < 1024 → w1.toNat < 2 ^ 24 → tget none e.closes w0.toNat = some m →
         exec (.gqClose c w0 w1) s = discards 0x4103#16 w0.toNat)
     ∧ (∀ v : W32, xbiasOk v.toNat = true → exec (.registerWrite c (16 + sl) [v]) s = keeps { e with xbias := tset 0 e.xbias sl v })
     ∧ (∀ v : W32, xbiasOk v.toNat = false → exec (.registerWrite c (16 + sl) [v]) s = discards 0x4104#16 0)
     ∧ (∀ v : W32, gqPubOk v.toNat = true → exec (.registerWrite c 0x22 [v]) s = keeps { e with gqPub := v })
     ∧ (∀ (i : Nat) (ws : List W32), 0x23 ≤ i → exec (.registerWrite c i ws) s = discards 0x4104#16 0))
  ∧ (∀ (c : Nat) (s : State), isComb c = true →
         (∀ v : W32, partnerOf c ≠ c → Gives (.pairCtlWrite c v) s (fun t => (t.eng c).pairCtl = v &&& 1 ∧ (t.eng (partnerOf c)).pairCtl = v &&& 1
             ∧ (∀ c', c' ≠ c → c' ≠ partnerOf c → t.comb c' = s.comb c') ∧ (t.eng c).runs = (s.eng c).runs ∧ (t.area c).mem = (s.area c).mem))
         ∧ (bit (s.eng c).gqPub.toNat 31 = false → exec (.gqOccPublish c) s = .next s)
         ∧ (bit (s.eng c).gqPub.toNat 31 = true → ∀ t, s.performWrite (s.residentAt c) c 0 (fld (s.eng c).gqPub.toNat 0 26)
               (leBytes 4 (s.eng c).gq.length) (s.epLow (s.residentAt c)) = (t, none) → exec (.gqOccPublish c) s = .next t))

/-- How a Clause starts and its tiles proceed (R59, R60, R63, R77, R98, R99, R102, R111, R114): the slot next in turn starts when the Engine is free; a swap makes the shadow
tile the active weights; a K segment waits for its counter; each step acts on the Clause that runs and on no other Comb's Engine. -/
def Obligations.ClausesRunByTiles : Prop :=
  ∀ (c sl : Nat) (s : State), isComb c = true → sl < 4 →
    let e := s.eng c
    let r := e.run sl
    let ge := r.geo e.pairEn
    let m := (s.area c).mem
    let g := if clOpcode r.v ≥ 2 then r.group else 0
    let nd := r.need m ge
    (e.active = none → e.halted = false → (∀ i, i < 4 → tget false e.frozen i = false) → s.dead c = false → s.engGated c = false → s.ctxRuns c = true →
        (s.area c).turn = some sl → exec (.clauseStart c sl) s = .next (s.clauseBegin c sl))
    ∧ ((s.area c).turn ≠ some sl → exec (.clauseStart c sl) s = .next s)
    ∧ (∀ i, e.active = some i → exec (.clauseStart c sl) s = .next s)
    ∧ (s.engOn c = true → e.active = some sl → r.phase = .nextTile → e.mustDrain r = false → (r.settled m ge).unitOpen = false →
        e.nextUnit (r.settled m ge) m ge = .done → exec (.tileStart c) s = .next (s.setEng c (e.setRun sl { r.settled m ge with phase := .ending })))
    ∧ (s.engOn c = true → e.active = some sl → r.phase = .stream → tileIs e.weights g r.nt nd.1 nd.2 = false → tileIs e.shadow g r.nt nd.1 nd.2 = false →
        mSparse r.db = 0 → ∀ s1, s.wideRead c sl (r.tileRanges ge (if nd.2 then r.dblo else r.db) r.nt nd.1) = (none, s1) →
        exec (.shadowLoadDone c) s = .next (s1.setEng c { s1.eng c with
          shadow := some ⟨g, r.nt, nd.1, nd.2, tileElems (s1.area c).mem r.v (if nd.2 then r.dblo else r.db) r.sh ge r.nt nd.1⟩ }))
    ∧ (s.engOn c = true → e.active = some sl → r.phase = .stream → r.pos = 0 → tileIs e.weights g r.nt nd.1 nd.2 = false →
        tileIs e.shadow g r.nt nd.1 nd.2 = true →
        exec (.weightSwap c) s = .next ((s.setEng c { e with weights := e.shadow, shadow := e.weights }).activation c))
    ∧ (s.engOn c = true → e.active = some sl → ∀ w, e.weights = some w → r.phase = .stream → tileIs e.weights g r.nt nd.1 nd.2 = true →
        exec (.activationRead c) s = .next (s.actRead c sl w.elems))
    ∧ (s.engOn c = true → e.active = some sl → r.phase = .kWait → clWaitEn r.v = true →
        (clWaitVal r.v + r.kseg ≤ (s.area c).counter (clWaitCtr r.v) →
          exec (.kmnSegmentStart c) s = .next (s.setEng c (e.setRun sl { r with phase := .nextTile })))
        ∧ ((s.area c).counter (clWaitCtr r.v) < clWaitVal r.v + r.kseg → exec (.kmnSegmentStart c) s = .next s))
    ∧ (s.engOn c = true → e.active = some sl → r.phase = .drain → e.outQ = [] → r.nseg ge ≤ r.kseg + 1 →
        exec (.bankDrainStart c) s = .next (s.setEng c { ({ e with acc := e.acc.filter (fun x => x.1 / (256 * 2048) != r.bank) }.setRun sl
            { r with phase := .nextTile, tiles := r.tiles + 1, segCount := (tileSegs e r ge (r.positions m ge r.mt)).length, skipSegs := 0 }) with
          outQ := (tileSegs e r ge (r.positions m ge r.mt)).drop r.skipSegs, pairCrc := [] }))
    ∧ (s.engOn c = false → exec (.tileStart c) s = .next s ∧ exec (.shadowLoadDone c) s = .next s ∧ exec (.weightSwap c) s = .next s
        ∧ exec (.activationRead c) s = .next s ∧ exec (.kmnSegmentStart c) s = .next s ∧ exec (.bankDrainStart c) s = .next s)

/-- How output leaves and a Clause ends (R69, R74, R75, R82, R87, R103, R108, R170, R308, R401, R414, R416): a segment goes to a Scheduled Link that is free, and faults with 0xB009 where the Comb there has failed; the partner's check value is kept
for the segment it checks, and one that differs stops the Clause with 0xB005; a finished `CL_NOP` retires from its ring and adds to its counter; a full gather port makes its
fullest group ready; a watchdog or a failure puts the Engine in Fallback, where the firmware takes the next step. -/
def Obligations.ClausesEmitAndEnd : Prop :=
  ∀ (c sl : Nat) (s : State), isComb c = true →
    let e := s.eng c
    let r := e.run sl
    (∀ g l c', e.active = some sl → s.dead c = false → s.engGated c = false → s.pairedIn c = false → e.outQ = g :: l → clRoute r.v = 2 →
        slNeighbour c (clRouteArg r.v % 4) = some c' → s.linkCut c' = false → tget none (s.area c).slOut (clRouteArg r.v % 4) = none →
        Gives (.outputSegmentEmit c) s (fun t =>
          tget none (t.area c).slOut (clRouteArg r.v % 4) = some { g with first := decide (r.emitted = 0) } ∧ (t.eng c).outQ = l
          ∧ ((t.eng c).run sl).emitted = r.emitted + 1 ∧ (t.area c).mem = (s.area c).mem))
    ∧ (∀ g l c', e.active = some sl → s.dead c = false → s.engGated c = false → s.pairedIn c = false → e.outQ = g :: l → clRoute r.v = 2 →
        slNeighbour c (clRouteArg r.v % 4) = some c' → s.linkCut c' = true → exec (.outputSegmentEmit c) s = .next (s.segFault c sl 0xB009#16 g))
    ∧ (∀ g l crc, s.pairedIn c = true → e.active = some sl → e.outQ = g :: l → e.pairCrc = [] → g.crc = crc →
        exec (.pairCheckArrival c crc) s = .next (s.setEng c { e with pairCrc := [crc] }))
    ∧ (∀ g l crc, s.pairedIn c = true → e.active = some sl → e.outQ = g :: l → e.pairCrc = [] → g.crc ≠ crc →
        exec (.pairCheckArrival c crc) s = .next (s.pairMismatch c sl g))
    ∧ (s.dead c = false → s.engGated c = false → e.active = some sl → e.outQ = [] → r.phase = .ending → clOpcode r.v = 0 → clDoneEn r.v = false → clCrecEn r.v = false →
        Gives (.clauseComplete c) s (fun t => (t.eng c).active = none ∧ (t.eng c).cqHead = tset 0 e.cqHead sl (tget 0 e.cqHead sl + 1)
          ∧ (t.eng c).lastServed = sl ∧ (t.eng c).runs = tdel e.runs sl ∧ (t.eng c).cqTail = e.cqTail ∧ (t.area c).mem = (s.area c).mem))
    ∧ (∀ g, e.active = some sl → clOpcode r.v = 3 → r.phase = .nextTile → r.unitOpen = false → r.forced = none → e.fullStuck r.v = true →
        e.fullest r.v = some g → exec (.gatherFullResolve c) s = .next (s.setEng c (e.setRun sl { r with forced := some g })))
    ∧ (e.fallback = false → Gives (.engineFallbackEntry c) s (fun t => (t.eng c).fallback = true ∧ (t.comb c).engDead = true ∧ (t.eng c).weights = none
          ∧ (t.eng c).shadow = none ∧ (t.eng c).cqHead = e.cqHead ∧ (t.area c).mem = (s.area c).mem ∧ t.events = s.events))
    ∧ (e.fallback = true → exec (.engineFallbackEntry c) s = .next s)
    ∧ (e.busy = true → e.fallback = false → Gives (.engineWatchdogExpire c) s (fun t => (t.eng c).fallback = true))
    ∧ (e.busy = false → exec (.engineWatchdogExpire c) s = .next s)
    ∧ (∀ k, isWorkerCell c k = true → e.fallback = true → e.steps = true → s.dead c = false → (s.worker c k).ctxReady = false → (s.worker c k).svcHalt = false →
        s.engStays c = true → exec (.fallbackIssue c k) s = .next ((s.setArea c ((s.area c).count 0 (k * 5 + 4) 1 1)).fallbackStep c))
    ∧ (∀ k, isWorkerCell c k = true → (s.worker c k).ctxReady = true → exec (.fallbackIssue c k) s = .next s)

/-! Protection, tokens, debug grants -/

/-- Freezing and release (R375 to R377, R381): a violation freezes its master, enters it in the lowest free entry of its context's table, or of the operator's, and posts
the event; a master already frozen is left as it is; so does a freeze request from another module. `OP_FRZ_RELEASE` of an entry disables the frozen host function's
ring, empties the entry and posts the event again; an entry not in use is refused with 0x8008, a number outside 1 to 16 with 0xC00D. -/
def Obligations.FreezesAndReleases : Prop :=
  (∀ (m : Master) (code : W16) (addr : W64) (s : State), isMaster m = true → (code = 0x8001#16 ∨ code = 0x8002#16) →
      m ≠ .keeper → (∀ c, m ≠ .service c) →
      let n := s.masterCtx m
      let c := s.offence m code addr
      let table (t : State) : Tbl Frz := match n with | some n => (t.ctx n).frz | none => t.opFrz
      (s.isFrozen n m = false → Gives (.slotFreeze m code addr) s (fun t => t.isFrozen n m = true
          ∧ t.events = s.events ++ [⟨n, code, if c < 480 then c else 0, masterField m, 0, s.faultEpoch n⟩]
          ∧ ∀ i, 1 ≤ i → i ≤ 16 → (tget {} (table s) i).st = 0 → (∀ j, 1 ≤ j → j < i → (tget {} (table s) j).st ≠ 0) →
              tget {} (table t) i = ⟨code, some m, 1, c, s.faultEpoch n, s.ts, addr⟩))
      ∧ (s.isFrozen n m = true → Gives (.slotFreeze m code addr) s (fun t => t.combs = s.combs ∧ t.ctxs = s.ctxs ∧ t.rings = s.rings
          ∧ t.opFrz = s.opFrz ∧ t.events = s.events))
      ∧ (∀ src, exec (.freezeRequest src m code) s = .next ((s.freeze m code 0).sendPkt .keeper
          { dst := src * 1024 + 1023, ptype := 10, clitics := [[BitVec.ofNat 64 (2 * 2 ^ 32)]], clWords := 1, clNext := 4 })))
  ∧ (∀ (p : Path) (v : W64) (s : State), isPath p = true → writable p 0x2830 18 v s →
      let i := v.toNat
      ((i = 0 ∨ 16 < i) → exec (.opFrzRelease p v) s = refuses p 0x2830 18 badValue s)
      ∧ (1 ≤ i → i ≤ 16 → (tget {} s.opFrz i).st = 0 → exec (.opFrzRelease p v) s = refuses p 0x2830 18 (ownCode 0x8008#16) s)
      ∧ (∀ f, 1 ≤ i → i ≤ 16 → (tget {} s.opFrz i).st ≠ 0 → (tget {} s.opFrz i).master = some (.host f) →
          Gives (.opFrzRelease p v) s (fun t => t.ring f = (s.ring f).disabled ∧ t.opFrz = tdel s.opFrz i
            ∧ (∃ c, t.events = s.events ++ [⟨none, (tget {} s.opFrz i).code, c, masterField (.host f), BitVec.ofNat 64 i, 0⟩])
            ∧ t.combs = s.combs ∧ t.ctxs = s.ctxs)))

/-- An access that ends in an error (R189, R297, R349): the slot that waits for it stops with the code and the access's instruction as its address, and posts the
event; a Forager's command keeps the failing unit; the host command that waits for it takes status 2 and the code. -/
def Obligations.AccessesEndInErrors : Prop :=
  ∀ (s : State) (id : Nat) (code : W16),
    (∀ u : SlotRef, isSlot u = true → (s.slot u).outst.contains id = true → Gives (.errorCompletion (.worker u.comb u.cell u.slot) id code) s (fun t =>
        (t.slot u).running = false ∧ (t.slot u).fault = code.setWidth 32 ∧ (t.slot u).fpc = BitVec.ofNat 32 (tget 0 (s.slot u).outPc id)
        ∧ (t.slot u).outst = (s.slot u).outst.filter (· != id)
        ∧ t.events = s.events ++ [⟨s.residentAt u.comb, code, u.comb, masterField (.worker u.comb u.cell u.slot), 0, s.faultEpoch (s.residentAt u.comb)⟩]))
    ∧ (∀ c f k, isComb c = true → f < 4 → (s.area c).waitsFor (.forager c f) id = true → (s.forager c f).slotOf id = some k →
        (tget {} (s.forager c f).slots k).fault = none → (tget {} (s.forager c f).slots k).units = [] →
        let m := tget {} (s.forager c f).slots k
        exec (.errorCompletion (.forager c f) id code) s = .next (s.setForager c f { s.forager c f with
          slots := tput (s.forager c f).slots k { m with fault := some (code, m.unitIx, 0), outst := m.outst.filter (· != id) } }))
    ∧ (∀ f, isHostFn f = true → Gives (.errorCompletion (.host f) id code) s (fun t => t.combs = s.combs
        ∧ (t.ring f).cmds.map (fun h => (h.words, h.outst)) = (s.ring f).cmds.map (fun h => (h.words, h.outst.filter (· != id)))
        ∧ ∀ (k : Nat) (h : HCmd), (s.ring f).cmds[k]? = some h → h.outst.contains id = true → h.status = none → ∃ g : HCmd, (t.ring f).cmds[k]? = some g ∧ g.status = some (2, code)))

/-- Tenant keys, challenges and reports (R370, R378): a tenant's key is taken once, if it is a point of the curve, else refused with 0x8007; a challenge is 32
fresh bytes, voids the one before and lapses; a nonce of 32 bytes gives the context's report, signed, another length is refused. -/
def Obligations.KeysChallengesReports : Prop :=
  ∀ (n : Nat) (s : State), isCtx n = true →
    let p := Path.tenant n
    let x := s.ctx n
    (∀ key : List Byte, domWritable p 0x2801 (n + 1) s → key.length = 97 → exec (.tenantKeyWrite n key) s =
        (if x.tkey = [] ∧ Config.onCurve key = true then accepts p 0x2801 (n + 1) (s.setCtx n { x with tkey := key })
         else refuses p 0x2801 (n + 1) (ownCode 0x8007#16) s))
    ∧ (∀ key : List Byte, domWritable p 0x2801 (n + 1) s → key.length ≠ 97 → exec (.tenantKeyWrite n key) s = refuses p 0x2801 (n + 1) badLength s)
    ∧ (readable p 0x2802 (n + 1) s →
        let b := (List.range 32).map (Config.randomByte s.fresh)
        exec (.challengeRead n) s = .next ((State.setCtx { s with fresh := s.fresh + 1 } n { x with chal := some b }).out (.answerBytes p 0x2802 (n + 1) 0 b)))
    ∧ exec (.challengeLapse n) s = .next (s.setCtx n { x with chal := none })
    ∧ exec (.challengeLapse 16) s = .next { s with dbgChal := none }
    ∧ (∀ b : List Byte, domWritable p 0x2804 (n + 1) s → b.length = 32 →
        exec (.ctxNonceWrite n b) s = accepts p 0x2804 (n + 1) (s.setCtx n { x with report := s.reportOf n b }))
    ∧ (∀ b : List Byte, domWritable p 0x2804 (n + 1) s → b.length ≠ 32 → exec (.ctxNonceWrite n b) s = refuses p 0x2804 (n + 1) badLength s)

/-- Tokens and inspection (R378 to R381, R383, R388): a token of 144 bytes whose fields, challenge and signature pass has its action's effect, one that does not is refused
with 0x8005, and the challenge is used up either way; an entry that is not in the state the action needs is refused with 0x8008; the data of an
open entry are 256 bytes of the region that `FRZ_SEL` names. -/
def Obligations.TokensAndInspection : Prop :=
  ∀ (n : Nat) (tok : List Byte) (s : State), isCtx n = true → domWritable (.tenant n) 0x2803 (n + 1) s → tok.length = 144 →
    let p := Path.tenant n
    let x := s.ctx n
    let s1 := s.setCtx n { x with chal := none }
    let e := (lget 0 tok 2).toNat
    let passes : Bool := tokenFields n tok && !x.tkey.isEmpty && decide (x.chal = some ((tok.drop 16).take 32))
      && Config.verifyP384 x.tkey (Config.sha384 (tok.take 48)) (tok.drop 48)
    let gate (r : Res) : Res := if passes then r else refuses p 0x2803 (n + 1) (ownCode 0x8005#16) s1
    let ok (t : State) : Res := accepts p 0x2803 (n + 1) t
    (lget 0 tok 0 = 1 → exec (.tokenOpenEntry n tok) s = gate (if (tget {} x.frz e).st = 1 then
        ok (s.setCtx n { x with chal := none, frz := tput x.frz e { tget {} x.frz e with st := 2 } }) else refuses p 0x2803 (n + 1) (ownCode 0x8008#16) s1))
    ∧ (lget 0 tok 0 = 2 → exec (.tokenReleaseEntry n tok) s = gate (if (tget {} x.frz e).st = 0 then refuses p 0x2803 (n + 1) (ownCode 0x8008#16) s1
        else ok (s1.releaseEntry (some n) e)))
    ∧ (lget 0 tok 0 = 3 → exec (.tokenReleaseAll n tok) s = gate (ok (s1.releaseAll n)))
    ∧ (lget 0 tok 0 = 4 → exec (.tokenTenantDebugStart n tok) s = gate (if x.resident = true ∧ s.grant = none then
        ok (s.setCtx n { x with chal := none, tdbg := true }) else refuses p 0x2803 (n + 1) badState s1))
    ∧ (lget 0 tok 0 = 5 → exec (.tokenTenantDebugEnd n tok) s = gate (ok (State.resumeHalts (s.setCtx n { x with chal := none, tdbg := false }) p)))
    ∧ (readable p 0x2807 (n + 1) s →
        let v := s.obj 0 0x2806 (n + 1) 0
        let z := tget {} x.frz (v % 16 + 1)
        (∀ c k sl, z.st = 2 → z.master = some (.worker c k sl) → exec (.frzDataRead n) s = .next (s.out (.answerBytes p 0x2807 (n + 1) 0
            (lfit 0 256 (((((s.areaOf n c).worker k).slot sl).region (fld v 4 4)).drop (256 * (v / 256)))))))
        ∧ (z.st ≠ 2 → exec (.frzDataRead n) s = .next ((s.refused p 0x2807 (n + 1) (ownCode 0x8008#16)).out
            (.answerBytes p 0x2807 (n + 1) 0x8008#16 (List.replicate 256 0)))))

/-- Debug grants (R383 to R387, R425): reading the debug challenge draws it; a grant whose checks pass destroys every context before it opens, one that does not
shows 0x8006 and uses the challenge up; once the contexts are gone and every memory is zero, the debug path opens; its end or expiry zeroes every memory
again and resumes what was halted, and the device waits for its firmware. -/
def Obligations.DebugGrants : Prop :=
  ∀ (p : Path) (s : State), isPath p = true →
    (readable p 0x2840 1 s →
        let b := (List.range 32).map (Config.randomByte s.fresh)
        exec (.dbgChallengeRead p) s = .next (State.out { s with fresh := s.fresh + 1, dbgChal := some b } (.answerBytes p 0x2840 1 0 b)))
    ∧ (∀ g : List Byte, domWritable p 0x2840 2 s → s.grant = none → s.dbgEnding = false →
        let q : Grant := ⟨(lget 0 g 0).toNat, leNat ((g.drop 4).take 4), true⟩
        exec (.dbgGrant p g) s = (if grantOk g s.dbgChal then
            accepts p 0x2840 2 ((State.setObj { s with dbgChal := none, grant := some q } 0 0x2840 4 65536).destroyAll 0x8009#16)
          else accepts p 0x2840 2 ((State.setObj { s with dbgChal := none } 0 0x2840 4 0x8006).report ⟨0x8006#16, 2, none, 7, 0, 0, 0, 0, 0⟩)))
    ∧ (∀ g : List Byte, domWritable p 0x2840 2 s → s.dbgEnding = true → exec (.dbgGrant p g) s = refuses p 0x2840 2 badState s)
    ∧ (∀ q, s.grant = some q → q.pending = true → Gives .dbgGrantFillDone s (fun t => t.grant = some { q with pending := false } ∧ t.obj 0 0x2840 4 0 = 0
        ∧ ∀ c, (t.area c).mem = {} ∧ (t.area c).workers = [] ∧ (t.comb c).mw.mem = {}))
    ∧ (∀ q, s.grant = some q → Gives .dbgGrantExpire s (fun t => t.grant = none ∧ t.dbgEnding = true ∧ ∀ c, (t.area c).mem = {} ∧ (t.comb c).mw.mem = {}))
    ∧ (∀ q v, s.grant = some q → writable p 0x2840 3 v s → Gives (.dbgEnd p v) s (fun t => t.grant = none ∧ t.dbgEnding = true
        ∧ ∀ c, (t.area c).mem = {} ∧ (t.comb c).mw.mem = {}))
    ∧ (s.dbgEnding = true → exec (.dbgEndingDone true) s = .next { s with dbgEnding := false }
        ∧ exec (.dbgEndingDone false) s = .next (s.report ⟨0x8006#16, 2, none, 7, 0, 0, 0, 0, 0⟩))
    ∧ (s.grant = none → exec .dbgGrantExpire s = .next s ∧ exec .dbgGrantFillDone s = .next s)

/-! Epochs, messages, counters, memories -/

/-- Step epochs (R257 to R259): the oldest fence is accepted when it names the open epoch, which then counts on; otherwise it ends at once with 0x4301, or with 0x4302 while a failure
stands. It completes once no write of its epoch is outstanding and none has failed, and the committed epoch is then its epoch; a failed one sets `CSTAT` and posts 0x4302.
A rewind sets the open epoch to the committed one plus 1 and clears the failure, and is refused while a master runs or with another value. -/
def Obligations.EpochsCommitAndFail : Prop :=
  ∀ (n : Nat) (s : State), isCtx n = true →
    let x := s.ctx n
    (∀ (f : Fence) (l : List Fence), x.fences = f :: l →
        (f.accepted = false → x.cstat = 0 → f.epoch = x.epOpen →
            exec (.hcCommit n) s = .next (s.setCtx n { x with fences := { f with accepted := true } :: l, epOpen := x.epOpen + 1 }))
        ∧ (f.accepted = false → x.cstat = 0 → f.epoch ≠ x.epOpen →
            exec (.hcCommit n) s = .next ((s.setCtx n { x with fences := l }).fenceEnd f n 1 0x4301#16))
        ∧ (f.accepted = false → x.cstat ≠ 0 → exec (.hcCommit n) s = .next ((s.setCtx n { x with fences := l }).fenceEnd f n 1 0x4302#16))
        ∧ (f.accepted = true → tget 0 x.outst (b2n (f.epoch.getLsbD 0)) = 0 → tget 0 x.failed f.epoch.toNat = 0 →
            Gives (.commitComplete n) s (fun t => (t.ctx n).epDone = f.epoch ∧ (t.ctx n).fences = l ∧ (t.ctx n).epOpen = x.epOpen
              ∧ t.combs = s.combs ∧ t.events = s.events))
        ∧ (tget 0 x.outst (b2n (f.epoch.getLsbD 0)) ≠ 0 → exec (.commitComplete n) s = .next s)
        ∧ (∀ code : W16, f.accepted = true → code ≠ 0 → tget 0 x.failed f.epoch.toNat = code →
            Gives (.commitFail n code) s (fun t => (t.ctx n).epDone = x.epDone ∧ (t.ctx n).fences = l
              ∧ (t.ctx n).cstat = BitVec.ofNat 32 (0x4302 + code.toNat * 65536)
              ∧ t.events = s.events ++ [⟨some n, 0x4302#16, 0, masterField (.host f.fn), BitVec.ofNat 64 code.toNat, x.epDone + 1⟩])))
    ∧ (x.fences = [] → exec (.hcCommit n) s = .next s ∧ exec (.commitComplete n) s = .next s ∧ ∀ code, exec (.commitFail n code) s = .next s)
    ∧ (∀ (p : Path) (v : W64), isPath p = true → writable p 0x2720 (n + 1) v s → x.st ≠ 0 →
        (v = x.epDone + 1 → s.anyRunning n = false → exec (.epochRewind p n v) s =
            accepts p 0x2720 (n + 1) (s.setCtx n { x with epOpen := v, cstat := 0, failed := [] }))
        ∧ (v ≠ x.epDone + 1 → exec (.epochRewind p n v) s = refuses p 0x2720 (n + 1) badValue s)
        ∧ (v = x.epDone + 1 → s.anyRunning n = true → exec (.epochRewind p n v) s = refuses p 0x2720 (n + 1) badState s))

/-- Delivery and counters (R264, R267 to R269, R271 to R273, R276): the first message of a class that can leave goes to its endpoint, a Worker queue taking it behind those it holds, or to the
spill area of a context that is swapped out; the counter unit applies its oldest operation, adding up to 2^64 - 1 and telling the adder with 0x4401 of a sum beyond it, or
to the pending sum of a context that is swapped out. -/
def Obligations.MessagesAndAddsLand : Prop :=
  ∀ (c : Nat) (s : State), isComb c = true → s.dead c = false →
    let m := s.comb c
    (∀ k i l, k < 4 → s.landNext c k m.landing 0 = some (i, l, false) → l.loc = false → l.pkt.msgKind = 0 → fld l.pkt.msgHead 28 10 ≤ 639 →
        isStore (fld l.pkt.msgHead 28 10) = false → Gives (.msgDeliver c k) s (fun t =>
          ((t.areaOf l.pkt.ctx c).worker (fld l.pkt.msgHead 28 10)).wq = ((s.areaOf l.pkt.ctx c).worker (fld l.pkt.msgHead 28 10)).wq
              ++ [⟨BitVec.ofNat 16 (fld l.pkt.msgHead 12 16), l.pkt.msgWords, 0⟩]
          ∧ (t.comb c).landing = ldel m.landing i ∧ t.ctxs = s.ctxs))
    ∧ (∀ k i l, k < 4 → s.landNext c k m.landing 0 = some (i, l, true) → Gives (.msgDeliver c k) s (fun t =>
          (t.areaOf l.pkt.ctx c).spill = (s.areaOf l.pkt.ctx c).spill ++ [l.pkt] ∧ (t.comb c).landing = ldel m.landing i ∧ t.rx = s.rx))
    ∧ (∀ k, k < 4 → s.landNext c k m.landing 0 = none → exec (.msgDeliver c k) s = .next s)
    ∧ (∀ p l, s.settled c = true → (s.area c).spill = p :: l → s.turn c p = true → (s.area c).credit p = true →
        exec (.spillDeliver c) s = .next ((s.setArea c { s.area c with spill := l }).deliver c ⟨p.cls, p, false⟩))
    ∧ ((s.area c).spill = [] → exec (.spillDeliver c) s = .next s)
    ∧ (∀ o l, m.ctrOps = o :: l →
        let v := (tget 0 (s.area c).ctr o.ix).toNat
        let s1 := s.setComb c { m with ctrOps := l }
        (16 ≤ o.ctx ∨ (s.ctx o.ctx).resident = true → v + o.amt < 2 ^ 64 → exec (.counterAdd c) s =
            .next ((s1.setArea c { s.area c with ctr := tset 0 (s.area c).ctr o.ix (BitVec.ofNat 64 (v + o.amt)) }).addDone c o))
        ∧ (16 ≤ o.ctx ∨ (s.ctx o.ctx).resident = true → 2 ^ 64 ≤ v + o.amt → exec (.counterAdd c) s =
            .next ((s1.setArea c { s.area c with ctr := tset 0 (s.area c).ctr o.ix (BitVec.ofNat 64 (2 ^ 64 - 1)) }).satFault c o))
        ∧ (o.ctx < 16 → (s.ctx o.ctx).resident = false → (s.ctx o.ctx).moving = 0 → exec (.counterAdd c) s =
            .next ((s1.setAreaOf o.ctx c { s.areaOf o.ctx c with
              pendSum := tset 0 (s.areaOf o.ctx c).pendSum o.ix (tget 0 (s.areaOf o.ctx c).pendSum o.ix + o.amt) }).addDone c o)))
    ∧ (m.ctrOps = [] → exec (.counterAdd c) s = .next s)

/-- Watches (R274, R278, R328): the oldest registration whose context has one of its 64 entries free enters the table; a watch wakes once its counter has reached its value, or
with the status it was poisoned with; an unacknowledged wake is sent again, and its acknowledgement takes the watch out; at the source a wake ends the
host command that waits for it, and is acknowledged. -/
def Obligations.WatchesWake : Prop :=
  ∀ (c : Nat) (s : State), isComb c = true →
    let m := s.comb c
    let registers (l : Land) : Bool := l.pkt.ptype = 7 && (s.turn c l.pkt) && (s.ctx l.pkt.ctx).moving = 0
      && decide ((m.watches.filter (fun w => w.ctx = l.pkt.ctx)).length < 64)
    (∀ i l, s.dead c = false → m.landing[i]? = some l → registers l = true → (∀ j e, j < i → m.landing[j]? = some e → registers e = false) →
        exec (.watchRegister c) s = .next ((s.setComb c { m with landing := ldel m.landing i, watches := m.watches ++
          [{ ctx := l.pkt.ctx, ctr := l.pkt.off / 8 % 4096, val := (match l.pkt.clitic 1 with | some w => lget 0 w 1 | none => 0), pkt := l.pkt }] }).landDone c l))
    ∧ (∀ k w, m.watches[k]? = some w → w.sent = false →
        (w.woken = none → w.val.toNat ≤ (s.areaOf w.ctx c).counter w.ctr → exec (.watchWake c k) s =
            .next ((s.setComb c { m with watches := lset m.watches k { w with woken := some 0, sent := true } }).reply c w.pkt 0x14 0 0 0 []))
        ∧ (w.woken = none → (s.areaOf w.ctx c).counter w.ctr < w.val.toNat → exec (.watchWake c k) s = .next s)
        ∧ (∀ st, w.woken = some st → exec (.watchWake c k) s =
            .next ((s.setComb c { m with watches := lset m.watches k { w with sent := true } }).reply c w.pkt 0x14 0 0 st [])))
    ∧ (∀ k w st, m.watches[k]? = some w → w.sent = true → w.woken = some st →
        exec (.wakeResend c k) s = .next (s.reply c w.pkt 0x14 0 0 st []) ∧ exec (.watchWake c k) s = .next s)
    ∧ (∀ k w i l, m.watches[k]? = some w → w.sent = true → m.landing[i]? = some l → l.pkt.ptype = 9 → l.pkt.src = w.pkt.src → l.pkt.reqId = w.pkt.reqId →
        (∀ j e, j < i → m.landing[j]? = some e → e.pkt.ptype ≠ 9) →
        exec (.wakeAck c k) s = .next ((s.setComb c { m with landing := ldel m.landing i, watches := ldel m.watches k }).landDone c l))
    ∧ (∀ i p f, s.replyAt i 0x14 = some p → p.crc = p.e2e → masterOf p.dstComb p.master = .host f → Gives (.wakeReceive i) s (fun t =>
        (p.status = 0 → (t.ring f).cmds = (s.ring f).cmds.map (fun h => if h.watch = some p.reqId then
            { h with watch := none, outst := h.outst.filter (· != p.reqId) } else h))
        ∧ (∀ (k : Nat) (h : HCmd), p.status ≠ 0 → (s.ring f).cmds[k]? = some h → h.watch = some p.reqId → h.status = none →
            ∃ g : HCmd, (t.ring f).cmds[k]? = some g ∧ g.watch = none ∧ g.status = some (2, 0x4402#16))
        ∧ ∃ q : Flight, t.net.getLast? = some q ∧ q.pkt.ptype = 9 ∧ q.pkt.dst = p.src ∧ q.pkt.reqId = p.reqId))
    ∧ (∀ i, s.replyAt i 0x14 = none → exec (.wakeReceive i) s = .next s)

/-- The operation unit (R208, R211 to R214): a fill lays its pattern over its bytes and no others; a fill or copy not of its form stops with 0x3008, a copy onto itself with
0x3009; the oldest that has finished is reported to the Forager command that asked; a corrected word is written back. -/
def Obligations.OperationUnit : Prop :=
  ∀ (c : Nat) (s : State), isComb c = true → s.settled c = true →
    let a := s.area c
    (∀ o l d n pat, s.dead c = false → a.ops = o :: l → o.fin = false → o.kind = .fill d n pat →
        (∀ k, o.ctx = k → k < 16 → s.residentAt c = some k → (s.ctx k).resident = true → opForm d d n = true → a.mem.poison = [] → a.mem.ecc = [] → a.eng.runs = [] →
            Gives (.opFill c) s (fun t => (t.area c).ops = { o with fin := true } :: l ∧ (t.area c).workers = a.workers ∧ (t.area c).eng = a.eng
              ∧ ∀ i, (t.area c).mem.byte i = if d ≤ i ∧ i < d + n then BitVec.ofNat 8 (pat.toNat / 2 ^ (8 * (i % 4))) else a.mem.byte i))
        ∧ (opForm d d n = false → exec (.opFill c) s =
            .next (s.setArea c { a with ops := { o with fin := true, fault := 0x3008#16, addr := d, atSrc := false } :: l })))
    ∧ (∀ o l x d n, s.dead c = false → a.ops = o :: l → o.fin = false → o.kind = .copy x d n →
        (∀ k t st, (if o.ctx < 16 then some o.ctx else none) = k → s.opCopy k c x d n = (t, st) → exec (.opCopy c) s = .next (t.setArea c { t.area c with
            ops := lset (t.area c).ops 0 (match st with
              | some (code, adr, src) => { o with fin := true, fault := code, addr := adr, atSrc := src }
              | none => { o with fin := true }) }))
        ∧ (opForm x d n = false → exec (.opCopy c) s =
            .next (s.setArea c { a with ops := { o with fin := true, fault := 0x3008#16, addr := x, atSrc := true } :: l }))
        ∧ (opForm x d n = true → x < d + n → d < x + n → exec (.opCopy c) s =
            .next (s.setArea c { a with ops := { o with fin := true, fault := 0x3009#16, addr := x, atSrc := true } :: l })))
    ∧ (∀ o l p adr bs, s.dead c = false → a.ops = o :: l → o.fin = false → o.kind = .reduce p → (lineParts p.off p.payload)[o.pos]? = some (adr, bs) →
        ∀ t, s.reduceLine (if o.ctx < 16 then some o.ctx else none) c (p.ptype = 2) p.epochLo adr bs = (t, none) → exec (.reduceOnArrivalAdd c) s =
          .next (t.setArea c { t.area c with ops := lset (t.area c).ops 0 { o with pos := o.pos + 1, fin := decide ((lineParts p.off p.payload).length ≤ o.pos + 1) } }))
    ∧ (∀ o l d n pat, a.ops = o :: l → o.fin = true → o.kind = .fill d n pat → o.who = none → exec (.opUnitDone c) s = .next (s.setArea c { a with ops := l }))
    ∧ (∀ o l d n pat f k, a.ops = o :: l → o.fin = true → o.fault = 0 → o.kind = .fill d n pat → o.who = some (f, k) →
        ((a.forager f).slots.find? (fun e => e.1 = k)).isSome = true → exec (.opUnitDone c) s = .next (((s.setArea c { a with ops := l }).setForager c f
          { a.forager f with slots := tput (a.forager f).slots k { tget {} (a.forager f).slots k with opDone := true } }).writeDone
            (if o.ctx < 16 then some o.ctx else none) o.ep))
    ∧ (a.ops = [] → exec (.opFill c) s = .next s ∧ exec (.opCopy c) s = .next s ∧ exec (.opUnitDone c) s = .next s ∧ exec (.reduceOnArrivalAdd c) s = .next s)
    ∧ (∀ w, w < 0x600000 → tget 0 a.mem.ecc w = 1 → exec (.eccWriteback c w) s = .next (s.setArea c { a with mem := { a.mem with ecc := tset 0 a.mem.ecc w 0 } }))
    ∧ (∀ w, w < 0x600000 → tget 0 a.mem.ecc w ≠ 1 → exec (.eccWriteback c w) s = .next s)

/-- Owner changes, diagonal windows and digested contributions (R205 to R207, R219, R305): a Comb that nobody owns is zero-filled; a window of the right form that meets no other takes
effect, another is refused with 0xC00D; a trailer for which no stage is claimed halts its stream with 0x500A; one whose digest agrees has its payload read from its stage, and an error of
that read halts the stream with the read's code. -/
def Obligations.OwnerChangeWindowsDigests : Prop :=
  (∀ (c : Nat) (s : State), isComb c = true → s.residentAt c = none → s.ownedByAny c = false →
      exec (.ownerChangeFill c) s = .next (s.setArea c { s.area c with mem := {} }))
  ∧ (∀ (c n : Nat) (s : State), isComb c = true → s.residentAt c = some n → (s.ctx n).st = 3 → exec (.ownerChangeFill c) s = .next s)
  ∧ (∀ (p : Path) (n : Nat) (v : W64) (s : State), isPath p = true → n < 8 → writable p 0x2710 (n + 1) v s →
      let i := s.instOf p 0x2710 (n + 1)
      (dwOk v.toNat = true → (∀ k, k < 8 → k ≠ n → dwMeet v.toNat (s.obj i 0x2710 (k + 1) 0) = false) → (s.ctx (i - 1)).resident = false →
          exec (.cmDwWrite p n v) s = accepts p 0x2710 (n + 1) (s.setObj i 0x2710 (n + 1) v.toNat))
      ∧ (dwOk v.toNat = true → (∀ k, k < 8 → k ≠ n → dwMeet v.toNat (s.obj i 0x2710 (k + 1) 0) = false) → (s.ctx (i - 1)).resident = true →
          exec (.cmDwWrite p n v) s = accepts p 0x2710 (n + 1) ((s.setObj i 0x2710 (n + 1) v.toNat).onAreas (i - 1)
            (fun _ a => { a with mem := a.mem.rewindow (s.obj i 0x2710 (n + 1) 0) v.toNat })))
      ∧ (dwOk v.toNat = false → exec (.cmDwWrite p n v) s = refuses p 0x2710 (n + 1) badValue s)
      ∧ (∀ k, k < 8 → k ≠ n → dwMeet v.toNat (s.obj i 0x2710 (k + 1) 0) = true → exec (.cmDwWrite p n v) s = refuses p 0x2710 (n + 1) badValue s))
  ∧ (∀ (c : Nat) (s : State) (p : Pkt) (l : List Pkt), isComb c = true → s.settled c = true → s.dead c = false → (s.area c).trailers = p :: l →
      let a := s.area c
      (a.claims.find? (claimOf p) = none → exec (.digestCheck c) s = .next ((s.setArea c { a with trailers := l }).rxHalt c p 0x500A#16))
      ∧ (∀ k w, a.claims.find? (claimOf p) = some k → p.clitic 2 = some w →
          crc64From k.crc (digestTail (lget 0 w 1) p.src (leNat (cellsRead a.mem.bytes k.stage 4))) = lget 0 w 3 → k.len = (lget 0 w 2).toNat % 2 ^ 32 →
          let s0 := s.setArea c { a with trailers := l, claims := a.claims.filter (fun e => !(claimOf p e)) }
          let n := s.residentAt c
          (∀ bs t, s0.performRead n c 0 (k.stage + 1024) k.len [] = (.ok bs, t) → ∀ t2, t.applyPayload n c k p bs = (t2, none) →
              exec (.digestCheck c) s = .next ((t2.arrival c n p).rxDone c p))
          ∧ (∀ code t, s0.performRead n c 0 (k.stage + 1024) k.len [] = (.error code, t) → exec (.digestCheck c) s = .next (t.rxHalt c p code))))
  ∧ (∀ (c : Nat) (s : State), isComb c = true → (s.area c).trailers = [] → exec (.digestCheck c) s = .next s)

/-- The Memory Wafer (R224, R228 to R230, R232 to R238): a frame serves its requesters, reserved units first, and scrubs the next line of the channel; a reservation that does not fit is refused with
0x300C, and one that fits gives the context its base and size; the fill makes new granules ready; a row and a lane take spares while there are any; an
uncorrectable line resets the partition that holds it, which ends with its memory zero and the context stopped. -/
def Obligations.MemoryWaferCommands : Prop :=
  ∀ (c : Nat) (s : State), isComb c = true →
    let m := s.comb c
    (∀ ch r k, ch < 16 → m.lost = false → r ≤ 16 → k ≤ 125 → (r < 16 → (s.ctx r).unitsNow ≤ 125) → s.floorLevel = false → s.power.memThr = false →
        Gives (.mwFrame c ch [(r, k)]) s (fun t => tget 0 (tget [] (t.comb c).mw.grant ch) r = k
          ∧ tget 0 (t.comb c).mw.scrub ch = (tget 0 m.mw.scrub ch + 1) % 5242880 ∧ (t.comb c).mw.mem.bytes = m.mw.mem.bytes))
    ∧ (∀ ch d, ch < 16 → m.lost = true → exec (.mwFrame c ch d) s = .next s)
    ∧ (∀ p n v, isPath p = true → isCtx n = true → writable p 0x2610 (n + 1) v s → (s.ctx n).st ≠ 0 → (s.ctx n).st ≠ 5 →
        (∀ b, s.admitRes n (resUnits v.toNat) (resSize v.toNat) = .ok b → Gives (.mwResWrite p n v) s (fun t =>
            s.outs = t.outs.tail ∧ t.outs.head? = some (.answer p 0x2610 (n + 1) 0 0)
            ∧ fld (t.obj 0 0x2610 (n + 1) 0) 0 7 = fld v.toNat 0 7 ∧ fld (t.obj 0 0x2610 (n + 1) 0) 16 7 = fld v.toNat 16 7
            ∧ bit (t.obj 0 0x2610 (n + 1) 0) 31 = bit v.toNat 31))
        ∧ (∀ d, s.admitRes n (resUnits v.toNat) (resSize v.toNat) = .error d →
            exec (.mwResWrite p n v) s = refuses p 0x2610 (n + 1) { ownCode 0x300C#16 with comb := some d } s))
    ∧ (∀ n, isCtx n = true → exec (.mwUnitsIncrease n) s = .next (s.setCtx n { s.ctx n with unitsNow := max (s.ctx n).unitsNow (resUnits (s.res n)) }))
    ∧ (∀ n e, isCtx n = true → s.maint.find? (fun e => e.cls = 5 && e.ctx = some n) = some e → e.deferred = false → bit (s.res n) 31 = true →
        Gives (.mwGranuleFillDone n) s (fun t => (t.ctx n).fills = [] ∧ bit (t.res n) 30 = true ∧ fld (t.res n) 0 30 = fld (s.res n) 0 30))
    ∧ (∀ ch bank row, ch < 16 → bank < 32 → row < 5120 →
        (tget 0 m.mw.spareRows (ch * 32 + bank) < 16 → Gives (.mwRowSpare c ch bank row) s (fun t =>
            tget 0 (t.comb c).mw.spareRows (ch * 32 + bank) = tget 0 m.mw.spareRows (ch * 32 + bank) + 1 ∧ (t.comb c).mw.mem.bytes = m.mw.mem.bytes
            ∧ t.intake = s.intake))
        ∧ (16 ≤ tget 0 m.mw.spareRows (ch * 32 + bank) →
            exec (.mwRowSpare c ch bank row) s = .next (s.combReport 0x7005#16 2 2 c (ch * 32 + bank) (BitVec.ofNat 64 row))))
    ∧ (∀ ch lane, ch < 16 → lane < 146 → (tget [] m.mw.laneSpare ch).contains lane = false → (tget [] m.mw.laneSpare ch).length < 2 →
        Gives (.mwLaneRetrain c ch lane false) s (fun t => tget [] (t.comb c).mw.laneSpare ch = tget [] m.mw.laneSpare ch ++ [lane])
        ∧ exec (.mwLaneRetrain c ch lane true) s = .next s)
    ∧ (∀ line scrub n, line < 0x5000000 → s.holder c (line / 0x100000) = some n → n < 16 → (s.ctx n).st = 3 → Gives (.partitionReset c line scrub) s (fun t =>
        (t.ctx n).st = 5 ∧ (t.ctx n).refuse = true ∧ (t.ctx n).tdbg = false ∧ tget 0 (t.comb c).mw.mem.poison line = 0x7002#16))
    ∧ (∀ n, isCtx n = true → (s.ctx n).st = 5 → Gives (.partitionResetDone n) s (fun t => (t.ctx n).st = 4 ∧ (t.ctx n).wasReset = true ∧ (t.ctx n).frz = []
        ∧ (t.ctx n).epOpen = (s.ctx n).epOpen ∧ (t.ctx n).epDone = (s.ctx n).epDone ∧ t.rings = s.rings
        ∧ ((s.ctx n).resident = true → ∀ d, d < 480 → (s.ctx n).covers d = true → (t.area d).mem = {} ∧ (t.area d).workers = [])))
    ∧ (∀ n, isCtx n = true → (s.ctx n).st ≠ 5 → exec (.partitionResetDone n) s = .next s)

/-! Foragers -/

/-- Rings, takes and starts (R283 to R287, R296): a ring of the right form takes effect and sets `taken` from its counter, another is refused with 0xC00D, and one whose Foragers hold commands with 0xC00E; a
command is taken when the counter runs ahead of `taken`, into the lowest free slot, with the faults of its form found at once; a counter too far ahead stops the ring
with 0x5003. A command without a condition starts; one with a local counter waits for it; one behind a command that still stands, in order, waits for that. -/
def Obligations.ForagerRingsTakesStarts : Prop :=
  ∀ (c f : Nat) (s : State), isComb c = true → f < 4 →
    let fg := s.forager c f
    (∀ (p : Path) (v : W64), isPath p = true → writable p 0x2730 (f + 1) v s →
        let i := s.instOf p 0x2730 (f + 1)
        let r := fgRing v.toNat
        (fld v.toNat 26 6 = 0 → fld v.toNat 36 4 = 0 → fld v.toNat 52 11 = 0 → r.1 % 64 = 0 → r.2.2.2 = true → 1 ≤ r.2.1 → r.2.1 ≤ 12 → r.1 + 64 * 2 ^ r.2.1 ≤ 0x3000000 →
            bit (s.obj i 0x2730 (f + 1) 0) 63 = false → exec (.fgRingWrite p f v) s = accepts p 0x2730 (f + 1) ((s.setObj i 0x2730 (f + 1) v.toNat).onAreas (i - 1)
              (fun _ a => a.setForager f { a.forager f with taken := BitVec.ofNat 64 (a.counter r.2.2.1), stuck := false })))
        ∧ ((fld v.toNat 26 6 ≠ 0 ∨ r.1 % 64 ≠ 0 ∨ (r.2.2.2 = true ∧ r.2.1 = 0)) → exec (.fgRingWrite p f v) s = refuses p 0x2730 (f + 1) badValue s)
        ∧ (v = 0 → bit (s.obj i 0x2730 (f + 1) 0) 63 = true → (s.ctx (i - 1)).combs.any (fun c => !((s.areaOf (i - 1) c).forager f).slots.isEmpty) = true →
            exec (.fgRingWrite p f v) s = refuses p 0x2730 (f + 1) badState s))
    ∧ (∀ n, s.fgOn c f = true → s.residentAt c = some n →
        let r := fgRing (s.fgRingOf n f)
        let ctr := (s.area c).counter r.2.2.1
        let h := fg.taken.toNat
        r.2.2.2 = true → fg.stuck = false →
        (ctr ≤ h → exec (.fgTake c f) s = .next s)
        ∧ (h < ctr → 2 ^ r.2.1 < ctr - h → exec (.fgTake c f) s = .next (s.fgStuck c f 0x5003#16 0))
        ∧ (∀ bs t, h < ctr → ctr - h ≤ 2 ^ r.2.1 → fg.slots = [] → s.performRead (some n) c 0 (r.1 + 64 * (h % 2 ^ r.2.1)) 64 [] = (.ok bs, t) →
            let flt := fgTakeFault (wnum (words32 bs))
            exec (.fgTake c f) s = .next (t.setForager c f { t.forager c f with
              taken := (t.forager c f).taken + 1, takes := (t.forager c f).takes + 1
              slots := tput (t.forager c f).slots 0 { desc := words32 bs, seqNo := fg.takes, early := flt.isSome, fault := flt.map (fun code => (code, 0, 0)) } })))
    ∧ (∀ k m, k < 64 → s.fgOn c f = true → fg.slots.find? (fun e => e.1 = k) = some (k, m) → m.fault = none → m.phase = .waiting →
        let started (t : State) : Prop := tget {} (t.forager c f).slots k =
          { m with phase := if fgOp (fgV m) = 0 ∧ fgSig (fgV m) ≠ 1 then .issued else .started, epoch := s.openEpoch (s.residentAt c) }
        (bit (fgV m) 10 = false → bit (fgV m) 11 = false → Gives (.fgStart c f k) s started)
        ∧ (bit (fgV m) 10 = false → bit (fgV m) 11 = true → bit (fgV m) 432 = true → fld (fgV m) 448 64 ≤ (s.area c).counter (fld (fgV m) 396 12) →
            Gives (.fgStart c f k) s started)
        ∧ (bit (fgV m) 10 = false → bit (fgV m) 11 = true → bit (fgV m) 432 = true → (s.area c).counter (fld (fgV m) 396 12) < fld (fgV m) 448 64 →
            exec (.fgStart c f k) s = .next s)
        ∧ (bit (fgV m) 10 = true → fg.slots.any (fun e => e.2.seqNo + 1 = m.seqNo) = true → exec (.fgStart c f k) s = .next s))
    ∧ (s.fgOn c f = false → exec (.fgTake c f) s = .next s ∧ exec (.fgPacketIssue c f) s = .next s
        ∧ ∀ k, k < 64 → exec (.fgStart c f k) s = .next s ∧ exec (.fgComplete c f k) s = .next s)

/-- Issue and completion (R288, R293 to R297, R300): of started commands the next in turn sends one packet; a signal's add goes to the counter on the Comb the destination names, 4 bytes of its
amount; a finished command leaves its slot, adds to its counter when it has no fault, and posts its fault when it has one; an occupancy word read becomes the mirror's estimate. -/
def Obligations.ForagerIssueAndCompletion : Prop :=
  ∀ (c f k : Nat) (m : FgCmd) (s : State), isComb c = true → f < 4 → k < 64 → s.fgOn c f = true → (s.forager c f).slots = [(k, m)] →
    let v := fgV m
    let n := s.residentAt c
    (∀ t, s.fgNext c f k m = some t → exec (.fgPacketIssue c f) s = .next (t.setForager c f { t.forager c f with last := k }))
    ∧ (s.fgNext c f k m = none → exec (.fgPacketIssue c f) s = .next s)
    ∧ (∀ tg, m.phase = .started → m.fault = none → fgOp v = 0 → fgSig v = 1 → fgDig v = false → m.step ≠ 1 →
        s.translate n (ctrAddr (fgDst v) (fgSigCtr v)) 4 = .ok tg → s.canSend (.forager c f) (s.dstOf tg) (fgCls v) = true →
        Gives (.fgPacketIssue c f) s (fun t => (tget {} (t.forager c f).slots k).phase = .issued
          ∧ ∃ q : Flight, t.net = s.net ++ [q] ∧ q.pkt.ptype = 6 ∧ q.pkt.dst = s.dstOf tg ∧ q.pkt.cls = fgCls v ∧ q.pkt.off = tg.off
            ∧ q.pkt.payload = leBytes 4 (fgSigAmt v)))
    ∧ (m.fault = none → m.phase = .issued → m.outst = [] → (fgOp v = 6 ∨ m.step ≠ 1) → bit v 13 = false → Gives (.fgComplete c f k) s (fun t =>
        (t.forager c f).slots = [] ∧ t.events = s.events ∧ (t.area c).mem = (s.area c).mem
        ∧ (t.comb c).ctrOps = (s.comb c).ctrOps ++ (if bit v 12 then [{ ctx := n.getD 16, ix := fld v 16 12, amt := 1, who := some (.forager c f) }] else [])))
    ∧ (∀ code u a, m.fault = some (code, u, a) → m.phase = .issued → m.outst = [] → (fgOp v = 6 ∨ m.step ≠ 1) → bit v 13 = false → Gives (.fgComplete c f k) s (fun t =>
        (t.forager c f).slots = [] ∧ (t.comb c).ctrOps = (s.comb c).ctrOps ∧ tget false (t.forager c f).ended m.seqNo = true
        ∧ t.events = s.events ++ [⟨n, code, c, masterField (.forager c f), 0, s.faultEpoch n⟩]))
    ∧ (m.outst ≠ [] → exec (.fgComplete c f k) s = .next s)
    ∧ (∀ key w e, (s.forager c f).estOf key = some e → (e.val = none → exec (.dispatchOccReadReturn c f key w) s =
            .next (s.setForager c f ((s.forager c f).putEst { e with val := some w.toNat })))
        ∧ (e.val ≠ none → exec (.dispatchOccReadReturn c f key w) s = .next s))
    ∧ (∀ p d w, isPath p = true → d < 4 → writable p 0x2740 (d + 1) w s → exec (.slRxWrite p d w) s =
        accepts p 0x2740 (d + 1) (s.setObj (s.instOf p 0x2740 (d + 1)) 0x2740 (d + 1) w.toNat))

/-! Reports, records, bundles, failures -/

/-- The error log and CPER records (R406 to R411): a report joins the intake queue of 1,024 or is lost and counted; the oldest is coalesced with the entry of its source, whose count stops at its
greatest value, or takes the next of 4,096 entries; a clear empties the log and its counters; a read of the next record removes it. -/
def Obligations.ErrorLogAndRecords : Prop :=
  ∀ (s : State),
    (∀ r : Report, r.comb < 480 →
        (s.intake.length < 1024 → exec (.errorReport r) s = .next { s with intake := s.intake ++ [r] })
        ∧ (1024 ≤ s.intake.length → exec (.errorReport r) s = .next (s.incObj 0x2900 3 32 1)))
    ∧ (∀ r l, s.intake = r :: l →
        (∀ i e, s.elog[i]? = some e → sameSource e.rep r = true → (∀ j d, j < i → s.elog[j]? = some d → sameSource d.rep r = false) →
            Gives .elogIntake s (fun t => t.intake = l
              ∧ t.elog = lset s.elog i { e with count := if e.count = 0xFFFFFFFF#32 then e.count else e.count + 1, last := s.ts }))
        ∧ (s.elog.length < 4096 → (∀ e, e ∈ s.elog → sameSource e.rep r = false) →
            Gives .elogIntake s (fun t => t.intake = l ∧ t.elog = s.elog ++ [⟨r, 1, s.ts, s.ts⟩]))
        ∧ (4096 ≤ s.elog.length → (∀ e, e ∈ s.elog → sameSource e.rep r = false) →
            Gives .elogIntake s (fun t => t.intake = l ∧ t.elog = s.elog ∧ t.cper = s.cper ∧ t.mgmt = s.mgmt)))
    ∧ (s.intake = [] → exec .elogIntake s = .next s)
    ∧ (∀ (p : Path) (v : W64), isPath p = true → writable p 0x2900 6 v s →
        exec (.elogClear p v) s = accepts p 0x2900 6 ((State.setObj { s with elog := [] } 0 0x2900 2 0).setObj 0 0x2900 3 0))
    ∧ (∀ p : Path, isPath p = true → readable p 0x2920 2 s →
        (∀ r l, s.cper = r :: l → exec (.cperNextRead p) s = .next (State.out { s with cper := l } (.answerBytes p 0x2920 2 0 (cperBytes r))))
        ∧ (s.cper = [] → exec (.cperNextRead p) s = .next (s.out (.answerBytes p 0x2920 2 0 []))))

/-- Pattern bundles (R403 to R405): an image the vendor signed and no older than the one held is taken; a run over a rectangle inside the grid that nobody owns enters the arbiter, one over an owned Comb is refused
with 0xB008; the end shows how many defects the rectangle had, and an Engine's defect puts its Comb in Fallback. Failure of a Comb (R24, R413 to R415): misses count until a heartbeat, and a fatal report counts as four; four declare the Comb failed: it is fenced, its owners get the event and their fences
fail with 0xB009; a free spare of a powered Frame takes its place, with zero state and the owner's packets refused until its next launch; without one it is lost. -/
def Obligations.BundlesAndCombFailures : Prop :=
  (∀ (p : Path) (s : State), isPath p = true →
     (∀ img : List Byte, domWritable p 0x2910 1 s → img.length ≤ 16777216 → exec (.pbImageWrite p img) s =
         (if Config.vendorSigned img = false then refuses p 0x2910 1 (ownCode 0x8006#16) s
          else if (Config.bundleVersion img).toNat < s.obj 0 0x2910 2 0 then refuses p 0x2910 1 (ownCode 0xB007#16) s
          else accepts p 0x2910 1 ((s.setDom 0 0x2910 1 img).setObj 0 0x2910 2 (Config.bundleVersion img).toNat)))
     ∧ (∀ v : W64, writable p 0x2910 3 v s →
         let w := v.toNat
         ((40 ≤ fld w 0 6 + fld w 10 6 ∨ 12 ≤ fld w 6 4 + fld w 16 4) → exec (.pbRun p v) s = refuses p 0x2910 3 badValue s)
         ∧ (fld w 0 6 + fld w 10 6 < 40 → fld w 6 4 + fld w 16 4 < 12 → (∀ n, n < 16 → (s.ctx n).st = 0) → s.maint = [] →
             Gives (.pbRun p v) s (fun t => t.obj 0 0x2910 4 1 = 0 ∧ t.outs = .answer p 0x2910 3 0 0 :: s.outs
               ∧ t.maint = [{ ticket := s.ticket % 256, cls := 2, deferred := false, scope := w % 2 ^ 21 }]))
         ∧ (∀ c, fld w 0 6 + fld w 10 6 < 40 → fld w 6 4 + fld w 16 4 < 12 → c ∈ rectCombs w → s.ownedByAny c = true → ∃ d,
             exec (.pbRun p v) s = refuses p 0x2910 3 { ownCode 0xB008#16 with comb := some d } (s.setObj 0 0x2910 4 (3 + 0xB008 * 65536))))
     ∧ (∀ e, s.maint = [e] → e.cls = 2 → e.deferred = false → bit e.scope 20 = false →
         Gives (.pbRunDone []) s (fun t => t.maint = [] ∧ t.obj 0 0x2910 4 0 = 2 ∧ t.obj 0 0x2910 5 1 = 0 ∧ t.combs = s.combs)
         ∧ (∀ c, isComb c = true → e.combs.contains c = true → Gives (.pbRunDone [{ comb := c, kind := .engine }]) s (fun t =>
             t.maint = [] ∧ t.obj 0 0x2910 5 0 = 1 ∧ (t.eng c).fallback = true ∧ (t.area c).mem = (s.area c).mem)))
     ∧ (s.maint = [] → exec (.pbRunDone []) s = .next s))
  ∧ (∀ (c : Nat) (s : State), isComb c = true →
         let m := s.comb c
         exec (.heartbeatMiss c) s = .next (s.setComb c { m with misses := m.misses + 1 })
         ∧ (m.misses < 4 → exec (.combHeartbeat c false) s = .next (s.setComb c { m with misses := 0 }))
         ∧ exec (.combHeartbeat c true) s = .next (s.setComb c { m with misses := 4 })
         ∧ (m.misses < 4 → exec (.combFail c) s = .next s)
         ∧ (∀ n, 4 ≤ m.misses → m.lost = false → m.failing = false → s.maint = [] → s.failedOwners c = [n] → Gives (.combFail c) s (fun t =>
             (t.comb c).failing = true ∧ (t.comb c).lost = false ∧ (∀ e ∈ (s.ctx n).uncommitted, tget 0 (s.ctx n).failed e = 0 → tget 0 (t.ctx n).failed e = 0xB009#16)
             ∧ t.events = s.events ++ [⟨some n, 0xB009#16, c, masterField (.service c), if s.spareFree (frameOf c) = true ∧ s.frameOn (frameOf c) = true then 1 else 0,
                 s.faultEpoch (some n)⟩]))
         ∧ (m.failing = true → m.lost = false → s.spareFree (frameOf c) = true → s.frameOn (frameOf c) = true → Gives (.combSpareJoinDone c) s (fun t =>
             (t.frame (frameOf c)).combFor = some (slotOf c) ∧ (t.comb c).failing = false ∧ (t.comb c).lost = false ∧ (t.comb c).misses = 0
             ∧ (t.comb c).refusing = !(s.failedOwners c).isEmpty ∧ (t.area c).mem = {} ∧ (t.area c).workers = [] ∧ (t.comb c).mw = m.mw))
         ∧ (m.failing = true → s.spareFree (frameOf c) = false → Gives (.combSpareJoinDone c) s (fun t => (t.comb c).lost = true ∧ (t.comb c).failing = false
             ∧ (t.comb c).mw = m.mw ∧ t.frames = s.frames))
         ∧ (m.failing = false → exec (.combSpareJoinDone c) s = .next s))

/-! Packets -/

/-- A packet's bytes read back as the packet (R320, R322), for every packet whose fields fit their places and whose clitics form a chain: no field of the header, no
clitic and no byte of the payload is dropped or misplaced. -/
def Obligations.PacketBytesReadBack : Prop :=
  ∀ p : Pkt, p.dst < 2 ^ 24 → p.src < 2 ^ 24 → p.master < 2 ^ 14 → p.cls < 4 → p.ptype < 32 → p.vc < 4 → p.ctx < 16 → p.space < 8 → p.off < 2 ^ 36 → p.len < 1024 →
    p.seq < 65536 → p.inc < 256 → p.clNext < 16 → p.clWords < 16 → p.arrCtr < 4096 → p.arrAmt < 65536 → p.reqId < 65536 →
    (p.clNext = 0 ↔ p.clitics = []) → (p.clitics.map List.length).foldl (· + ·) 0 = p.clWords →
    (∀ (k : Nat) (c : List W64), p.clitics[k]? = some c → fld (clWord0 c) 4 2 + 1 = c.length ∧ (clWord0 c % 16 = 0 ↔ k + 1 = p.clitics.length)) →
    pktOf p.bytes = p

/-- Parsing and hops (R311 to R316, R321 to R324): a well-formed packet from a Comb enters the mesh at that Comb, any other the Rim switch; one that is not is answered with
its fault; each hop of the mesh goes one step along X, then Y, to the destination or the gateway; a hop error drops the packet; at the Rim a packet for another module leaves on the port of its next hop in
a frame, or is answered with 0x6005 where that port carries nothing. -/
def Obligations.PacketsParseAndHop : Prop :=
  ∀ (i : Nat) (p : Pkt) (s : State),
    (s.net[i]? = some ⟨p, .source, none⟩ →
      (p.formFault = none → s.atComb p = true → exec (.pktParse i) s = .next { s with net := lset s.net i ⟨{ p with
          vc := if p.dstModule = s.ownModule ∧ p.toRim = false then 0 else 1 }, .mesh (cxOf p.srcComb) (cyOf p.srcComb), none⟩ })
      ∧ (p.formFault = none → s.atComb p = false → exec (.pktParse i) s = .next { s with net := lset s.net i ⟨p, .rim, none⟩ })
      ∧ (∀ code, p.formFault = some code → p.isReply = false → Gives (.pktParse i) s (fun t => ∃ q : Flight, t.net = ldel s.net i ++ [q]
          ∧ q.pkt.ptype = 0x11 ∧ q.pkt.status = code ∧ q.pkt.dst = p.src ∧ q.pkt.seq = p.seq)))
    ∧ (∀ x y bad, s.net[i]? = some ⟨p, .mesh x y, none⟩ → s.fabricOff = false →
        (bad = true → Gives (.pktHop i bad) s (fun t => t.net = ldel s.net i))
        ∧ (bad = false → p.vc = 0 → (x, y) = (cxOf p.dstComb, cyOf p.dstComb) → Gives (.pktHop i bad) s (fun t => t.net = lset s.net i ⟨p, .arrived, none⟩))
        ∧ (bad = false → p.vc = 0 → (x, y) ≠ (cxOf p.dstComb, cyOf p.dstComb) → Gives (.pktHop i bad) s (fun t => t.net = lset s.net i
            ⟨p, .mesh (stepTo x y (cxOf p.dstComb) (cyOf p.dstComb)).1 (stepTo x y (cxOf p.dstComb) (cyOf p.dstComb)).2, none⟩))
        ∧ (bad = false → p.vc ≠ 0 → (x, y) = gatewayAt x y → Gives (.pktHop i bad) s (fun t => t.net = lset s.net i ⟨p, .rim, none⟩)))
    ∧ (∀ port vc, s.net[i]? = some ⟨p, .rim, none⟩ → s.fabricOff = false → p.dstModule ≠ s.ownModule → s.torusHop p = some (port, vc) →
        (s.portOpen port { p with vc := vc } = true → tget 0 (s.port port).paused ({ p with vc := vc } : Pkt).chan = 0 →
            Gives (.pktHop i false) s (fun t => t.net = ldel s.net i ∧ ∃ f, t.outs = .frame port f :: s.outs))
        ∧ (s.portOpen port { p with vc := vc } = false → exec (.pktHop i false) s = .next (State.refuseRoute { s with net := ldel s.net i } p 0x6005#16)))
    ∧ (s.net[i]? = none → exec (.pktParse i) s = .next s ∧ (∀ bad, exec (.pktHop i bad) s = .next s) ∧ exec (.pktAccept i) s = .next s
        ∧ exec (.ackReceive i) s = .next s ∧ exec (.nackReceive i) s = .next s ∧ exec (.busyReceive i) s = .next s ∧ exec (.dataReceive i) s = .next s)
    ∧ (∀ bad, s.fabricOff = true → exec (.pktHop i bad) s = .next s ∧ exec (.pktAccept i) s = .next s)

/-- Acceptance (R266, R324 to R326): a damaged packet is asked for again; the first packet of a new stream, a message for the resident context of a Comb that refuses nothing, enters the landing buffer and its
stream expects the next; a packet of a halted stream and a duplicate are acknowledged; one too early is held and the missing one asked for; entries with nothing
held and nothing unperformed expire, and an interval with something new sends an acknowledgement. -/
def Obligations.PacketsAccepted : Prop :=
  ∀ (k : Nat) (p : Pkt) (s : State), s.net[k]? = some ⟨p, .arrived, none⟩ → p.isReply = false → s.fabricOff = false →
    let c := p.dstComb
    let gone : State := { s with net := ldel s.net k }
    let fresh : RxStream := { comb := c, src := p.src, master := p.master, cls := p.cls, inc := p.inc }
    (p.crc ≠ p.e2e → exec (.pktAccept k) s = .next (gone.reply c p 0x11 p.seq 0 0 []))
    ∧ (∀ n, p.crc = p.e2e → c < 480 → lfind (rxOf c p) s.rx = none → p.opn = true → p.seq = 0 → s.rx.length < 4096 → p.ptype = 5 → p.clitics = [] →
        s.pktOwner c p = .ok (some n) → (s.ctx n).resident = true → (s.ctx n).moving = 0 → (s.ctx n).refuse = false →
        (s.comb c).lost = false → (s.comb c).failing = false → (s.comb c).refusing = false → (s.comb c).swBuf = [] →
        ((s.comb c).landing.filter (fun l => l.cls = p.cls)).length < 64 → Gives (.pktAccept k) s (fun t =>
          (t.comb c).landing = (s.comb c).landing ++ [⟨p.cls, p, false⟩] ∧ t.net = ldel s.net k ∧ t.rx = s.rx ++ [{ fresh with expect := 1, sinceAck := 1 }]
          ∧ t.ctxs = s.ctxs))
    ∧ (p.crc = p.e2e → c < 480 → lfind (rxOf c p) s.rx = none → p.opn = false → exec (.pktAccept k) s =
        .next (gone.rxAck { fresh with expect := (p.seq + 1) % 65536, performed := some p.seq }))
    ∧ (∀ i r, p.crc = p.e2e → c < 480 → lfind (rxOf c p) s.rx = some i → s.rx[i]? = some r → r.inc = p.inc →
        (r.halt.isSome = true → exec (.pktAccept k) s = .next (gone.rxAck r))
        ∧ (r.halt = none → p.seq ≠ r.expect → seqLe p.seq r.expect = true → p.ptype ≠ 4 → exec (.pktAccept k) s = .next (gone.rxAck r))
        ∧ (r.halt = none → p.seq ≠ r.expect → seqLe p.seq r.expect = false → r.held.length < 16 → s.heldBytes c + p.wireLen ≤ 32768 →
            (∀ q, q ∈ r.held → q.seq ≠ p.seq) → exec (.pktAccept k) s =
              .next (State.reply { gone with rx := lset s.rx i { r with held := r.held ++ [p] } } c p 0x11 r.expect 0 0 [])))

/-- Receive-table entries and the switch buffer (R218, R324, R325): an entry with nothing held and nothing unperformed expires; an interval with something accepted or performed sends an
acknowledgement; the oldest buffered packet whose context is not being moved is taken, or refused with its halt. Replies at the source (R325 to R328, R348): an acknowledgement counts off what it names and, where it carries a code, halts the stream there; a re-send request or a busy answer
acts on the packet or the timer of its stream; data answer one outstanding read, once; a damaged reply and one for no stream are discarded. The timer of a stream sends its oldest packet
again, up to eight times, then ends the stream with 0x6003; after a busy answer it sends all, uncounted. -/
def Obligations.ReceiptAndReplies : Prop :=
  (∀ (s : State),
     (∀ k r, s.rx[k]? = some r →
         (r.held = [] → r.pending = false → exec (.rxEntryExpire k) s = .next { s with rx := ldel s.rx k })
         ∧ ((r.held ≠ [] ∨ r.pending = true) → exec (.rxEntryExpire k) s = .next s)
         ∧ (r.sinceAck = 0 → exec (.ackIntervalExpire k) s = .next s)
         ∧ (r.sinceAck ≠ 0 → exec (.ackIntervalExpire k) s = .next (State.rxAck { s with rx := lset s.rx k { r with sinceAck := 0 } } r)))
     ∧ (∀ c p l, isComb c = true → (s.comb c).swBuf = p :: l → (s.ctx p.ctx).moving = 0 →
         let s0 := s.setComb c { s.comb c with swBuf := l }
         (∀ t, s0.takePkt c p true = .pend t → exec (.switchBufferDrain c) s = .next t)
         ∧ (∀ t, s0.takePkt c p true = .done t → exec (.switchBufferDrain c) s = .next (t.rxDone c p))
         ∧ (∀ code t, s0.takePkt c p true = .refuse code t → exec (.switchBufferDrain c) s = .next (t.rxHalt c p code))
         ∧ (s0.takePkt c p true = .wait → exec (.switchBufferDrain c) s = .next s))
     ∧ (∀ c, isComb c = true → (s.comb c).swBuf = [] → exec (.switchBufferDrain c) s = .next s))
  ∧ (∀ (s : State),
         (∀ (i : Nat) (p : Pkt), s.replyAt i p.ptype = some p →
           let s1 : State := { s with net := ldel s.net i }
           (p.crc ≠ p.e2e ∨ s1.txFor p = none →
               (p.ptype = 0x10 → exec (.ackReceive i) s = .next s1) ∧ (p.ptype = 0x11 → exec (.nackReceive i) s = .next s1)
               ∧ (p.ptype = 0x12 → exec (.busyReceive i) s = .next s1) ∧ (p.ptype = 0x13 → exec (.dataReceive i) s = .next s1))
           ∧ (∀ k t, p.crc = p.e2e → s1.txFor p = some k → s.tx[k]? = some t →
               (p.ptype = 0x10 → p.status = 0 → exec (.ackReceive i) s = .next ((s1.txAck k p.seq (p.off % 65536)).txClose k))
               ∧ (p.ptype = 0x10 → p.status ≠ 0 → exec (.ackReceive i) s = .next ((s1.txAck k p.seq (p.off % 65536)).txHalt k (p.off / 65536 % 65536) p.status))
               ∧ (∀ q, p.ptype = 0x11 → p.status = 0 → t.unacc.find? (fun q => q.seq = p.seq) = some q →
                   exec (.nackReceive i) s = .next { s1 with net := s1.net ++ [⟨q, .source, none⟩] })
               ∧ (p.ptype = 0x11 → p.status ≠ 0 → exec (.nackReceive i) s = .next (s1.txHalt k p.seq p.status))
               ∧ (p.ptype = 0x12 → exec (.busyReceive i) s = .next { s1 with tx := lset s.tx k { t with busy := true } })
               ∧ (∀ f h, p.ptype = 0x13 → t.who = .host f → t.unperf.any (fun q => q.ptype = 4 && q.seq = p.seq && q.reqId = p.reqId) = true →
                   (s.ring f).cmds = [h] → h.outst.contains p.reqId = true → Gives (.dataReceive i) s (fun u => u.net = s1.net
                     ∧ u.outs = .hostWrite (fld (s.ring f).cfg.toNat 19 1) (lget 0 h.words 1 + BitVec.ofNat 64 (tget 0 h.offs p.reqId)) p.payload :: s.outs
                     ∧ (u.ring f).cmds = [{ h with outst := h.outst.filter (· != p.reqId), offs := tdel h.offs p.reqId }]))
               ∧ (p.ptype = 0x13 → t.unperf.any (fun q => q.ptype = 4 && q.seq = p.seq && q.reqId = p.reqId) = false → exec (.dataReceive i) s = .next s1)))
         ∧ (∀ (k : Nat) (t : TxStream) (q : Pkt) (l : List Pkt), s.tx[k]? = some t → t.unacc = q :: l →
             (t.busy = false → t.resends < 8 → exec (.retxTimeout k) s =
                 .next { s with tx := lset s.tx k { t with resends := t.resends + 1 }, net := s.net ++ [⟨q, .source, none⟩] })
             ∧ (t.busy = true → exec (.retxTimeout k) s =
                 .next { s with tx := lset s.tx k { t with busy := false }, net := s.net ++ (q :: l).map (fun p => ⟨p, .source, none⟩) })
             ∧ (t.busy = false → 8 ≤ t.resends → t.unperf = [] → Gives (.retxTimeout k) s (fun u => u.tx = ldel s.tx k
                 ∧ ∃ v : Pkt, u.net = s.net ++ [⟨v, .source, none⟩] ∧ v.ptype = 0 ∧ v.seq = q.seq ∧ v.e2e = v.crc)))
         ∧ (∀ k, s.tx[k]? = none → exec (.retxTimeout k) s = .next s))

/-! Tyduem ports -/

/-- Flow control, pause and width (R319, R334 to R336): the mode of a network changes once no packet of it stands in the mesh, and a port's at once, its pauses dropped; a pause ends with its quanta;
`TY_CTL` sets the target width. Lanes (R336 to R339): with more lanes active than the width in force the highest is dropped by request; a lane that fails its training stays out and is reported, one that passes is added by
its leader; a request held back goes out again once no other runs; a port that is not up starts nothing. -/
def Obligations.FlowControlAndLanes : Prop :=
  (∀ (s : State),
     (∀ l, l < 2 → s.meshBusy (l = 1) = false → exec (.fcModeChange l) s = .next { s with fcMode := tset false s.fcMode l (bit (s.obj 0 0x2500 3 0) l) })
     ∧ (∀ l, l < 2 → s.meshBusy (l = 1) = true → exec (.fcModeChange l) s = .next s)
     ∧ (∀ l, 2 ≤ l → l < 8 → exec (.fcModeChange l) s =
         .next (s.setPort (l - 2) { s.port (l - 2) with onOff := bit (s.obj 0 0x2501 (l - 1) 0x6000) 0, paused := [], pausing := [] }))
     ∧ (∀ p ch, isTyPort p = true → ch < 18 →
         exec (.pauseExpire p ch) s = .next (s.setPort p { s.port p with paused := tset 0 (s.port p).paused ch 0 })
         ∧ (tget false (s.port p).pausing ch = false → exec (.pauseRepeat p ch) s = .next s)
         ∧ (tget false (s.port p).pausing ch = true → (s.port p).onOff = true → s.chanRoom p ch < 8 * 544 → exec (.pauseRepeat p ch) s =
             .next ((s.setPort p { s.port p with pausing := tset false (s.port p).pausing ch true }).sendFrame p 1 0 8 (bytes64 [pauseWord ch 1024])))
         ∧ (8 * 544 ≤ s.chanRoom p ch → exec (.pauseRepeat p ch) s = .next s))
     ∧ (∀ q p v, isPath q = true → isTyPort p = true → writable q 0x2501 (p + 1) v s → exec (.tyCtlWrite q p v) s =
         accepts q 0x2501 (p + 1) ((s.setObj (s.instOf q 0x2501 (p + 1)) 0x2501 (p + 1) v.toNat).setPort p { s.port p with width := fld v.toNat 8 7 })))
  ∧ (∀ (p lane : Nat) (s : State), isTyPort p = true → lane < 96 →
         let t := s.port p
         (∀ k, t.st = 3 → t.req = none → t.laneWant lane = some k → k ≠ 2 → exec (.laneRetrainStart p lane) s = .next (s.laneAsk p (lane, k)))
         ∧ (t.st = 3 → t.req = none → t.laneWant lane = some 2 → t.training = none → s.maint = [] →
             Gives (.laneRetrainStart p lane) s (fun u => (u.port p).req = some (lane, 2) ∧ u.maint = [{ ticket := s.ticket % 256, cls := 1, deferred := false, scope := scopeOf 0 p lane, own := true }]))
         ∧ ((t.st ≠ 3 ∨ t.req ≠ none) → exec (.laneRetrainStart p lane) s = .next s)
         ∧ (t.training = none → ∀ ok, exec (.laneTrainDone p lane ok) s = .next s)
         ∧ (t.training = some (lane, true) → exec (.laneTrainDone p lane true) s = .next (s.laneAsk p (lane, 4)))
         ∧ (t.training = some (lane, false) → exec (.laneTrainDone p lane true) s = .next s)
         ∧ (∀ lead, t.training = some (lane, lead) → t.again = none → 8 ≤ ({ t with lanes := tset 0 t.lanes lane 0 } : TyPort).active →
             Gives (.laneTrainDone p lane false) s (fun u => u.port p = { t with lanes := tset 0 t.lanes lane 0, training := none }))
         ∧ (t.again = none → exec (.laneRequestRetry p) s = .next s)
         ∧ (∀ r, t.again = some r → t.req = none → t.training = none → t.st = 3 → exec (.laneRequestRetry p) s = .next (s.laneAsk p r)))

/-- Frames and link keys (R332, R333, R364, R365): a frame whose form is wrong is counted and discarded; one in sequence is opened under the key and counter of its phase, and acts or is counted as its tag says;
a rekey puts the agreed key in force and inverts `KPH`, and a key at its limit with none agreed takes the port down; the old key expires; an exchange that runs
out of time fails with 0x8004 and starts again later. -/
def Obligations.FramesAndLinkKeys : Prop :=
  ∀ (p : Nat) (s : State), isTyPort p = true →
    let t := s.port p
    (∀ bs : List Byte, t.st = 3 → t.badAt = [] → bs.length ≠ fld (leNat (bs.take 8)) 8 10 + 24 → exec (.tyFrameReceive p bs) s = .next (s.setPort p { t with bad := t.bad + 1 }))
    ∧ (∀ (bs : List Byte) (k : LinkKey), t.st = 3 → t.rxKey = some k →
        let h := leNat (bs.take 8)
        bs.length = fld h 8 10 + 24 → bit h 7 = false → fld h 18 14 = 0 → fld h 2 4 ≤ 8 → bit h 0 = false → bit h 6 = t.rxKph → fld h 32 32 = t.rxCtr.toNat % 2 ^ 32 →
        let s1 := s.setPort p { t with rxCtr := t.rxCtr + 1 }
        exec (.tyFrameReceive p bs) s = .next (match Config.gcmOpen k.key (frameNonce k t.rxCtr.toNat) (bs.take 8) (bs.drop 8) with
          | some body => s1.frameBody p h body
          | none => s1.badFrame p true))
    ∧ (∀ bs : List Byte, t.st ≠ 2 → t.st ≠ 3 → exec (.tyFrameReceive p bs) s = .next s)
    ∧ (∀ k, t.st = 3 → t.nextTx = some k → exec (.tyRekey p) s = .next (s.setPort p { t with txKey := some k, nextTx := none, kph := !t.kph, txCtr := 0 }))
    ∧ (t.st = 3 → t.nextTx = none → 2 ^ 40 ≤ t.txCtr.toNat → Gives (.tyRekey p) s (fun u => (u.port p).st = 4 ∧ (u.port p).txKey = none ∧ (u.port p).rxKey = none
        ∧ u.events = s.events ++ [⟨none, 0x6007#16, 0, 0, BitVec.ofNat 64 p, 0⟩]))
    ∧ (t.st ≠ 3 → exec (.tyRekey p) s = .next s)
    ∧ exec (.tyOldKeyExpire p) s = .next (s.setPort p { t with oldKey := none })
    ∧ (t.kx.running = true → Gives (.linkKeyTimeout p) s (fun u => (u.port p).kx = { waiting := true } ∧ (u.port p).st = t.st ∧ (u.port p).txKey = t.txKey))
    ∧ (t.kx.running = false → exec (.linkKeyTimeout p) s = .next s)
    ∧ (t.kx.waiting = true → (t.st = 2 ∨ t.st = 3) → s.leadsPort p = false →
        exec (.linkKeyRetry p) s = .next (s.setPort p { t with kx := { running := true, leads := false, await := 1 } }))
    ∧ (t.kx.waiting = true → (t.st = 2 ∨ t.st = 3) → s.leadsPort p = true → Gives (.linkKeyRetry p) s (fun u => (u.port p).kx.running = true
        ∧ (u.port p).kx.leads = true ∧ (u.port p).kx.await = 2 ∧ (u.port p).st = t.st))
    ∧ (t.kx.waiting = false → exec (.linkKeyRetry p) s = .next s)

/-! Host interface -/

/-- Ring records, doorbells and event entries (R344 to R346, R349, R350, R376): an address is stored, and refused with `CFG_ERR` while the ring is enabled; an enable that passes its checks starts the indices at
0; a tail doorbell within the ring moves the tail, one beyond it posts 0xC003, one of a frozen or disabled ring is ignored; the oldest event is written to ring 0 of
its context and of the operator, with a phase bit and its count of lost ones, or counted as lost where there is no room. -/
def Obligations.RingsDoorbellsEvents : Prop :=
  ∀ (f : Nat) (s : State), f < 1088 →
    let r := s.ring f
    (∀ v : W64, s.boot.fw = true → (r.en = false ∨ v = r.sqBase) → exec (.ringConfigWrite f 0 v) s = .next (s.setRing f { r with sqBase := v, cfgErr := false }))
    ∧ (∀ v : W64, s.boot.fw = true → r.en = true → v ≠ r.sqBase → exec (.ringConfigWrite f 0 v) s = .next (s.setRing f { r with cfgErr := true }))
    ∧ (∀ v : W64, s.boot.fw = true → (r.en = false ∨ v = r.cqBase) → exec (.ringConfigWrite f 1 v) s = .next (s.setRing f { r with cqBase := v, cfgErr := false }))
    ∧ (∀ v : W64, s.boot.fw = true → r.en = false → v.toNat / 2 ^ 23 = 0 → fld v.toNat 0 4 ≠ 0 → fld v.toNat 4 4 ≠ 0 → vectorOk f (fld v.toNat 8 11) = true →
        bit v.toNat 21 = true → (∀ n, fnCtx f = some n → (s.ctx n).st ≠ 0) → exec (.ringConfigWrite f 2 v) s =
          .next (s.setRing f { r with cfg := BitVec.ofNat 64 (v.toNat % 2 ^ 22), cfgErr := false, sqHead := 0, cqTail := 0, sqTail := 0, cqHead := 0 }))
    ∧ (∀ v : W64, s.boot.fw = true → (v.toNat / 2 ^ 23 ≠ 0 ∨ fld v.toNat 0 4 = 0 ∨ fld v.toNat 4 4 = 0) →
        exec (.ringConfigWrite f 2 v) s = .next (s.setRing f { r with cfgErr := true }))
    ∧ (∀ v : W64, exec (.ringConfigWrite f 3 v) s = .next s)
    ∧ (∀ v : W32, r.en = true → r.frozen = false →
        ((v - r.sqHead).toNat ≤ r.sqSize → (v - r.sqTail).toNat < 2 ^ 31 → exec (.sqTailDoorbell f v) s = .next (s.setRing f { r with sqTail := v }))
        ∧ (r.sqSize < (v - r.sqHead).toNat → exec (.sqTailDoorbell f v) s = .next (s.event (fnCtx f) 0xC003#16 0 (masterField (.host f)) 0))
        ∧ exec (.cqHeadDoorbell f v) s = .next (s.setRing f { r with cqHead := v }))
    ∧ (∀ v : W32, (r.en = false ∨ r.frozen = true) → exec (.sqTailDoorbell f v) s = .next s ∧ exec (.cqHeadDoorbell f v) s = .next s)
    ∧ (∀ e l, s.events = e :: l → e.ctx = none → (s.ring 1024).en = true →
        ((s.ring 1024).cqRoom = true → s.hlCarries (s.ring 1024).port = true → Gives .eventPost s (fun t => t.events = l
            ∧ (t.ring 1024).cqTail = (s.ring 1024).cqTail + 1 ∧ (t.ring 1024).lost = 0
            ∧ ∃ w0 : W64, fld w0.toNat 0 8 = 6 + (if (s.ring 1024).cqTail.toNat / (s.ring 1024).cqSize % 2 = 0 then 1 else 0) ∧ fld w0.toNat 16 16 = e.code.toNat
              ∧ .hostWrite (s.ring 1024).port ((s.ring 1024).cqBase + BitVec.ofNat 64 (32 * ((s.ring 1024).cqTail.toNat % (s.ring 1024).cqSize)))
                  (bytes64 [w0, e.epoch, e.result, BitVec.ofNat 64 (s.ring 1024).lost]) ∈ t.outs))
        ∧ ((s.ring 1024).cqRoom = false → Gives .eventPost s (fun t => t.events = l ∧ t.outs = s.outs
            ∧ t.ring 1024 = { s.ring 1024 with lost := min 65535 ((s.ring 1024).lost + 1) })))
    ∧ (s.events = [] → exec .eventPost s = .next s)

/-- Host commands (R346 to R349, R352, R358): an entry that cannot be taken yet is left; one whose form is wrong ends with status 1 and 0xC007, a message on an operator ring with 0x4501; a launch of a ready or
stopped context starts it, in another state it ends with 0xC006; a commit joins the context's fences; host bytes feed the oldest copy that waits for them, and a failed read ends
it with 0xC009; a finished command is retired with its completion entry. -/
def Obligations.HostCommandsRun : Prop :=
  ∀ (f : Nat) (s : State), isHostFn f = true →
    let r := s.ring f
    (∀ (e : List W64) (ext : List Byte), e.length = 8 →
      let h : HCmd := { words := e, ext := ext, comb := 480 }
      (s.canTake f h = false → exec (.hcTake f e ext) s = .next s)
      ∧ (∀ code, s.canTake f h = true → r.cmds = [] → hostFormFault f h = some code → exec (.hcTake f e ext) s = .next (s.setRing f { r with
            sqHead := r.sqHead + 1, cmds := [{ h with status := some (1, code), epoch := s.faultEpoch (fnCtx f) }] }))
      ∧ (∀ n, s.canTake f h = true → r.cmds = [] → hostFormFault f h = none → fnCtx f = some n → h.op = 7 →
          (((s.ctx n).st = 2 ∨ (s.ctx n).st = 4) → Gives (.hcTake f e ext) s (fun t => (t.ctx n).st = 3 ∧ (t.ctx n).wasReset = false
              ∧ t.ring f = { r with sqHead := r.sqHead + 1, cmds := [h] }))
          ∧ ((s.ctx n).st = 3 → exec (.hcTake f e ext) s = .next (s.setRing f { r with
              sqHead := r.sqHead + 1, cmds := [{ h with status := some (1, 0xC006#16), epoch := s.faultEpoch (fnCtx f) }] })))
      ∧ (∀ n, s.canTake f h = true → r.cmds = [] → hostFormFault f h = none → fnCtx f = some n → h.op = 6 → Gives (.hcTake f e ext) s (fun t =>
          (t.ctx n).fences = (s.ctx n).fences ++ [⟨h.arg 1, f, s.nextId, false⟩] ∧ (t.ring f).cmds = [{ h with outst := [s.nextId] }])))
    ∧ (∀ h ok data, r.cmds = [h] → h.op = 1 → h.status = none → h.got < h.len →
        (ok = false → exec (.hlDmaCompletion f ok data) s = .next (s.setRing f { r with cmds := [{ h with
            status := some (if h.done = 0 then 1 else 2, 0xC009#16), epoch := s.faultEpoch (fnCtx f), buf := [], hold := false }] }))
        ∧ (ok = true → exec (.hlDmaCompletion f ok data) s = .next (State.hostPump f pumpFuel (s.setRing f { r with cmds := [{ h with
            got := h.got + (data.take (h.len - h.got)).length, buf := h.buf ++ data.take (h.len - h.got) }] }))))
    ∧ (∀ ok data, r.cmds = [] → exec (.hlDmaCompletion f ok data) s = .next s)
    ∧ (∀ h, r.en = true → r.frozen = false → s.hlCarries r.port = true → r.cmds = [h] → h.hold = false → h.finished = true → r.cqRoom = true →
        (h.status = none → h.noCqe = true → exec (.completionPost f) s = .next (s.setRing f { r with cmds := [] }))
        ∧ (((∃ st code, h.status = some (st, code) ∧ st ≠ 0) ∨ h.noCqe = false) → Gives (.completionPost f) s (fun t => (t.ring f).cmds = [] ∧ (t.ring f).cqTail = r.cqTail + 1
            ∧ ∃ w0 : W64, .hostWrite r.port (r.cqBase + BitVec.ofNat 64 (32 * (r.cqTail.toNat % r.cqSize))) (bytes64 [w0, h.epoch, h.result, 0]) ∈ t.outs)))
    ∧ ((r.en = false ∨ r.frozen = true) → exec (.completionPost f) s = .next s)

/-- Contexts (R352 to R356): a filled context is ready; the end of a quantum, or of a time that `HC_SLICE` named, asks for a switch to the next running member, unless a switch is under way; the switch stops the
outgoing masters and ends with the incoming member resident; a destroyed context's number is free and its rings are disabled. -/
def Obligations.ContextsSwitchAndEnd : Prop :=
  ∀ (n m : Nat) (s : State), isCtx n = true → isCtx m = true →
    ((s.ctx n).st = 1 → exec (.ctxFillDone n) s = .next (s.setCtx n { s.ctx n with st := 2 }))
    ∧ ((s.ctx n).st ≠ 1 → exec (.ctxFillDone n) s = .next s)
    ∧ ((s.ctx n).st ≠ 0 → (s.ctx n).resident = true → s.groupMoves n = false → (s.group n).any (fun k => bit (s.obj 0 0x2701 2 0) k) = false →
        (s.nextMember n = some m → exec (.quantumExpire n) s = .next (s.setCtx n { s.ctx n with switchTo := some m }))
        ∧ (s.nextMember n = none → exec (.quantumExpire n) s = .next s))
    ∧ ((s.ctx n).resident = false → exec (.quantumExpire n) s = .next s)
    ∧ (∀ v, (s.ctx m).sliceAt = some v → (s.ctx m).st = 3 → n ≠ m →
        let s1 := s.setCtx m { s.ctx m with sliceAt := none }
        s1.residentOf m = some n → s1.groupMoves m = false → exec (.hcSliceTime m) s = .next (s1.setCtx n { s1.ctx n with switchTo := some m }))
    ∧ ((s.ctx m).sliceAt = none → exec (.hcSliceTime m) s = .next s)
    ∧ ((s.ctx n).switchTo = some m → (s.ctx n).resident = true → (s.ctx m).resident = false → s.groupMoves n = false → (s.group n).contains m = true → (s.ctx n).st = 3 →
        Gives (.contextSwitchStart n m) s (fun t => (t.ctx n).moving = 1 ∧ (t.ctx m).moving = 2 ∧ (t.ctx n).switchTo = none ∧ (t.ctx n).resident = true))
    ∧ ((s.ctx n).switchTo ≠ some m → exec (.contextSwitchStart n m) s = .next s)
    ∧ (s.residentOf m = some n → (s.ctx n).moving = 1 → (s.ctx m).moving = 2 → s.addsDone n = true → Gives (.switchRestoreDone m) s (fun t =>
        (t.ctx n).resident = false ∧ (t.ctx n).moving = 0 ∧ (t.ctx m).resident = true ∧ (t.ctx m).moving = 0))
    ∧ (s.residentOf m = some n → (s.ctx n).moving ≠ 1 → exec (.switchRestoreDone m) s = .next s)
    ∧ ((s.ctx n).st = 6 → Gives (.ctxDestroyDone n) s (fun t => t.ctx n = {} ∧ ∀ q, q < 64 → (t.ring (64 * n + q)).cmds = [] ∧ (t.ring (64 * n + q)).en = false))
    ∧ ((s.ctx n).st ≠ 6 → exec (.ctxDestroyDone n) s = .next s)

/-- Host-link ports, their keys and sessions (R342, R343, R362, R366 to R368, R446, R523): a port that goes down loses its keys and sessions and ends the copies over it with 0xC002; `PERST_N` takes it down
and its release starts training; a trained port is up with `IDE_REQ` as it stands, and one whose partner lacks Flit mode carries nothing; a key is taken only inside a session; an
answer goes out for each SPDM request, and the co-signature only after a signed response. -/
def Obligations.HostLinkPorts : Prop :=
  ∀ (p : Nat) (s : State), isHl p = true →
    let h := s.hlp p
    Gives (.hlPortDown p) s (fun t => (t.hlp p).st = 0 ∧ (t.hlp p).ideKeys = [] ∧ (t.hlp p).ideOn = false ∧ (t.spdmOf p).session = false ∧ (t.hlp p).perst = h.perst
        ∧ (∀ q, q ≠ p → t.hlp q = s.hlp q) ∧ ∀ f, t.ring f = if (s.ring f).port = p then { s.ring f with cmds := (s.ring f).cmds.map HCmd.portLost } else s.ring f)
    ∧ Gives (.perstAssert p) s (fun t => (t.hlp p).st = 0 ∧ (t.hlp p).perst = true ∧ (t.hlp p).dwSel = 0 ∧ (t.hlp p).ideKeys = [])
    ∧ (h.perst = true → exec (.perstRelease p) s = .next (s.setHlp p { h with perst := false, st := 1 }))
    ∧ (h.perst = false → exec (.perstRelease p) s = .next s)
    ∧ (∀ rate lanes, rate < 6 → (lanes = 1 ∨ lanes = 2 ∨ lanes = 4 ∨ lanes = 8 ∨ lanes = 16) → h.perst = false →
        exec (.hlLinkTrained p rate lanes true) s = .next (s.setHlp p { h with
          st := 2, rate := rate, lanes := lanes, ideReq := bit (s.obj 0 0x2810 1 0) 0, refSrc := decide (s.obj 0 0x2300 9 0 = 1) })
        ∧ Gives (.hlLinkTrained p rate lanes false) s (fun t => (t.hlp p).st = 3 ∧ t.hlCarries p = false))
    ∧ (∀ ks sub key, ks < 2 → sub < 3 →
        ((s.spdmOf p).session = true → exec (.ideKeyProg p ks sub key) s = .next (s.setHlp p { h with ideKeys := tput h.ideKeys (ks * 3 + sub) key }))
        ∧ ((s.spdmOf p).session = false → exec (.ideKeyProg p ks sub key) s = .next s))
    ∧ (∀ req : List Byte, s.boot.fw = true → (h.st = 2 ∨ h.st = 3) →
        Gives (.spdmRequest p req) s (fun t => (t.spdmOf p).count = (s.spdmOf p).count + 1 ∧ ∃ ans, t.outs = .spdm p ans :: s.outs
          ∧ (Config.spdmIsCosign req = false → ans = Config.spdmAnswer s.fresh s.measurements.flatten req))
        ∧ Gives (.spdmCosign p) s (fun t => (t.spdmOf p).signed = none ∧ t.outs = .spdm p (match (s.spdmOf p).signed with
            | some tr => Config.spdmCosign tr
            | none => Config.spdmUnexpected) :: s.outs))
    ∧ (∀ req, s.boot.fw = false → exec (.spdmRequest p req) s = .next s ∧ exec (.spdmCosign p) s = .next s)
    ∧ (domWritable .mgmt 0x2850 1 s → ∀ req : List Byte, 4096 < req.length → exec (.spdmRequest 2 req) s = refuses .mgmt 0x2850 1 badLength s)

/-! Power, clocks, start-up -/

/-- Input, converters and Trip (R420, R422, R423, R425): an input below 330.0 V for 10 ms or above 430.0 V for 100 us brings Trip, one below 355.0 V for 1 ms Floor, and a recovered one
clears those causes; a short switches a stage off and latches it, its fourth one locks it out; a latched stage tries again; a ramp that ends below half is a short, one that does not
is on; Trip ends by `PWR_RESTART` once every cause has cleared, and the rails rise. -/
def Obligations.InputsConvertersTrip : Prop :=
  ∀ (k : Nat) (s : State), isConv k = true →
    let v := s.conv k
    (∀ dv ms : Nat, dv < 3300 → 10 ≤ ms → s.pwrState ≠ 0 → s.pwrState ≠ 4 →
        Gives (.inputUndervoltage dv ms) s (fun t => t.pwrState = 4 ∧ 0x9001#16 ∈ t.power.tripCauses))
    ∧ (∀ dv ms : Nat, 3300 ≤ dv → dv < 3550 → 1 ≤ ms → s.pwrState = 2 → bit s.power.causes 4 = false →
        Gives (.inputUndervoltage dv ms) s (fun t => t.pwrState = 3 ∧ bit t.power.causes 4 = true))
    ∧ (∀ dv ms : Nat, 3550 ≤ dv → exec (.inputUndervoltage dv ms) s = .next (s.setObj 0 0x2100 1 (min dv 65535)))
    ∧ (∀ dv us : Nat, 4300 < dv → 100 ≤ us → s.pwrState ≠ 0 → s.pwrState ≠ 4 →
        Gives (.inputOvervoltage dv us) s (fun t => t.pwrState = 4 ∧ 0x9002#16 ∈ t.power.tripCauses))
    ∧ (∀ dv us : Nat, (dv ≤ 4300 ∨ us < 100) → exec (.inputOvervoltage dv us) s = .next (s.setObj 0 0x2100 1 (min dv 65535)))
    ∧ (∀ dv ms : Nat, 3600 ≤ dv → dv ≤ 4300 → 10 ≤ ms → Gives (.inputRecover dv ms) s (fun t => bit t.power.causes 4 = false
        ∧ 0x9001#16 ∉ t.power.tripCauses ∧ 0x9002#16 ∉ t.power.tripCauses ∧ t.obj 0 0x2100 1 0 = dv ∧ t.pwrState = s.pwrState))
    ∧ (∀ dv ms : Nat, 4300 < dv → ms < 10 → exec (.inputRecover dv ms) s = .next (s.setObj 0 0x2100 1 (min dv 65535)))
    ∧ ((v.st = 1 ∨ v.st = 2) → k < 112 →
        (v.retries < 3 → Gives (.converterShort k) s (fun t => t.conv k = { v with st := 0, latched := true, alert := false }))
        ∧ (3 ≤ v.retries → Gives (.converterShort k) s (fun t => t.conv k = { v with st := 3, latched := false, alert := false }
            ∧ (8 ≤ k → k < 104 → s.pwrState = 0 → ∃ e ∈ t.events, e.code = 0x9004#16 ∧ e.ctx = none))))
    ∧ ((v.st = 1 ∨ v.st = 2) → k = 112 → v.retries < 3 → Gives (.converterShort k) s (fun t => t.boot.powerGood = false ∧ t.boot.fw = false))
    ∧ (v.st ≠ 1 → v.st ≠ 2 → exec (.converterShort k) s = .next s)
    ∧ (v.st = 0 → v.latched = true → exec (.converterRetry k) s = .next (s.setConv k { v with st := 1, latched := false, retries := v.retries + 1 }))
    ∧ ((v.st ≠ 0 ∨ v.latched = false) → exec (.converterRetry k) s = .next s)
    ∧ (v.st = 2 → exec (.converterRetryReset k) s = .next (s.setConv k { v with retries := 0 }))
    ∧ (v.st ≠ 2 → exec (.converterRetryReset k) s = .next s)
    ∧ (∀ pct : Nat, (v.st = 1 → 50 ≤ pct → Gives (.converterRampEnd k pct) s (fun t => t.conv k = { v with st := 2 }
          ∧ (106 ≤ k → k < 112 → (s.pwrState = 1 ∨ s.pwrState = 2 ∨ s.pwrState = 3) → (t.port (k - 106)).st = 1)))
        ∧ (v.st = 1 → pct < 50 → exec (.converterRampEnd k pct) s = exec (.converterShort k) s)
        ∧ (v.st ≠ 1 → exec (.converterRampEnd k pct) s = .next s))
    ∧ (s.boot.powerGood = false → Gives .lockoutClear s (fun t => ∀ j, (t.conv j).st ≠ 3 ∧ ((s.conv j).st ≠ 3 → t.conv j = s.conv j)))
    ∧ (s.boot.powerGood = true → exec .lockoutClear s = .next s)
    ∧ (∀ code : W16, (code ∈ tripCodes → s.pwrState ≠ 0 → s.pwrState ≠ 4 →
          Gives (.trip code) s (fun t => t.pwrState = 4 ∧ code ∈ t.power.tripCauses ∧ t.power.causes = 0 ∧ ∀ j, 106 ≤ j → j < 112 → (t.conv j).st = 0 ∨ (t.conv j).st = 3))
        ∧ (code ∉ tripCodes → exec (.trip code) s = .next s))
    ∧ (∀ (p : Path) (w : W64), isPath p = true → writable p 0x2100 11 w s →
        (s.pwrState = 4 → s.power.tripCauses = [] → Gives (.pwrRestart p w) s (fun t => t.pwrState = 1 ∧ t.stage = 1 ∧ t.boot.framesUp = 0
            ∧ .answer p 0x2100 11 0 0 ∈ t.outs ∧ ∀ j, (j < 8 ∨ j = 104 ∨ j = 105 ∨ (106 ≤ j ∧ j < 112)) → (s.conv j).st = 0 → (t.conv j).st = 1))
        ∧ ((s.pwrState ≠ 4 ∨ s.power.tripCauses ≠ []) → exec (.pwrRestart p w) s = refuses p 0x2100 11 badState s))
    ∧ Gives .vkeepOff s (fun t => t.boot.powerGood = false ∧ t.boot.fw = false ∧ t.combs = [] ∧ t.net = [] ∧ t.ts = 0 ∧ t.grant = none
        ∧ t.flash = s.flash ∧ t.boot.fusedRaise = s.boot.fusedRaise ∧ ((s.conv k).st = 3 → (t.conv k).st = 3))

/-- The governor, Floor and the sensors (R426 to R437): a sample above the cap is counted; alerts and a coolant failure bring Floor, which ends by `FLOOR_EXIT` once no cause is in force; current steps are granted within
duty; a Frame at its threshold gives up one sixteenth of duty, at 105.0 degrees the module trips; VCORE follows the need within its bounds; a context's
energy adds to its counter in whole mJ. -/
def Obligations.GovernorAndSensors : Prop :=
  ∀ (s : State),
    (∀ inp base links mem comp : Nat, s.pwrState ≠ 2 → s.pwrState ≠ 3 →
        Gives (.governorTick inp base links mem comp) s (fun t => t.power.tick = s.power.tick + 1 ∧ t.power.inp = inp ∧ t.power.inpN = s.power.inpN + 1
          ∧ t.pwrState = s.pwrState ∧ (s.pwrCap < inp → s.power.tick + 1 ∈ t.power.aboveAt) ∧ t.combs = s.combs))
    ∧ (∀ inp base links mem comp : Nat, s.pwrState = 2 → s.pwrCap ≤ 30000 → prioOk (s.obj 0 0x2100 7 0x24) = true → base + links + mem + comp ≤ s.pwrCap → s.pwrCap ≤ s.power.pcool → s.pwrCap ≤ 3750 * s.ibcOn →
        Gives (.governorTick inp base links mem comp) s (fun t => t.pwrState = 2 ∧ t.power.linkWant = 96 ∧ t.power.memThr = false ∧ t.power.compDuty = 16 ∧ t.power.stuck = 0))
    ∧ (∀ ns : Nat, 1000 ≤ ns → s.pwrState = 2 → bit s.power.causes 0 = false →
        Gives (.pwrAlertPin ns) s (fun t => t.pwrState = 3 ∧ bit t.power.causes 0 = true ∧ t.power.alertPin = true ∧ t.power.floorCode = 0x9008#16))
    ∧ (∀ ns : Nat, ns < 1000 → (∀ k < 8, (s.conv k).alert = false) →
        Gives (.pwrAlertPin ns) s (fun t => bit t.power.causes 0 = false ∧ t.power.alertPin = false ∧ t.pwrState = s.pwrState))
    ∧ (∀ k : Nat, k < 8 → s.pwrState = 2 → bit s.power.causes 0 = false →
        Gives (.ibcAlert k true) s (fun t => t.pwrState = 3 ∧ bit t.power.causes 0 = true ∧ (t.conv k).alert = true))
    ∧ (∀ k : Nat, k < 8 → s.power.alertPin = false → (∀ j < 8, j ≠ k → (s.conv j).alert = false) →
        Gives (.ibcAlert k false) s (fun t => (t.conv k).alert = false ∧ bit t.power.causes 0 = false ∧ t.pwrState = s.pwrState))
    ∧ (s.pwrState = 3 → s.power.causes = 0 → Gives .floorExit s (fun t => t.pwrState = 2 ∧ ∃ e ∈ t.events, e.code = s.power.floorCode ∧ e.ctx = none))
    ∧ ((s.pwrState ≠ 3 ∨ s.power.causes ≠ 0) → exec .floorExit s = .next s)
    ∧ (∀ (p : Path) (v : W64), isPath p = true → writable p 0x2100 4 v s → Gives (.pwrCapWrite p v) s (fun t => t.pwrCap = v.toNat ∧ .answer p 0x2100 4 0 0 ∈ t.outs))
    ∧ (∀ c : Nat, isComb c = true → s.floorLevel = false →
        ((s.comb c).duty < s.dutyMax c → exec (.slopeGrantTick [(c, true)]) s = .next (s.setComb c { s.comb c with duty := (s.comb c).duty + 1 }))
        ∧ ((s.comb c).duty ≥ s.dutyMax c → exec (.slopeGrantTick [(c, true)]) s = .next s)
        ∧ (0 < (s.comb c).duty → exec (.slopeGrantTick [(c, false)]) s = .next (s.setComb c { s.comb c with duty := (s.comb c).duty - 1 })))
    ∧ (∀ reqs, reqs.all (fun r : Nat × Bool => isComb r.1) = true → s.floorLevel = true → exec (.slopeGrantTick reqs) s = .next s)
    ∧ (∀ tj : List Int, tj.length = 48 →
        ((∃ x ∈ tj, 1050 ≤ x) → s.pwrState ≠ 0 → s.pwrState ≠ 4 → Gives (.thermalTick tj) s (fun t => t.pwrState = 4 ∧ 0x9006#16 ∈ t.power.tripCauses))
        ∧ ((∀ x ∈ tj, x ≤ 900) → s.power.hot = [] → s.pwrState ≠ 2 → s.pwrState ≠ 3 → Gives (.thermalTick tj) s (fun t => bit t.power.causes 2 = false ∧ t.pwrState = s.pwrState
            ∧ ∀ f < 48, (t.frame f).tj = lget 0 tj f)))
    ∧ (∀ f : Nat, isFrame f = true →
        ((s.frame f).tj < (s.frameThr f * 10 : Nat) - 20 → exec (.throttleStep f) s = .next (s.setFrame f { s.frame f with duty := min 16 ((s.frame f).duty + 1) }))
        ∧ (((s.frameThr f * 10 : Nat) : Int) - 20 ≤ (s.frame f).tj → (s.frame f).tj < (s.frameThr f * 10 : Nat) → exec (.throttleStep f) s = .next s)
        ∧ (((s.frameThr f * 10 : Nat) : Int) ≤ (s.frame f).tj → Gives (.throttleStep f) s (fun t => t.frame f = { s.frame f with duty := max 1 ((s.frame f).duty - 1) }))
        ∧ (∀ need : Nat, vcoreFor (s.frame f) need ≤ 750 → exec (.avsTick f need) s = .next (s.setFrame f { s.frame f with vcore := vcoreFor (s.frame f) need }))
        ∧ (∀ need : Nat, 750 < vcoreFor (s.frame f) need → tget 0 s.power.wearMs f + 1 < 1000 → Gives (.avsTick f need) s (fun t =>
            t.frame f = { s.frame f with vcore := vcoreFor (s.frame f) need } ∧ tget 0 t.power.wearMs f = tget 0 s.power.wearMs f + 1))
        ∧ (∀ need : Nat, 750 < vcoreFor (s.frame f) need → tget 0 s.power.wearMs f = 999 → (s.frame f).wear + 1 ≠ 36000000 → Gives (.avsTick f need) s (fun t =>
            t.frame f = { s.frame f with vcore := vcoreFor (s.frame f) need, wear := (s.frame f).wear + 1 } ∧ tget 0 t.power.wearMs f = 0)))
    ∧ (∀ (tin tout : Int) (flow dp : Nat),
        ((pCool tin flow < 4000 ∨ flow < 150 ∨ 600 < tout) → s.pwrState = 2 → bit s.power.causes 3 = false →
          Gives (.coolantTick tin tout flow dp) s (fun t => t.pwrState = 3 ∧ bit t.power.causes 3 = true ∧ t.power.pcool = pCool tin flow))
        ∧ (4000 ≤ pCool tin flow → 150 ≤ flow → tout ≤ 600 →
          Gives (.coolantTick tin tout flow dp) s (fun t => bit t.power.causes 3 = false ∧ t.power.pcool = pCool tin flow ∧ t.pwrState = s.pwrState)))
    ∧ (∀ (n : Nat) (a : Activity), isCtx n = true → a.ctx = some n →
        Gives (.energyTick [a]) s (fun t => t.obj 0 0x2A00 (n + 1) 0 =
          min (s.obj 0 0x2A00 (n + 1) 0 + (tget 0 s.power.enFrac n + energyOf a) / 10 ^ 12) (2 ^ 64 - 1)
          ∧ tget 0 t.power.enFrac n = (tget 0 s.power.enFrac n + energyOf a) % 10 ^ 12))

/-- References (R443 to R446): three good windows qualify both oscillators; arbitration keeps the one nearer to nominal; the loss of edges of the one in use, or `REF_SEL`, starts a switch to the other,
which stops the compute clocks and starts them again on the other reference with 4,096 counts added to TS; a change of `SSC_OUT` parks the pins that carry the clock. -/
def Obligations.ReferencesQualifyAndSwitch : Prop :=
  ∀ (s : State),
    let r := s.refs
    (∀ diff : Int, r.arb = true → exec (.oscQualifyWindow diff) s = .next (s.setObj 0 0x2300 5 (twos 32 diff)))
    ∧ (∀ diff : Int, r.arb = false → r.stA = 0 → r.stB = 0 → diff.natAbs ≤ 5000 →
        (r.goodWins < 2 → Gives (.oscQualifyWindow diff) s (fun t => t.refs = { r with goodWins := r.goodWins + 1, wins := r.wins + 1, arb := decide (99 ≤ r.wins) }
            ∧ t.obj 0 0x2300 5 0 = twos 32 diff))
        ∧ (2 ≤ r.goodWins → Gives (.oscQualifyWindow diff) s (fun t => t.refs.stA = 1 ∧ t.refs.stB = 1 ∧ t.refs.inUse = decide (s.obj 0 0x2300 3 0 = 2))))
    ∧ (∀ diff : Int, r.arb = false → r.stA = 1 → r.stB = 1 → 5000 < diff.natAbs → Gives (.oscQualifyWindow diff) s (fun t => t.refs = { r with arb := true }))
    ∧ (∀ a b : Int, r.arb = true → r.stA = 0 → r.stB = 0 →
        (a.natAbs < b.natAbs → a.natAbs ≤ 10000 → Gives (.oscArbitrationDone a b) s (fun t => t.refs.arb = false ∧ t.refs.stA = 1 ∧ t.refs.stB = 2 ∧ t.refs.inUse = false))
        ∧ (b.natAbs < a.natAbs → b.natAbs ≤ 10000 → Gives (.oscArbitrationDone a b) s (fun t => t.refs.arb = false ∧ t.refs.stA = 2 ∧ t.refs.stB = 1 ∧ t.refs.inUse = true))
        ∧ (10000 < a.natAbs → 10000 < b.natAbs → Gives (.oscArbitrationDone a b) s (fun t => t.refs.arb = false ∧ t.refs.stA = 2 ∧ t.refs.stB = 2)))
    ∧ (∀ a b : Int, r.arb = false → exec (.oscArbitrationDone a b) s = .next s)
    ∧ (r.inUse = false → r.stA = 1 → r.stB = 1 → r.switching = 0 → exec .refEdgeLoss s =
        .next (let s1 : State := { s with refs := { r with stA := 2 } }
               let s2 := s1.report ⟨0xA002#16, 2, none, 9, 0, 0, 0, 0, 0⟩
               { s2 with refs := { r with stA := 2, switching := 1 } }))
    ∧ (r.inUse = false → r.stA = 1 → r.stB ≠ 1 → r.switching = 0 → s.pwrState ≠ 0 → s.pwrState ≠ 4 → Gives .refEdgeLoss s (fun t => t.refs.stA = 2 ∧ t.pwrState = 4))
    ∧ (r.used ≠ 1 → exec .refEdgeLoss s = .next s)
    ∧ (r.switching = 1 → Gives .refSwitchStart s (fun t => t.refs = { r with switching := 2 } ∧ t.pwrState = s.pwrState))
    ∧ (r.switching ≠ 1 → exec .refSwitchStart s = .next s)
    ∧ (r.switching = 2 → Gives .refSwitchStop s (fun t => t.refs = { r with switching := 3, stopped := true } ∧ t.ts = s.ts))
    ∧ (r.switching ≠ 2 → exec .refSwitchStop s = .next s)
    ∧ (r.switching = 3 → Gives .refSwitchRestart s (fun t => t.refs = { r with switching := 0, stopped := false, inUse := !r.inUse } ∧ t.ts = s.ts + 4096
        ∧ t.obj 0 0x2300 6 0 = min (s.obj 0 0x2300 6 0 + 1) (2 ^ 32 - 1) ∧ t.obj 0 0x2300 7 0 = min (s.obj 0 0x2300 7 0 + 4096) (2 ^ 64 - 1)))
    ∧ (r.switching ≠ 3 → exec .refSwitchRestart s = .next s)
    ∧ (∀ (p : Path) (v : W64), isPath p = true → writable p 0x2300 3 v s →
        (((v = 1 ∧ r.stA ≠ 1) ∨ (v = 2 ∧ r.stB ≠ 1)) → exec (.refSelWrite p v) s = refuses p 0x2300 3 badState s)
        ∧ (v = 1 → r.stA = 1 → r.inUse = false → exec (.refSelWrite p v) s = accepts p 0x2300 3 (s.storeObj p 0x2300 3 v))
        ∧ (v = 2 → r.stB = 1 → r.inUse = false → r.stA ≠ 0 → r.switching = 0 →
            exec (.refSelWrite p v) s = accepts p 0x2300 3 { s.storeObj p 0x2300 3 v with refs := { r with switching := 1 } }))
    ∧ (∀ (p : Path) (v : W64), isPath p = true → writable p 0x2300 8 v s →
        ((∀ n < 2, (s.pinOf n).func ≠ 2 ∧ (s.pinOf n).next ≠ some 2) → exec (.sscOutWrite p v) s = accepts p 0x2300 8 (s.storeObj p 0x2300 8 v))
        ∧ ((s.pinOf 0).func = 2 → Gives (.sscOutWrite p v) s (fun t => (t.pinOf 0).parked = true ∧ (t.pinOf 0).next = some 2 ∧ t.obj 0 0x2300 8 0 = v.toNat)))

/-- From power-good to ready (R449, R450, R453, R455 to R457, R470): `POWER_GOOD` raises KEEP and starts TS at 0; the Keeper boots the bank marked next, else the other, else waits in ROM recovery; each Frame's rails
rise in turn; BIST remaps each Frame by its ratings; calibration leaves the Memory Wafer zero; a slot that fails the Swarm twice is rated defective; the module is ready in stage 5; `RESET_N` starts again. -/
def Obligations.StartUpReachesRun : Prop :=
  ∀ (s : State),
    (s.boot.powerGood = false → exec .powerGood s = .next { s with boot := { s.boot with powerGood := true }, ts := 0, convs := tput s.convs 112 { st := 2 } })
    ∧ (s.boot.powerGood = true → exec .powerGood s = .next s)
    ∧ (∀ us : Nat, 1000 ≤ us → s.boot.powerGood = true → Gives (.resetNAssert us) s (fun t => t.boot.powerGood = true ∧ t.boot.fw = false ∧ t.ts = 0 ∧ t.combs = [] ∧ t.net = []
        ∧ t.refs = {} ∧ (t.conv 112).st = 2 ∧ t.boot.imgA = s.boot.imgA ∧ t.boot.imgB = s.boot.imgB ∧ t.flash = s.flash ∧ t.boot.fusedRaise = s.boot.fusedRaise))
    ∧ (∀ us : Nat, (us < 1000 ∨ s.boot.powerGood = false) → exec (.resetNAssert us) s = .next s)
    ∧ (s.boot.powerGood = true → s.boot.fw = false → s.stage ≠ 6 → Gives .firmwareBoot s (fun t =>
        if s.boot.bankOk s.boot.nextBank then t.boot.fw = true ∧ t.boot.bank = s.boot.nextBank
        else if s.boot.bankOk (!s.boot.nextBank) then t.boot.fw = true ∧ t.boot.bank = !s.boot.nextBank
        else t.stage = 6 ∧ t.boot.fw = false))
    ∧ ((s.boot.powerGood = false ∨ s.boot.fw = true ∨ s.stage = 6) → exec .firmwareBoot s = .next s)
    ∧ (s.stage = 1 → s.pwrState = 1 → s.boot.framesUp < 48 → Gives .frameRaise s (fun t => t.boot.framesUp = s.boot.framesUp + 1
        ∧ t.stage = (if s.boot.framesUp = 47 then 2 else 1)
        ∧ ∀ k, k = 8 + s.boot.framesUp ∨ k = 56 + s.boot.framesUp → t.conv k = if (s.conv k).st = 0 then { s.conv k with st := 1 } else s.conv k))
    ∧ ((s.stage ≠ 1 ∨ s.pwrState ≠ 1 ∨ 48 ≤ s.boot.framesUp) → exec .frameRaise s = .next s)
    ∧ (∀ rs : List SlotRating, rs.all (fun r => isFrame r.frame && decide (r.slot < 11)) = true →
        (s.stage = 2 → Gives (.bistDone rs) s (fun t => t.stage = 3 ∧ t.boot.ratings = rs ∧ t.boot.faultMap = rs
          ∧ ∀ f sl, f < 48 → sl < 10 → let m := remapOf rs f (s.railsUp f)
              (t.comb (combAt f sl)).lost = m.2.2.1.contains sl ∧ (t.comb (combAt f sl)).live.eng.fallback = m.2.2.2.contains sl
              ∧ (t.frame f).combFor = m.1 ∧ (t.frame f).regionFor = m.2.1))
        ∧ (s.stage ≠ 2 → exec (.bistDone rs) s = .next s))
    ∧ (∀ bad : List (Nat × Nat), bad.all (fun r => isFrame r.1 && decide (r.2 < 11)) = true →
        (s.stage = 3 → Gives (.mwCalibrateDone bad) s (fun t => t.stage = 4 ∧ t.boot.badRegions = bad ∧ (∀ c, (t.comb c).mw = {}) ∧ ∀ f < 48, (t.frame f).calTj = some (s.frame f).tj))
        ∧ (s.stage ≠ 3 → exec (.mwCalibrateDone bad) s = .next s))
    ∧ (∀ fw : List Byte, (s.stage = 4 → fw.length ≤ 0x100000 → exec (.swarmBroadcast fw) s = .next { s with boot := { s.boot with swarm := fw, answered := [], retried := [], dead := [] } })
        ∧ (s.stage ≠ 4 → s.dbgEnding = false → exec (.swarmBroadcast fw) s = .next s)
        ∧ (0x100000 < fw.length → exec (.swarmBroadcast fw) s = .next s))
    ∧ (∀ f slot : Nat, isFrame f = true → slot < 11 → s.stage = 4 → (f, slot) ∉ s.boot.dead →
        ((f, slot) ∉ s.boot.answered → exec (.swarmAnswer f slot true) s = .next { s with boot := { s.boot with answered := s.boot.answered ++ [(f, slot)] } })
        ∧ ((f, slot) ∉ s.boot.retried → exec (.swarmAnswer f slot false) s = .next { s with boot := { s.boot with retried := s.boot.retried ++ [(f, slot)] } })
        ∧ ((f, slot) ∈ s.boot.retried → Gives (.swarmAnswer f slot false) s (fun t => t.boot.dead = s.boot.dead ++ [(f, slot)] ∧ t.boot.ratings = s.boot.ratings ++ [⟨f, slot, .comb⟩]
            ∧ (t.frame f).combFor = (remapOf (s.boot.ratings ++ [⟨f, slot, .comb⟩]) f (s.railsUp f)).1)))
    ∧ (s.stage = 4 → s.pwrState = 1 → Gives .moduleReady s (fun t => t.stage = 5 ∧ t.pwrState = (if s.power.causes = 0 then 2 else 3)
        ∧ t.obj 0 0x2C00 2 0 = s.msSince % 2 ^ 32 ∧ ∃ e, t.events = s.events ++ [e] ∧ e.ctx = none))
    ∧ ((s.stage ≠ 4 ∨ s.pwrState ≠ 1) → exec .moduleReady s = .next s)
    ∧ (∀ (p : Path) (img : List Byte), isPath p = true → domWritable p 0x2C30 1 s → exec (.fwImageWrite p img) s =
        if Config.vendorSigned img = false then refuses p 0x2C30 1 (ownCode 0x8006) s
        else if (Config.fwVersion img).toNat < s.boot.minimum then refuses p 0x2C30 1 (ownCode 0xB007) s
        else if s.stage = 6 then accepts p 0x2C30 1 (s.storeImage s.boot.nextBank img).resetN
        else match s.maintAsk { ticket := 0, cls := 3, deferred := false, scope := 0 } with
          | (none, s1) => refuses p 0x2C30 1 badState s1
          | (some e, s1) => accepts p 0x2C30 1 (if e.deferred then (s1.maintResult e.ticket 1 0).setDom 0 0x2C30 1 img else (s1.maintResult e.ticket 0 0).storeImage (!s.boot.bank) img))
    ∧ (∀ (p : Path) (v : W64), isPath p = true → writable p 0x2C30 3 v s → exec (.fwCommit p v) s =
        accepts p 0x2C30 3 { s with boot := { s.boot with fusedRaise := BitVec.ofNat 8 (max s.boot.fusedRaise.toNat (s.boot.version s.boot.bank)) } })

/-- Ports and the roll call (R458, R460 to R463, R498, R499): light trains a port's lanes, eight or more key it; a neighbour that does not fit the plan takes the port down; the first token is taken and forwarded, a
second one is held; reports add up and go to the parent; the count from the parent ends the roll call and sets TS; TS follows the parent by at most one count in 2,500. -/
def Obligations.PortsTrainAndRollCall : Prop :=
  ∀ (q : Nat) (s : State), isTyPort q = true →
    let t0 := s.port q
    (∀ lanes : List Nat, s.optOn q = true → (t0.st = 0 ∨ t0.st = 1) →
        let ok := (List.range 96).filter (fun l => lanes.contains l)
        (ok.length < 8 → exec (.portLightReceived q lanes) s = .next ((s.setPort q { t0 with light := true, lanes := ok.map (fun l => (l, 2)) }).portDown q))
        ∧ (8 ≤ ok.length → Gives (.portLightReceived q lanes) s (fun t => (t.port q).st = 2 ∧ (t.port q).lanes = ok.map (fun l => (l, 2)) ∧ (t.port q).kx.running = true)))
    ∧ (∀ lanes : List Nat, (s.optOn q = false ∨ (t0.st ≠ 0 ∧ t0.st ≠ 1)) → exec (.portLightReceived q lanes) s = .next s)
    ∧ (t0.st = 1 → t0.light = false → exec (.portUnconnected q) s = .next (s.setPort q { t0 with st := 0, lanes := [] }))
    ∧ ((t0.st ≠ 1 ∨ t0.light = true) → exec (.portUnconnected q) s = .next s)
    ∧ (t0.st = 4 → s.optOn q = true → exec (.portTrainRetry q) s = .next (s.setPort q { t0 with st := 1, lanes := (List.range 96).map (fun l => (l, 1)), light := false }))
    ∧ ((t0.st ≠ 4 ∨ s.optOn q = false) → exec (.portTrainRetry q) s = .next s)
    ∧ (∀ (p : Path) (v : W64), isPath p = true → writable p 0x2C10 1 v s →
        ((∀ k < 6, (s.port k).st ≠ 3) → (bit v.toNat 31 = false ∨ v.toNat % 2 ^ 14 ≠ 0) → exec (.rollPlanWrite p v) s = accepts p 0x2C10 1 (s.storeObj p 0x2C10 1 v))
        ∧ (bit v.toNat 31 = true → v.toNat % 2 ^ 14 = 0 → Gives (.rollPlanWrite p v) s (fun t => t.plan = v.toNat ∧ t.boot.isRoot = true ∧ t.boot.running = true ∧ t.boot.reported = false
            ∧ t.boot.asked = [0, 2, 4] ∧ t.boot.counted = 0 ∧ t.boot.remain = 1000 * s.obj 0 0x2C10 2 85 ∧ .answer p 0x2C10 1 0 0 ∈ t.outs)))
    ∧ (∀ x : Neighbour, (t0.st ≠ 3 → exec (.neighbourCheck q x) s = .next s)
        ∧ (t0.st = 3 → s.hasPlan = false → exec (.neighbourCheck q x) s = .next (s.out (.keeper q 0x20 [])))
        ∧ (t0.st = 3 → s.hasPlan = true → x.noPlan = true → exec (.neighbourCheck q x) s = .next s)
        ∧ (t0.st = 3 → s.hasPlan = true → x.noPlan = false → s.neighbourOk q x = true → Gives (.neighbourCheck q x) s (fun t => t.port q = { t0 with checked := true, failed := false }
            ∧ bit (t.obj 0 0x2C10 3 0) (19 + q) = false))
        ∧ (t0.st = 3 → s.hasPlan = true → x.noPlan = false → s.neighbourOk q x = false → Gives (.neighbourCheck q x) s (fun t => (t.port q).st = 4 ∧ (t.port q).failed = true
            ∧ bit (t.obj 0 0x2C10 3 0) (19 + q) = true)))
    ∧ (∀ remain : Nat, (s.portPasses q = false → exec (.rollToken q remain) s = .next s)
        ∧ (s.portPasses q = true → s.boot.running = true → exec (.rollToken q remain) s = .next (s.out (.keeper q 0x23 [])))
        ∧ (s.portPasses q = true → s.boot.running = false → Gives (.rollToken q remain) s (fun t => t.boot.parent = some q ∧ t.boot.running = true ∧ t.boot.remain = remain - 1
            ∧ t.boot.asked = [0, 2, 4] ∧ .keeper q 0x22 [] ∈ t.outs ∧ ∀ k ∈ [0, 2, 4], s.portPasses k = true → .keeper k 0x21 (leBytes 4 (remain - 1)) ∈ t.outs)))
    ∧ (∀ n : Nat, s.boot.running = true → s.boot.reported = false →
        (∀ k, k ≠ q → s.boot.asked = [q, k] → exec (.rollReport q n) s = .next { s with boot := { s.boot with
            asked := [k], counted := s.boot.counted + n, kids := if n = 0 then s.boot.kids else s.boot.kids ++ [q] } })
        ∧ (∀ k, s.boot.asked = [q] → s.boot.parent = some k → Gives (.rollReport q n) s (fun t => t.boot.reported = true ∧ t.boot.counted = s.boot.counted + n
            ∧ .keeper k 0x24 (leBytes 4 (s.boot.counted + n + 1)) ∈ t.outs))
        ∧ (s.boot.asked = [q] → s.boot.parent = none → s.boot.isRoot = true → Gives (.rollReport q n) s (fun t => t.boot.rolled = true ∧ t.boot.running = false ∧ t.obj 0 0x2500 4 0 = s.planTorus
            ∧ (t.obj 0 0x2C10 3 0) % 16 = (if s.boot.counted + n + 1 = s.planCount then 3 else 4) ∧ fld (t.obj 0 0x2C10 3 0) 4 15 = (s.boot.counted + n + 1) % 2 ^ 15)))
    ∧ (∀ n : Nat, (s.boot.running = false ∨ s.boot.reported = true ∨ q ∉ s.boot.asked) → exec (.rollReport q n) s = .next s)
    ∧ (∀ k, s.boot.running = true → s.boot.reported = false → s.boot.parent = some k →
        exec .rollDeadline s = .next (State.out { s with boot := { s.boot with reported := true } } (.keeper k 0x24 (leBytes 4 (s.boot.counted + 1)))))
    ∧ ((s.boot.running = false ∨ s.boot.reported = true) → exec .rollDeadline s = .next s)
    ∧ (∀ (n : Nat) (pts : W64), (s.boot.running = true → s.boot.parent ≠ none → Gives (.rollCount n pts) s (fun t => t.ts = pts ∧ t.boot.rolled = true ∧ t.boot.running = false
          ∧ t.obj 0 0x2500 4 0 = s.planTorus ∧ (t.obj 0 0x2C10 3 0) % 16 = (if n = s.planCount then 3 else 4)))
        ∧ ((s.boot.running = false ∨ s.boot.parent = none) → exec (.rollCount n pts) s = .next s))
    ∧ (∀ (p : Path) (v : W64), isPath p = true → writable p 0x2C10 4 v s →
        (s.isOrigin = false → exec (.rollStart p v) s = refuses p 0x2C10 4 badState s)
        ∧ (s.isOrigin = true → Gives (.rollStart p v) s (fun t => t.boot.isRoot = true ∧ t.boot.running = true ∧ t.boot.counted = 0 ∧ .answer p 0x2C10 4 0 0 ∈ t.outs)))
    ∧ (∀ pts : W64, s.boot.rolled = true → s.boot.parent ≠ none → s.boot.slewAt = none →
        (s.ts < pts → exec (.tsSyncTick pts) s = .next { s with ts := s.ts + 1, boot := { s.boot with slewAt := some s.ts } })
        ∧ (pts < s.ts → exec (.tsSyncTick pts) s = .next { s with boot := { s.boot with slewAt := some s.ts, tsHold := true } }))
    ∧ (∀ (pts x : W64), s.boot.slewAt = some x → (s.ts - x).toNat < 2500 → exec (.tsSyncTick pts) s = .next s)
    ∧ ((s.boot.rolled = false ∨ s.boot.parent = none) → ∀ pts : W64, exec (.tsSyncTick pts) s = .next s)

/-- Maintenance (R465, R467, R469, R471): a request of a class the operator may not ask for, or with no such target, is refused with 0xC00D; one that the queue takes is started or deferred; an activity that ends leaves
the queue; a spare Comb takes over with zero state; a copied region is served by the spare region. -/
def Obligations.MaintenanceRuns : Prop :=
  ∀ (s : State),
    (∀ (p : Path) (v : W64), isPath p = true → writable p 0x2C20 1 v s →
        (maintReqOk v.toNat = false → exec (.maintReq p v) s = refuses p 0x2C20 1 badValue s)
        ∧ (maintReqOk v.toNat = true → exec (.maintReq p v) s =
            match s.maintAsk { ticket := 0, cls := v.toNat % 8, deferred := false, scope := fld v.toNat 3 20 } with
            | (none, s1) => refuses p 0x2C20 1 badState (s1.maintResult s1.ticket 2 0xC00E)
            | (some e, s1) => accepts p 0x2C20 1 (s1.maintResult e.ticket (b2n e.deferred) 0)))
    ∧ (∀ (t : Nat) (e : Maint), s.maint.find? (fun e => e.ticket = t && !e.deferred) = some e →
        (e.cls = 1 → exec (.maintActivityEnd t true) s = .next ((s.maintEnd t).maintResult t 3 0))
        ∧ exec (.maintActivityEnd t false) s = .next ((s.maintEnd t).maintResult t 4 0)
        ∧ (e.cls = 0 → exec (.maintActivityEnd t true) s = .next (((s.scrubPass e.comb).maintEnd t).maintResult t 3 0))
        ∧ ((e.cls = 2 ∨ e.cls = 4 ∨ e.cls = 5) → exec (.maintActivityEnd t true) s = .next s))
    ∧ (∀ (t : Nat) (ok : Bool), s.maint.find? (fun e => e.ticket = t && !e.deferred) = none → exec (.maintActivityEnd t ok) s = .next s)
    ∧ (∀ (c : Nat) (region : Bool), isComb c = true →
        let s0 := s.maintKick
        (s0.remapEntry c region = none → exec (.spareRemap c region) s = .next s)
        ∧ (∀ e, s0.remapEntry c region = some e → region = true →
            (s0.regionFree (frameOf c) = true → exec (.spareRemap c region) s = .next (s0.setFrame (frameOf c) { s0.frame (frameOf c) with copyTo := some (slotOf c) }))
            ∧ (s0.regionFree (frameOf c) = false → exec (.spareRemap c region) s = .next ((s0.maintEnd e.ticket).maintResult e.ticket 4 0)))
        ∧ (∀ e, s0.remapEntry c region = some e → region = false → (s.frame (frameOf c)).railLost = false → s.spareFree (frameOf c) = true → s.frameOn (frameOf c) = true →
            Gives (.spareRemap c region) s (fun t => (t.comb c).live = {} ∧ (t.comb c).lost = false ∧ (t.comb c).failing = false ∧ (t.frame (frameOf c)).combFor = some (slotOf c)))
        ∧ (∀ e, s0.remapEntry c region = some e → region = false → (s.frame (frameOf c)).railLost = false → s.spareFree (frameOf c) = false →
            exec (.spareRemap c region) s = .next ((s0.maintEnd e.ticket).maintResult e.ticket 4 0)))
    ∧ (∀ f : Nat, isFrame f = true →
        ((s.frame f).copyTo = none → exec (.spareRegionCopyDone f) s = .next s)
        ∧ (∀ sl, (s.frame f).copyTo = some sl → Gives (.spareRegionCopyDone f) s (fun t => (t.frame f).copyTo = none ∧ (t.frame f).regionFor = some sl
            ∧ (t.comb (combAt f sl)).mw.mem.bytes = (s.comb (combAt f sl)).mw.mem.bytes ∧ (t.comb (combAt f sl)).mw.spareRows = [] ∧ (t.comb (combAt f sl)).mw.laneSpare = [])))

/-! The Management Port, the dictionary, counters, debug, pins -/

/-- The Management Port and JTAG (R479 to R485, R490, R510): an SDO upload of 1 to 4 bytes and an expedited download are answered at once, or aborted with the refusal's code; a transfer left for its time
ends with 0x0504_0000; NMT sets the state; LSS sets the node number; TPDOs, heartbeats and EMCY frames go out on every enabled bus; `DBG_ACCESS` writes a debug object. -/
def Obligations.ManagementPortServes : Prop :=
  ∀ (b : Nat) (s : State), b < 2 →
    (∀ f : List Byte, s.sdoOn b f = false → exec (.sdoRequest b f) s = .next s)
    ∧ (∀ idx sub : Nat, idx < 65536 → sub < 256 → s.mgmt.sdo = none →
        (let f := sdoHead 0x40 idx sub ++ List.replicate 4 0;
          s.sdoOn b f = true → s.dbgWaits .mgmt idx sub = false →
            (∀ l s1, s.sdoLoad idx sub = (.ok l, s1) → 1 ≤ l.length → l.length ≤ 4 → exec (.sdoRequest b f) s = .next (s1.sdoOut b (sdoHead (0x43 + (4 - l.length) * 4) idx sub ++ l)))
            ∧ (∀ r s1, s.sdoLoad idx sub = (.error r, s1) → exec (.sdoRequest b f) s = .next (s1.sdoAbort b idx sub r.abort)))
        ∧ (∀ d : List Byte, 1 ≤ d.length → d.length ≤ 4 →
          let f := sdoHead (0x23 + (4 - d.length) * 4) idx sub ++ d ++ List.replicate (4 - d.length) 0
          s.sdoOn b f = true → exec (.sdoRequest b f) s = .next (match s.sdoStore idx sub d with
            | (none, s1) => s1.sdoOut b (sdoHead 0x60 idx sub)
            | (some r, s1) => s1.sdoAbort b idx sub r.abort)))
    ∧ (∀ x : Sdo, s.mgmt.sdo = some x → exec .sdoTimeout s =
        .next (State.sdoAbort { s with mgmt := { s.mgmt with sdo := none } } x.bus x.idx x.sub 0x05040000#32))
    ∧ (s.mgmt.sdo = none → exec .sdoTimeout s = .next s)
    ∧ (∀ node : Nat, s.mgmt.nmt ≠ 0 → s.pathOpen .mgmt = true → (node = 0 ∨ node = s.mgmt.node) →
        exec (.nmtCommand 1 node) s = .next { s with mgmt := { s.mgmt with nmt := 5 } }
        ∧ exec (.nmtCommand 2 node) s = .next { s with mgmt := { s.mgmt with nmt := 4 } }
        ∧ exec (.nmtCommand 128 node) s = .next { s with mgmt := { s.mgmt with nmt := 127 } }
        ∧ Gives (.nmtCommand 130 node) s (fun t => t.mgmt.nmt = 127 ∧ t.mgmt.node = s.obj 0 0x2010 1 127 ∧ t.mgmt.busEn = s.obj 0 0x2010 4 3 ∧ t.mgmt.sdo = none)
        ∧ exec (.nmtCommand 129 node) s = exec (.nmtCommand 130 node) s)
    ∧ (∀ cs node : Nat, node ≠ 0 → node ≠ s.mgmt.node → exec (.nmtCommand cs node) s = .next s)
    ∧ (s.mgmt.nmt ≠ 0 → s.pathOpen .mgmt = true →
        (∀ n : Byte, s.mgmt.lss = 1 → 1 ≤ n.toNat → n.toNat ≤ 127 → exec (.lssCommand (0x11 :: n :: List.replicate 6 0)) s = .next ((s.setObj 0 0x2010 1 n.toNat).lssOut [0x11, 0]))
        ∧ (∀ n : Byte, s.mgmt.lss = 1 → 127 < n.toNat → exec (.lssCommand (0x11 :: n :: List.replicate 6 0)) s = .next (s.lssOut [0x11, 1]))
        ∧ (s.mgmt.lss = 0 → exec (.lssCommand (0x11 :: List.replicate 7 0)) s = .next s)
        ∧ (∀ v : W32, s.mgmt.lss = 0 → s.mgmt.lssMatch = 3 → v.toNat = s.objVal .mgmt 0x1018 4 →
            exec (.lssCommand (0x43 :: leBytes 4 v.toNat ++ List.replicate 3 0)) s = .next (State.lssOut { s with mgmt := { s.mgmt with lss := 1, lssMatch := 0 } } [0x44])))
    ∧ (∀ k : Nat, k < 4 → ((s.mgmt.nmt ≠ 5 ∨ s.tpdoMap k = []) → exec (.tpdoTimerExpire k) s = .next s)
        ∧ (∀ l s1, s.mgmt.nmt = 5 → s.pathOpen .mgmt = true → s.tpdoMap k ≠ [] →
            let cob := s.obj 0 (0x1800 + k) 1 (s.objDefault (0x1800 + k) 1)
            bit cob 31 = false → s.readAll .mgmt ((s.tpdoMap k).map (fun v => (v / 65536, fld v 8 8))) = (.ok l, s1) →
            exec (.tpdoTimerExpire k) s = .next (s1.canOut (cob % 2048) (((s.tpdoMap k).zip l).flatMap (fun (q : Nat × W64) => leBytes (q.1 % 256 / 8) q.2.toNat)))))
    ∧ (s.mgmt.nmt ≠ 0 → s.pathOpen .mgmt = true → s.obj 0 0x1017 0 1000 ≠ 0 → exec .heartbeatProduce s = .next (s.canOut (0x700 + s.mgmt.node) (leBytes 1 s.mgmt.nmt)))
    ∧ (s.obj 0 0x1017 0 1000 = 0 → exec .heartbeatProduce s = .next s)
    ∧ (∀ q l, s.mgmt.emcy = q :: l → s.pathOpen .mgmt = true →
        ((s.mgmt.nmt = 5 ∨ s.mgmt.nmt = 127) → exec .emcySend s = .next (State.canOut { s with mgmt := { s.mgmt with emcy := l } } (0x80 + s.mgmt.node) (s.emcyFrame q)))
        ∧ (s.mgmt.nmt = 4 → exec .emcySend s = .next s))
    ∧ (s.mgmt.emcy = [] → exec .emcySend s = .next s)
    ∧ Gives (.canBusOff b) s (fun t => t.mgmt.off b = true ∧ t.mgmt.off (1 - b) = s.mgmt.off (1 - b) ∧ t.mgmt.busEn = s.mgmt.busEn)
    ∧ Gives (.canBusRecover b) s (fun t => t.mgmt.off b = false ∧ t.mgmt.off (1 - b) = s.mgmt.off (1 - b) ∧ t.mgmt.busEn = s.mgmt.busEn)
    ∧ (∀ (cob : Nat) (l : List Byte), s.canOut cob l = List.foldl (fun t k => if bit s.mgmt.busEn k && !(s.mgmt.off k) then t.out (.can k cob l) else t) s [0, 1])
    ∧ (∀ v : W64, writable .jtag 0x2B20 1 v { s with tapDbg := true } → Gives (.jtagUpdateDr (BitVec.ofNat 73 (257 + v.toNat * 512))) s (fun t => t.tapDbg = true
        ∧ t.obj 20 0x2B20 1 0 = v.toNat ∧ (t.dbgOf .jtag).last = v ∧ (t.dbgOf .jtag).sub = 1 ∧ (t.dbgOf .jtag).refused = false))
    ∧ (s.boot.fw = false → ∀ dr, exec (.jtagUpdateDr dr) s = .next { s with tapDbg := true })
    ∧ exec .jtagTrst s = .next { s with tapDbg := false }

/-- The dictionary (R473, R476, R477, R487 to R494): a write that R490's tests pass has the effect of its object's rule; one that they do not is refused with the code of the first test it fails, recorded and
answered; the DOMAIN channel stages a value and applies it whole; a snapshot is taken of its listed objects; the boot flash takes the value of a persistent object. -/
def Obligations.DictionaryWritesDecide : Prop :=
  ∀ (p : Path) (s : State), isPath p = true →
    (∀ (idx sub : Nat) (v : W64),
        (writable p idx sub v s →
          (∀ t, scalarEff p idx sub v s = (none, t) → exec (.objectWrite p idx sub v) s = accepts p idx sub t)
          ∧ (∀ r t, scalarEff p idx sub v s = (some r, t) → exec (.objectWrite p idx sub v) s = refuses p idx sub r t))
        ∧ (∀ r, s.pathOpen p = true → s.objCheck p idx sub true = .error r → exec (.objectWrite p idx sub v) s = refuses p idx sub r s)
        ∧ (∀ row, s.pathOpen p = true → s.objCheck p idx sub true = .ok row → row.ty.isDom = false →
            (2 ^ row.ty.width ≤ v.toNat → exec (.objectWrite p idx sub v) s = refuses p idx sub badLength s)
            ∧ (v.toNat < 2 ^ row.ty.width → objRange idx sub v.toNat = false → exec (.objectWrite p idx sub v) s = refuses p idx sub badValue s)
            ∧ (v.toNat < 2 ^ row.ty.width → objRange idx sub v.toNat = true → s.objOpen p idx sub = false → exec (.objectWrite p idx sub v) s = refuses p idx sub badState s)))
    ∧ (∀ v : W64, writable p 0x2100 9 v s → exec (.objectWrite p 0x2100 9 v) s = accepts p 0x2100 9 (s.setObj 0 0x2100 9 v.toNat))
    ∧ (∀ v : W64, writable p 0x2091 3 v s → exec (.ctxSelWrite p v) s = accepts p 0x2091 3 (s.setObj (pathInst p) 0x2091 3 v.toNat))
    ∧ (∀ l : List Byte, domWritable p 0x2090 1 s →
        ((l.length % 4 ≠ 0 ∨ 256 < l.length) → exec (.snapListWrite p l) s = refuses p 0x2090 1 badLength s)
        ∧ (l.length % 4 = 0 → l.length ≤ 256 → (words32 l).findSome? (s.snapBad p) = none → exec (.snapListWrite p l) s =
            accepts p 0x2090 1 (((s.setDom (pathInst p) 0x2090 1 l).setDom (pathInst p) 0x2090 4 (List.replicate (2 * l.length) 0)).setObj (pathInst p) 0x2090 3 0))
        ∧ (∀ r, l.length % 4 = 0 → l.length ≤ 256 → (words32 l).findSome? (s.snapBad p) = some r → exec (.snapListWrite p l) s = refuses p 0x2090 1 r s))
    ∧ (∀ v : W64, writable p 0x2090 2 v s →
        (∀ l s1, s.readAll p (snapEntries (s.dom (pathInst p) 0x2090 1)) = (.ok l, s1) → exec (.snapTake p v) s =
            accepts p 0x2090 2 ((s1.setDom (pathInst p) 0x2090 4 (bytes64 l)).setObj (pathInst p) 0x2090 3 s.ts.toNat))
        ∧ (∀ r s1, s.readAll p (snapEntries (s.dom (pathInst p) 0x2090 1)) = (.error r, s1) → exec (.snapTake p v) s = refuses p 0x2090 2 r s))
    ∧ (∀ idx sub : Nat, (persistent idx sub = false → exec (.persistStore idx sub) s = .next s)
        ∧ (∀ v, persistent idx sub = true → isDomObj idx sub = false → tget none s.objs (okey 0 idx sub) = some v →
            exec (.persistStore idx sub) s = .next { s with flash := tput s.flash (okey 0 idx sub) (some v) })
        ∧ (persistent idx sub = true → isDomObj idx sub = true → exec (.persistStore idx sub) s = .next { s with flashDoms := tput s.flashDoms (okey 0 idx sub) (s.dom 0 idx sub) }))
    ∧ (∀ h : Nat, isHl h = true → s.pathOpen (.hl h) = true →
        let x := s.hlp h
        (∀ v : W64, v.toNat < 2 ^ 25 → bit v.toNat 24 = true → exec (.dwSelWrite h v) s = .next (s.setHlp h { x with
            dwSel := v.setWidth 32, dwLen := 0, dwOff := 0, dwStat := 0, dwBuf := [], dwStage := [], dwParts := [] }))
        ∧ (∀ v : W64, 2 ^ 25 ≤ v.toNat → Gives (.dwSelWrite h v) s (fun t => (t.hlp h).dwStat = dwWord 3 0xC00D#16))
        ∧ (∀ (len off : Nat) (buf : List Byte), x.dwStat.toNat % 4 ≠ 3 → off % 65536 = 0 →
            (bit x.dwSel.toNat 24 = true → buf.length ≤ 65536 → len ≤ 0x1000000 → off + buf.length ≤ len → exec (.dwGoTransfer h len off buf) s = .next (s.setHlp h { x with
                dwLen := len, dwOff := off, dwBuf := buf, dwStat := dwWord 2 0, dwStage := (lfit 0 off x.dwStage) ++ buf ++ x.dwStage.drop (off + buf.length), dwParts := (off, buf.length) :: x.dwParts.filter (fun q => q.1 != off) }))
            ∧ (bit x.dwSel.toNat 24 = false → exec (.dwGoTransfer h len off buf) s = .next (s.setHlp h { x with
                dwOff := off, dwBuf := (x.dwStage.drop off).take 65536, dwStat := dwWord 2 0 })))
        ∧ (∀ (len off : Nat) (buf : List Byte), x.dwStat.toNat % 4 = 3 → exec (.dwGoTransfer h len off buf) s = .next s ∧ exec (.dwGoCommit h) s = .next s)
        ∧ (bit x.dwSel.toNat 24 = true → x.dwStat.toNat % 4 ≠ 3 → x.dwLen ≤ (x.dwParts.map (·.2)).foldl (· + ·) 0 →
            (∀ s1, s.domWrite (.hl h) (x.dwSel.toNat % 65536) (fld x.dwSel.toNat 16 8) (x.dwStage.take x.dwLen) = (none, s1) →
              exec (.dwGoCommit h) s = .next (s1.setHlp h { s1.hlp h with dwStat := dwWord 2 0, dwStage := [], dwParts := [] }))
            ∧ (∀ r s1, s.domWrite (.hl h) (x.dwSel.toNat % 65536) (fld x.dwSel.toNat 16 8) (x.dwStage.take x.dwLen) = (some r, s1) →
              exec (.dwGoCommit h) s = .next (s1.setHlp h { s1.hlp h with dwStat := dwWord 3 r.code })))
        ∧ (bit x.dwSel.toNat 24 = true → x.dwStat.toNat % 4 ≠ 3 → (x.dwParts.map (·.2)).foldl (· + ·) 0 < x.dwLen →
            Gives (.dwGoCommit h) s (fun t => (t.hlp h).dwStat = dwWord 3 0xC00D#16)))

/-- Counters, trace and gating (R500 to R509): a latch takes every counter of the caller's scope at one instant; a selection must name a counter that exists; the selected live counter takes a written value and loses its
sticky bit; a trace buffer is 1 KiB aligned and lies within the Memory Wafer; the oldest queued record is written in its place; a gated unit remembers since when, and its wake tells. -/
def Obligations.CountersTraceAndGating : Prop :=
  ∀ (c : Nat) (s : State), isComb c = true →
    (∀ (p : Path) (v : W64), isPath p = true →
        (writable p 0x2A00 18 v s → exec (.pcLatch p v) s = accepts p 0x2A00 18 (s.latch p))
        ∧ (writable p 0x2A20 1 v s →
            (selOk p s v.toNat = true → exec (.pcSelWrite p v) s = accepts p 0x2A20 1 (s.setObj (pathInst p) 0x2A20 1 v.toNat))
            ∧ (selOk p s v.toNat = false → exec (.pcSelWrite p v) s = refuses p 0x2A20 1 badValue s)))
    ∧ ((s.latch .mgmt).obj 0 0x2A00 19 0 = s.ts.toNat ∧ ((s.latch .mgmt).comb c).opLatch = (s.comb c).live.perf ++ (s.comb c).router)
    ∧ (∀ v : W64, s.callerComb .mgmt (fld (s.pcSel .mgmt) 3 10) = some c → s.pcSel .mgmt % 8 ≠ 6 →
        let k := perfKey (s.pcSel .mgmt % 8) (fld (s.pcSel .mgmt) 13 13) (fld (s.pcSel .mgmt) 26 4)
        (writable .mgmt 0x2A20 3 v s → exec (.pcValueWrite .mgmt v) s = accepts .mgmt 0x2A20 3 (s.setArea c { s.area c with
            perf := tput (s.area c).perf k { tget {} (s.area c).perf k with val := v } }))
        ∧ (writable .mgmt 0x2A20 4 v s → exec (.pcStickyClear .mgmt v) s = accepts .mgmt 0x2A20 4 (s.setArea c { s.area c with
            perf := tput (s.area c).perf k { tget {} (s.area c).perf k with sticky := false } })))
    ∧ (∀ (n : Nat) (v : W64), isCtx n = true →
        (writable (.tenant n) 0x2B00 1 v s →
          let w := v.toNat
          let old := s.obj (n + 1) 0x2B00 1 0
          ((trBase w % 1024 ≠ 0 ∨ trSize w = 0 ∨ 49152 < trSize w ∨ 0x3000000 < trBase w + 1024 * trSize w) → exec (.trCfgWrite n 1 v) s = refuses (.tenant n) 0x2B00 1 badValue s)
          ∧ (trBase w % 1024 = 0 → trSize w ≠ 0 → trSize w ≤ 49152 → trBase w + 1024 * trSize w ≤ 0x3000000 →
              (trEn old = true → (trBase w ≠ trBase old ∨ trSize w ≠ trSize old) → exec (.trCfgWrite n 1 v) s = refuses (.tenant n) 0x2B00 1 badState s)
              ∧ (trEn w = false → trEn old = false → exec (.trCfgWrite n 1 v) s = accepts (.tenant n) 0x2B00 1 (s.setObj (n + 1) 0x2B00 1 w))))
        ∧ (writable (.tenant n) 0x2B00 2 v s → exec (.trCfgWrite n 2 v) s = accepts (.tenant n) 0x2B00 2 (s.setObj (n + 1) 0x2B00 2 v.toNat)))
    ∧ (∀ (n : Nat) (r : TrRec) (l : List TrRec), s.refs.stopped = false → s.residentAt c = some n → (s.area c).trQ = r :: l →
        let cfg := s.obj (n + 1) 0x2B00 1 0
        let a := s.area c
        (trEn cfg = false → exec (.traceRecordWrite c) s = .next (s.setArea c { a with trQ := l }))
        ∧ (trEn cfg = true → bit cfg 42 = true → a.trWritten = trRecords cfg → exec (.traceRecordWrite c) s =
            .next (s.setArea c { a with trQ := l, trLost := a.trLost + 1, trLostAll := a.trLostAll + 1 }))
        ∧ (trEn cfg = true → bit cfg 42 = false → a.trLost = 0 → (a.trWritten + 1) % 4 ≠ 0 → exec (.traceRecordWrite c) s =
            .next ((s.setArea c { a with trQ := l, trLost := 0, trWritten := a.trWritten + 1 }).performWrite (some n) c 0
              (trBase cfg + 64 + 16 * (a.trWritten % max 1 (trRecords cfg))) r.bytes (s.epLow (some n))).1))
    ∧ ((s.refs.stopped = true ∨ s.residentAt c = none ∨ (s.area c).trQ = []) → exec (.traceRecordWrite c) s = .next s)
    ∧ (∀ k ix : Nat, gateUnitOk k ix = true → s.refs.stopped = false →
        (s.unitIdle c k ix = true → tget none (s.area c).gated (gateKey k ix) = none → Gives (.unitGate c k ix) s (fun t => tget none (t.area c).gated (gateKey k ix) = some s.ts))
        ∧ (s.unitIdle c k ix = false → exec (.unitGate c k ix) s = .next s)
        ∧ (tget none (s.area c).gated (gateKey k ix) = none → exec (.unitWake c k ix) s = .next s)
        ∧ (∀ x, tget none (s.area c).gated (gateKey k ix) = some x → Gives (.unitWake c k ix) s (fun t => tget none (t.area c).gated (gateKey k ix) = none)))

/-- Debug accesses (R510 to R514): a peek gives what memory holds and is held while the Comb's Engine runs; counters are not written; a halted slot's registers are read and written; a halt, a resume and a step act on the
unit that `DBG_RUN` names, and a peek that stays held is refused with 0xC00E. Pins (R526 to R532): a change of function parks the pin, at the level `PARK` names, until it is handed over; an output follows `OUT`; an edge that stays high for 100 ns is counted with its time; a step-sync pulse ends
on every pin that carries it; the console takes characters under a vendor's grant only. -/
def Obligations.DebugAccessesAndPins : Prop :=
  (∀ (p : Path) (s : State), isPath p = true →
     (s.dbgWaits p 0x2B20 2 = true → exec (.dbgMemRead p) s = .next (s.setDbg p { s.dbgOf p with wait := true }))
     ∧ (∀ t : Tgt, readable p 0x2B20 2 s → s.dbgWaits p 0x2B20 2 = false → s.dbgTarget p = .ok t →
         (t.space = 3 → exec (.dbgMemRead p) s = .next ((s.dbgCode p 0).out (.answer p 0x2B20 2 0 (BitVec.ofNat 64 ((s.area t.c).counter (t.off / 8))))))
         ∧ (t.space = 1 → exec (.dbgMemRead p) s = .next ((s.dbgCode p 0).out (.answer p 0x2B20 2 0
             (BitVec.ofNat 64 (leNat (cellsRead ((s.area t.c).cellMem (fld t.off 18 10)) (t.off % 2 ^ 18) 8)))))))
     ∧ (readable p 0x2B20 2 s → s.dbgWaits p 0x2B20 2 = false → s.dbgTarget p = .error debugDenied → exec (.dbgMemRead p) s = refuses p 0x2B20 2 debugDenied (s.dbgCode p 0x800A#16))
     ∧ (∀ v : W64, writable p 0x2B20 2 v s →
         (∀ r, s.dbgTarget p = .error r → exec (.dbgMemWrite p v) s = refuses p 0x2B20 2 r (s.dbgCode p r.code))
         ∧ (∀ t : Tgt, s.dbgTarget p = .ok t →
           (t.space = 3 → exec (.dbgMemWrite p v) s = refuses p 0x2B20 2 (ownCode 0x4403) (s.dbgCode p 0x4403#16))
           ∧ (t.space = 4 → exec (.dbgMemWrite p v) s = refuses p 0x2B20 2 (ownCode 0x4504) (s.dbgCode p 0x4504#16))
           ∧ (∀ s1, t.space ≤ 2 → s.lockWait t = false → s.performWrite (pathCtx p) t.c t.space t.off (leBytes 8 v.toNat) (s.epLow (pathCtx p)) = (s1, none) →
               exec (.dbgMemWrite p v) s = accepts p 0x2B20 2 (s1.dbgCode p 0))))
     ∧ (∀ c k sl r : Nat, let q := s.obj (pathInst p) 0x2B20 3 0
         q % 8 = 0 → fld q 13 13 = 5 * k + sl → sl < 4 → fld q 26 12 = r → r < 32 → s.dbgUnit p q = .ok c → s.slotStill c k sl = true →
         (readable p 0x2B20 4 s → exec (.dbgRegRead p) s = .next ((s.dbgCode p 0).out (.answer p 0x2B20 4 0 ((((s.worker c k).slot sl).s r).setWidth 64))))
         ∧ (∀ v : W64, writable p 0x2B20 4 v s → exec (.dbgRegWrite p v) s = accepts p 0x2B20 4
             (State.dbgCode (s.setWorker c k ((s.worker c k).setSlot sl (((s.worker c k).slot sl).setS r (v.setWidth 32)))) p 0)))
     ∧ (∀ c k sl r : Nat, let q := s.obj (pathInst p) 0x2B20 3 0
         q % 8 = 0 → fld q 13 13 = 5 * k + sl → sl < 4 → fld q 26 12 = r → r < 32 → s.dbgUnit p q = .ok c → s.slotStill c k sl = false →
         ∀ v : W64, writable p 0x2B20 4 v s → exec (.dbgRegWrite p v) s = refuses p 0x2B20 4 badState (s.dbgCode p 0xC00E#16))
     ∧ ((s.dbgOf p).wait = false → exec (.peekTimeout p) s = .next s)
     ∧ ((s.dbgOf p).wait = true → p ≠ .mgmt → exec (.peekTimeout p) s = refuses p 0x2B20 2 badState (s.dbgCode p 0xC00E#16))
     ∧ (∀ v : W64, writable p 0x2B20 5 v s →
         let n := v.toNat
         let s1 := (s.setObj (pathInst p) 0x2B20 5 n).dbgCode p 0
         (∀ c, s.dbgUnit p n = .ok c →
           (fld n 26 2 = 0 → exec (.dbgHalt p v) s = accepts p 0x2B20 5 ((s1.setHalt (n % 8) c (fld n 13 13) true).noteHalt p (n % 8, c, fld n 13 13) true))
           ∧ (fld n 26 2 = 1 → exec (.dbgResume p v) s = accepts p 0x2B20 5 ((s1.setHalt (n % 8) c (fld n 13 13) false).noteHalt p (n % 8, c, fld n 13 13) false))
           ∧ (fld n 26 2 = 2 → exec (.dbgStep p v) s = accepts p 0x2B20 5
               ((((s1.setHalt (n % 8) c (fld n 13 13) false).stepUnit (n % 8) c (fld n 13 13)).setHalt (n % 8) c (fld n 13 13) true).noteHalt p (n % 8, c, fld n 13 13) true)))
         ∧ (∀ r, s.dbgUnit p n = .error r → fld n 26 2 = 0 → exec (.dbgHalt p v) s = refuses p 0x2B20 5 r (s.dbgCode p r.code)))
     ∧ (∀ c k sl : Nat, isSlot ⟨c, k, sl⟩ = true → ((s.setHalt 0 c (5 * k + sl) true).slot ⟨c, k, sl⟩).halted = true
         ∧ s.setHalt 0 c (5 * k + sl) false = s.setSlot ⟨c, k, sl⟩ { s.slot ⟨c, k, sl⟩ with halted := false }))
  ∧ (∀ (n : Nat) (s : State), isPin n = true →
         let x := s.pinOf n
         let old := s.obj 0 0x2D00 (n + 1) 0
         (∀ (p : Path) (v : W64), isPath p = true → writable p 0x2D00 (n + 1) v s →
             let w := v.toNat
             let s1 := s.setObj 0 0x2D00 (n + 1) w
             (w % 8 ≠ old % 8 → exec (.mfpCfgWrite p n v) s = accepts p 0x2D00 (n + 1)
                 ((s1.setPin n { x with parked := true, next := some (w % 8), level := bit w 3, hiZ := false }).out (.pin n (bit w 3))))
             ∧ (w % 8 = old % 8 → w % 8 = 1 → x.parked = false → bit w 4 ≠ bit old 4 → exec (.mfpCfgWrite p n v) s = accepts p 0x2D00 (n + 1)
                 ((s1.setPin n { x with level := bit w 4 }).out (.pin n (bit w 4))))
             ∧ (w % 8 = old % 8 → (w % 8 ≠ 1 ∨ x.parked = true ∨ bit w 4 = bit old 4) → exec (.mfpCfgWrite p n v) s = accepts p 0x2D00 (n + 1) s1))
         ∧ ((x.next = none ∨ x.parked = false) → exec (.mfpHandover n) s = .next s)
         ∧ (x.parked = true →
             (x.next = some 1 → exec (.mfpHandover n) s = .next ((s.setPin n { x with func := 1, next := none, parked := false, level := bit old 4 }).out (.pin n (bit old 4))))
             ∧ (x.next = some 2 → exec (.mfpHandover n) s = .next ((s.setPin n { x with func := 2, next := none, parked := false, level := false }).out (.pin n false)))
             ∧ (x.next = some 3 → exec (.mfpHandover n) s = .next (s.setPin n { x with func := 3, next := none, parked := false, level := false })))
         ∧ (∀ ns : Nat, (x.func = 3 → x.parked = false → 100 ≤ ns → Gives (.stepSyncInEdge n ns) s (fun t => t.obj 0 0x2D00 13 0 = s.ts.toNat
               ∧ t.obj 0 0x2D00 14 0 = (s.obj 0 0x2D00 14 0 + 1) % 2 ^ 32))
             ∧ ((x.func ≠ 3 ∨ x.parked = true ∨ ns < 100) → exec (.stepSyncInEdge n ns) s = .next s))
         ∧ (s.pulse = false → exec .stepSyncPulseEnd s = .next s)
         ∧ (s.pulse = true → Gives .stepSyncPulseEnd s (fun t => t.pulse = false ∧ t.pinOf n = if x.func = 4 ∧ x.parked = false then { x with level := false } else x))
         ∧ (∀ b : Byte, (s.vendorGrant = true → (s.pinOf 7).func = 6 → (s.pinOf 7).parked = false → exec (.uartReceive b) s = .next { s with uartIn := s.uartIn ++ [b] })
             ∧ (s.vendorGrant = false → exec (.uartReceive b) s = .next s)))

/-! Addresses, reset and an invariant -/

/-- R31: an address with `LOCAL` set stays on the module; one whose module fields name the issuing module itself (a tenant's through its module table, R29) stays there too, and is delivered as with `LOCAL` set. -/
def Obligations.OwnModuleAddressesStay : Prop :=
  ∀ (s : State) (a : W64) (len : Nat) (t : Tgt),
    (∀ n, bit a.toNat 63 = true → s.translate n a len = .ok t → t.rem = none)
    ∧ (bit a.toNat 63 = false → fld a.toNat 49 14 = s.ownModule → s.translate none a len = .ok t →
        t.rem = none ∧ s.translate none (a ||| 0x8000000000000000#64) len = .ok t)
    ∧ (∀ n, bit a.toNat 63 = false → (s.ctx n).modEntry (fld a.toNat 49 14) % 2 ^ 14 = s.ownModule → s.translate (some n) a len = .ok t →
        t.rem = none ∧ (fld ((s.ctx n).modEntry (fld a.toNat 49 14)) 14 4 = n → s.translate (some n) (a ||| 0x8000000000000000#64) len = .ok t))

/-- The state after reset (R352, R449, R498; values that no rule gives are log entry 1's): nothing waits, TS and `MOD_STAGE` are 0, no context exists, no oscillator is qualified, every memory lists nothing and no slot runs. -/
def Obligations.ResetState : Prop :=
  let s := State.reset
  s.pending = [] ∧ s.ts = 0 ∧ s.stage = 0 ∧ s.pwrState = 0 ∧ s.boot.powerGood = false ∧ refsOk s.refs ∧ s.refs.stA = 0 ∧ s.refs.stB = 0
  ∧ (∀ n, (s.ctx n).st = 0 ∧ (s.ctx n).resident = false) ∧ (∀ c, (s.area c).mem.bytes = [] ∧ (s.comb c).mw.mem.bytes = [])
  ∧ (∀ u, (s.slot u).running = false ∧ s.canIssue u = false) ∧ (∀ f, (s.ring f).en = false) ∧ s.net = [] ∧ s.elog = [] ∧ s.grant = none

/-- An invariant that every step keeps (R443 to R445): a reference switch is in one of its steps, the compute clocks stand still in step 2 of R443 and in no other, and an oscillator is unqualified, qualified or failed. -/
def Obligations.StepKeepsReferences : Prop :=
  ∀ (s t : State), refsOk s.refs → step s = .next t → refsOk t.refs

/-- R14: where a logical Comb stands while no remap is in force; slot 10 of a Frame then holds none. -/
def Obligations.CombsStandInFrames : Prop :=
  ∀ (cx cy : Nat), cx < 40 → cy < 12 →
    let c := cy * 40 + cx
    let fx := cx / 5
    let fy := cy / 2
    frameOf c = fy * 8 + fx ∧ slotOf c = 5 * (cy - 2 * fy) + (cx - 5 * fx) ∧ slotOf c ≠ 10 ∧ combAt (frameOf c) (slotOf c) = c
end

