-- ==== Sys2Proof/Laws/Tables.lean ====
section
/-! SUPPORT. Laws of the sparse tables and of the byte memories kept in them: read after write, what a write leaves
alone, and the canonical form. -/

namespace Sys2Proof.Machine

variable {α : Type}

/-! Reading after writing -/

theorem tget_tdel_same (d : α) (t : Tbl α) (k : Nat) : tget d (tdel t k) k = d := by
  induction t with
  | nil => rfl
  | cons e t ih =>
    obtain ⟨k', v'⟩ := e
    by_cases h : k' = k
    · simpa [tdel, h] using ih
    · simpa [tdel, h, tget] using ih

theorem tget_tdel_ne (d : α) (t : Tbl α) {k j : Nat} (h : j ≠ k) : tget d (tdel t k) j = tget d t j := by
  induction t with
  | nil => rfl
  | cons e t ih =>
    obtain ⟨k', v'⟩ := e
    by_cases hk : k' = k
    · subst hk
      have : k' ≠ j := fun e => h e.symm
      simpa [tdel, tget, this] using ih
    · by_cases hj : k' = j
      · subst hj; simp [tdel, hk, tget]
      · simpa [tdel, hk, tget, hj] using ih

theorem tget_tins_ne (d : α) (t : Tbl α) {k j : Nat} (v : α) (h : j ≠ k) : tget d (tins k v t) j = tget d t j := by
  have hk : k ≠ j := fun e => h e.symm
  induction t with
  | nil => simp [tins, tget, hk]
  | cons e t ih =>
    obtain ⟨k', v'⟩ := e
    by_cases hl : k < k'
    · simp [tins, hl, tget, hk]
    · by_cases hj : k' = j
      · subst hj; simp [tins, hl, tget]
      · simpa [tins, hl, tget, hj] using ih

theorem tget_tins_same (d : α) (t : Tbl α) (k : Nat) (v : α) (h : ∀ e ∈ t, e.1 ≠ k) : tget d (tins k v t) k = v := by
  induction t with
  | nil => simp [tins, tget]
  | cons e t ih =>
    obtain ⟨k', v'⟩ := e
    by_cases hl : k < k'
    · simp [tins, hl, tget]
    · have hk : k' ≠ k := h (k', v') (by simp)
      have := ih (fun e he => h e (by simp [he]))
      simpa [tins, hl, tget, hk] using this

theorem tdel_keys (t : Tbl α) (k : Nat) : ∀ e ∈ tdel t k, e.1 ≠ k := by
  intro e he
  simpa using (List.mem_filter.mp he).2

@[simp] theorem tget_tput_same (d : α) (t : Tbl α) (k : Nat) (v : α) : tget d (tput t k v) k = v :=
  tget_tins_same d _ k v (tdel_keys t k)

theorem tget_tput_ne (d : α) (t : Tbl α) {k j : Nat} (v : α) (h : j ≠ k) : tget d (tput t k v) j = tget d t j := by
  rw [tput, tget_tins_ne d _ v h, tget_tdel_ne d t h]

theorem tget_tput (d : α) (t : Tbl α) (k j : Nat) (v : α) :
    tget d (tput t k v) j = if j = k then v else tget d t j := by
  by_cases h : j = k
  · subst h; simp
  · simp [h, tget_tput_ne d t v h]

@[simp] theorem tget_tset_same [DecidableEq α] (d : α) (t : Tbl α) (k : Nat) (v : α) : tget d (tset d t k v) k = v := by
  by_cases h : v = d
  · simp [tset, h, tget_tdel_same]
  · simp [tset, h]

theorem tget_tset_ne [DecidableEq α] (d : α) (t : Tbl α) {k j : Nat} (v : α) (h : j ≠ k) :
    tget d (tset d t k v) j = tget d t j := by
  by_cases hv : v = d
  · simp [tset, hv, tget_tdel_ne d t h]
  · simp [tset, hv, tget_tput_ne d t v h]

theorem tget_tset [DecidableEq α] (d : α) (t : Tbl α) (k j : Nat) (v : α) :
    tget d (tset d t k v) j = if j = k then v else tget d t j := by
  by_cases h : j = k
  · subst h; simp
  · simp [h, tget_tset_ne d t v h]

/-! The canonical form -/

/-- The keys of a table rise strictly and every one is at least `b`. -/
def keysFrom (b : Nat) : Tbl α → Prop
  | [] => True
  | (k, _) :: t => b ≤ k ∧ keysFrom (k + 1) t

/-- No entry of a table equals `d`. -/
def noDefault (d : α) (t : Tbl α) : Prop := ∀ e ∈ t, e.2 ≠ d

theorem keysFrom_mono {b c : Nat} (h : c ≤ b) : ∀ {t : Tbl α}, keysFrom b t → keysFrom c t
  | [], _ => trivial
  | (_, _) :: _, ⟨h1, h2⟩ => ⟨Nat.le_trans h h1, h2⟩

theorem twf_iff [DecidableEq α] (d : α) (t : Tbl α) : twf d t = true ↔ keysFrom 0 t ∧ noDefault d t := by
  have key : ∀ (t : Tbl α) (b : Nat), (∀ e ∈ t.head?, b ≤ e.1) → (twf d t = true ↔ keysFrom b t ∧ noDefault d t) := by
    intro t
    induction t with
    | nil => intro b _; simp [twf, keysFrom, noDefault]
    | cons e t ih =>
      intro b hb
      obtain ⟨k, v⟩ := e
      have hbk : b ≤ k := by simpa using hb
      match t, ih with
      | [], _ => simp [twf, keysFrom, noDefault, hbk]
      | (k', v') :: t', ih =>
        constructor
        · intro h
          simp only [twf, Bool.and_eq_true, decide_eq_true_eq, bne_iff_ne, ne_eq] at h
          have := (ih (k + 1) (by simp; omega)).mp h.2
          refine ⟨⟨hbk, this.1⟩, ?_⟩
          intro e he
          rcases List.mem_cons.mp he with rfl | he
          · exact h.1.2
          · exact this.2 e he
        · rintro ⟨⟨_, h2⟩, h3⟩
          have hk : k < k' := by have := h2.1; omega
          have := (ih (k + 1) (by simp; omega)).mpr ⟨h2, fun e he => h3 e (by simp [he])⟩
          simp only [twf, Bool.and_eq_true, decide_eq_true_eq, bne_iff_ne, ne_eq]
          exact ⟨⟨hk, h3 (k, v) (by simp)⟩, this⟩
  exact key t 0 (by simp)

theorem keysFrom_tdel (k : Nat) : ∀ (t : Tbl α) (b : Nat), keysFrom b t → keysFrom b (tdel t k)
  | [], _, _ => trivial
  | (k', v') :: t, b, ⟨h1, h2⟩ => by
    have ih := keysFrom_tdel k t (k' + 1) h2
    by_cases h : k' = k
    · simpa [tdel, h] using keysFrom_mono (by omega) ih
    · have e : tdel ((k', v') :: t) k = (k', v') :: tdel t k := by simp [tdel, h]
      rw [e]; exact ⟨h1, ih⟩

theorem keysFrom_tins (k : Nat) (v : α) : ∀ (t : Tbl α) (b : Nat), b ≤ k → (∀ e ∈ t, e.1 ≠ k) → keysFrom b t →
    keysFrom b (tins k v t)
  | [], _, hb, _, _ => ⟨hb, trivial⟩
  | (k', v') :: t, b, hb, hne, ⟨h1, h2⟩ => by
    by_cases hl : k < k'
    · simp only [tins, hl, if_true]
      exact ⟨hb, by omega, h2⟩
    · have hk : k' ≠ k := hne (k', v') (by simp)
      have ih := keysFrom_tins k v t (k' + 1) (by omega) (fun e he => hne e (by simp [he])) h2
      simp only [tins, hl, if_false]
      exact ⟨h1, ih⟩

theorem keysFrom_tput (t : Tbl α) (k : Nat) (v : α) (h : keysFrom 0 t) : keysFrom 0 (tput t k v) :=
  keysFrom_tins k v _ 0 (Nat.zero_le _) (tdel_keys t k) (keysFrom_tdel k t 0 h)

theorem mem_tins {k : Nat} {v : α} {e : Nat × α} : ∀ {t : Tbl α}, e ∈ tins k v t → e = (k, v) ∨ e ∈ t
  | [], h => by simpa [tins] using h
  | (k', v') :: t, h => by
    by_cases hl : k < k'
    · simp only [tins, hl, if_true, List.mem_cons] at h ⊢; exact h
    · simp only [tins, hl, if_false, List.mem_cons] at h ⊢
      rcases h with h | h
      · exact .inr (.inl h)
      · rcases mem_tins h with h | h
        · exact .inl h
        · exact .inr (.inr h)

/-- A write keeps the canonical form of a table. -/
theorem twf_tset [DecidableEq α] (d : α) (t : Tbl α) (k : Nat) (v : α) (h : twf d t = true) :
    twf d (tset d t k v) = true := by
  obtain ⟨h1, h2⟩ := (twf_iff d t).mp h
  apply (twf_iff d _).mpr
  by_cases hv : v = d
  · simp only [tset, hv, if_true]
    exact ⟨keysFrom_tdel k t 0 h1, fun e he => h2 e (List.mem_filter.mp he).1⟩
  · simp only [tset, hv, if_false]
    refine ⟨keysFrom_tput t k v h1, fun e he => ?_⟩
    rcases mem_tins he with rfl | he
    · exact hv
    · exact h2 e (List.mem_filter.mp he).1

/-- Taking entries out keeps the canonical form. -/
theorem keysFrom_filter (p : Nat × α → Bool) : ∀ (t : Tbl α) (b : Nat), keysFrom b t → keysFrom b (t.filter p)
  | [], _, _ => trivial
  | (k, v) :: t, b, ⟨h1, h2⟩ => by
    have ih := keysFrom_filter p t (k + 1) h2
    by_cases h : p (k, v)
    · simp only [List.filter_cons, h, if_true]; exact ⟨h1, ih⟩
    · simp only [List.filter_cons, h]; exact keysFrom_mono (by omega) ih

theorem twf_filter [DecidableEq α] (d : α) (t : Tbl α) (p : Nat × α → Bool) (h : twf d t = true) :
    twf d (t.filter p) = true := by
  obtain ⟨h1, h2⟩ := (twf_iff d t).mp h
  exact (twf_iff d _).mpr ⟨keysFrom_filter p t 0 h1, fun e he => h2 e (List.mem_filter.mp he).1⟩

/-! Byte memories -/

theorem wf_cellsWrite : ∀ (bs : List Byte) (m : List Host.Cell) (a : Nat), Memory.wf m = true →
    Memory.wf (cellsWrite m a bs) = true
  | [], _, _, h => h
  | b :: t, m, a, h => wf_cellsWrite t (tset 0 m a b) (a + 1) (twf_tset 0 m a b h)

/-- The byte at `j` after a write of `bs` from `a`. -/
theorem tget_cellsWrite : ∀ (bs : List Byte) (m : List Host.Cell) (a j : Nat),
    tget 0 (cellsWrite m a bs) j = if a ≤ j ∧ j < a + bs.length then lget 0 bs (j - a) else tget 0 m j
  | [], m, a, j => by simp only [cellsWrite, List.length_nil, Nat.add_zero]; split <;> first | omega | rfl
  | b :: t, m, a, j => by
    rw [cellsWrite, tget_cellsWrite t]
    by_cases h1 : j = a
    · subst h1
      simp [lget, Nat.not_succ_le_self]
    · rw [tget_tset_ne 0 m b h1]
      by_cases h2 : a + 1 ≤ j ∧ j < a + 1 + t.length
      · have e : j - a = (j - (a + 1)) + 1 := by omega
        rw [if_pos h2, if_pos (by simp only [List.length_cons]; omega), e]
        simp [lget]
      · rw [if_neg h2, if_neg (by simp only [List.length_cons]; omega)]

/-- Bytes outside a write are as before. -/
theorem tget_cellsWrite_out (bs : List Byte) (m : List Host.Cell) (a j : Nat) (h : j < a ∨ a + bs.length ≤ j) :
    tget 0 (cellsWrite m a bs) j = tget 0 m j := by
  rw [tget_cellsWrite, if_neg (by omega)]

/-- Every operation of a checked memory keeps its bytes in canonical form. -/
theorem wf_put (m : PMem) (a : Nat) (bs : List Byte) (ep : Bool) (h : Memory.wf m.bytes = true) :
    Memory.wf (m.put a bs ep).bytes = true := wf_cellsWrite bs m.bytes a h

theorem clearPoison_bytes : ∀ (ls : List Nat) (m : PMem), (m.clearPoison ls).bytes = m.bytes
  | [], _ => rfl
  | l :: t, m => by
    have ih := clearPoison_bytes t
    simp only [PMem.clearPoison, List.foldl_cons] at ih ⊢
    rw [ih]; split <;> rfl

theorem wf_writeLines (a : Nat) (bs : List Byte) (ep : Bool) : ∀ (ls : List Nat) (m : PMem),
    Memory.wf m.bytes = true → Memory.wf (m.writeLines a bs ep ls).1.bytes = true
  | [], _, h => h
  | l :: t, m, h => by
    simp only [PMem.writeLines]
    split
    · exact h
    · apply wf_writeLines a bs ep t
      rw [clearPoison_bytes]; exact wf_put _ _ _ _ h

theorem wf_write (m : PMem) (a : Nat) (bs : List Byte) (ep : Bool) (h : Memory.wf m.bytes = true) :
    Memory.wf (m.write a bs ep).1.bytes = true := wf_writeLines a bs ep _ m h

theorem writeBlock_bytes (m : PMem) (b : Nat) (bs : List Byte) (chk : W32) (ep : Bool) :
    (m.writeBlock b bs chk ep).bytes = cellsWrite m.bytes (1024 * b) bs := by
  rw [PMem.writeBlock, clearPoison_bytes]; rfl

theorem wf_writeBlock (m : PMem) (b : Nat) (bs : List Byte) (chk : W32) (ep : Bool) (h : Memory.wf m.bytes = true) :
    Memory.wf (m.writeBlock b bs chk ep).bytes = true := by
  rw [writeBlock_bytes]; exact wf_cellsWrite _ _ _ h

end Sys2Proof.Machine
end

