-- ==== Sys2Proof/Laws/State.lean ====
section
/-! SUPPORT. Laws of the parts of the state: what each update writes and which fields and parts it leaves as they were. -/

namespace Sys2Proof.Machine

open Sys2Proof

variable (s : State)

/-! `setComb` writes `combs` only -/

@[simp] theorem State.setComb_pending (c : Nat) (v : Comb) : (s.setComb c v).pending = s.pending := rfl
@[simp] theorem State.setComb_ts (c : Nat) (v : Comb) : (s.setComb c v).ts = s.ts := rfl
@[simp] theorem State.setComb_fresh (c : Nat) (v : Comb) : (s.setComb c v).fresh = s.fresh := rfl
@[simp] theorem State.setComb_nextId (c : Nat) (v : Comb) : (s.setComb c v).nextId = s.nextId := rfl
@[simp] theorem State.setComb_objs (c : Nat) (v : Comb) : (s.setComb c v).objs = s.objs := rfl
@[simp] theorem State.setComb_doms (c : Nat) (v : Comb) : (s.setComb c v).doms = s.doms := rfl
@[simp] theorem State.setComb_flash (c : Nat) (v : Comb) : (s.setComb c v).flash = s.flash := rfl
@[simp] theorem State.setComb_flashDoms (c : Nat) (v : Comb) : (s.setComb c v).flashDoms = s.flashDoms := rfl
@[simp] theorem State.setComb_frames (c : Nat) (v : Comb) : (s.setComb c v).frames = s.frames := rfl
@[simp] theorem State.setComb_ctxs (c : Nat) (v : Comb) : (s.setComb c v).ctxs = s.ctxs := rfl
@[simp] theorem State.setComb_rings (c : Nat) (v : Comb) : (s.setComb c v).rings = s.rings := rfl
@[simp] theorem State.setComb_net (c : Nat) (v : Comb) : (s.setComb c v).net = s.net := rfl
@[simp] theorem State.setComb_tx (c : Nat) (v : Comb) : (s.setComb c v).tx = s.tx := rfl
@[simp] theorem State.setComb_rx (c : Nat) (v : Comb) : (s.setComb c v).rx = s.rx := rfl
@[simp] theorem State.setComb_incs (c : Nat) (v : Comb) : (s.setComb c v).incs = s.incs := rfl
@[simp] theorem State.setComb_fcMode (c : Nat) (v : Comb) : (s.setComb c v).fcMode = s.fcMode := rfl
@[simp] theorem State.setComb_ports (c : Nat) (v : Comb) : (s.setComb c v).ports = s.ports := rfl
@[simp] theorem State.setComb_hl (c : Nat) (v : Comb) : (s.setComb c v).hl = s.hl := rfl
@[simp] theorem State.setComb_events (c : Nat) (v : Comb) : (s.setComb c v).events = s.events := rfl
@[simp] theorem State.setComb_opFrz (c : Nat) (v : Comb) : (s.setComb c v).opFrz = s.opFrz := rfl
@[simp] theorem State.setComb_opFrzOver (c : Nat) (v : Comb) : (s.setComb c v).opFrzOver = s.opFrzOver := rfl
@[simp] theorem State.setComb_opFrzMore (c : Nat) (v : Comb) : (s.setComb c v).opFrzMore = s.opFrzMore := rfl
@[simp] theorem State.setComb_spdm (c : Nat) (v : Comb) : (s.setComb c v).spdm = s.spdm := rfl
@[simp] theorem State.setComb_dbgChal (c : Nat) (v : Comb) : (s.setComb c v).dbgChal = s.dbgChal := rfl
@[simp] theorem State.setComb_grant (c : Nat) (v : Comb) : (s.setComb c v).grant = s.grant := rfl
@[simp] theorem State.setComb_dbgEnding (c : Nat) (v : Comb) : (s.setComb c v).dbgEnding = s.dbgEnding := rfl
@[simp] theorem State.setComb_dbg (c : Nat) (v : Comb) : (s.setComb c v).dbg = s.dbg := rfl
@[simp] theorem State.setComb_intake (c : Nat) (v : Comb) : (s.setComb c v).intake = s.intake := rfl
@[simp] theorem State.setComb_elog (c : Nat) (v : Comb) : (s.setComb c v).elog = s.elog := rfl
@[simp] theorem State.setComb_cper (c : Nat) (v : Comb) : (s.setComb c v).cper = s.cper := rfl
@[simp] theorem State.setComb_cperNext (c : Nat) (v : Comb) : (s.setComb c v).cperNext = s.cperNext := rfl
@[simp] theorem State.setComb_bundle (c : Nat) (v : Comb) : (s.setComb c v).bundle = s.bundle := rfl
@[simp] theorem State.setComb_maint (c : Nat) (v : Comb) : (s.setComb c v).maint = s.maint := rfl
@[simp] theorem State.setComb_ticket (c : Nat) (v : Comb) : (s.setComb c v).ticket = s.ticket := rfl
@[simp] theorem State.setComb_convs (c : Nat) (v : Comb) : (s.setComb c v).convs = s.convs := rfl
@[simp] theorem State.setComb_power (c : Nat) (v : Comb) : (s.setComb c v).power = s.power := rfl
@[simp] theorem State.setComb_refs (c : Nat) (v : Comb) : (s.setComb c v).refs = s.refs := rfl
@[simp] theorem State.setComb_boot (c : Nat) (v : Comb) : (s.setComb c v).boot = s.boot := rfl
@[simp] theorem State.setComb_mgmt (c : Nat) (v : Comb) : (s.setComb c v).mgmt = s.mgmt := rfl
@[simp] theorem State.setComb_pins (c : Nat) (v : Comb) : (s.setComb c v).pins = s.pins := rfl
@[simp] theorem State.setComb_pulse (c : Nat) (v : Comb) : (s.setComb c v).pulse = s.pulse := rfl
@[simp] theorem State.setComb_uartIn (c : Nat) (v : Comb) : (s.setComb c v).uartIn = s.uartIn := rfl
@[simp] theorem State.setComb_tapDbg (c : Nat) (v : Comb) : (s.setComb c v).tapDbg = s.tapDbg := rfl
@[simp] theorem State.setComb_bar4 (c : Nat) (v : Comb) : (s.setComb c v).bar4 = s.bar4 := rfl
@[simp] theorem State.setComb_outs (c : Nat) (v : Comb) : (s.setComb c v).outs = s.outs := rfl

/-! `setCtx` writes `ctxs` only -/

@[simp] theorem State.setCtx_pending (n : Nat) (v : Ctx) : (s.setCtx n v).pending = s.pending := rfl
@[simp] theorem State.setCtx_ts (n : Nat) (v : Ctx) : (s.setCtx n v).ts = s.ts := rfl
@[simp] theorem State.setCtx_fresh (n : Nat) (v : Ctx) : (s.setCtx n v).fresh = s.fresh := rfl
@[simp] theorem State.setCtx_nextId (n : Nat) (v : Ctx) : (s.setCtx n v).nextId = s.nextId := rfl
@[simp] theorem State.setCtx_objs (n : Nat) (v : Ctx) : (s.setCtx n v).objs = s.objs := rfl
@[simp] theorem State.setCtx_doms (n : Nat) (v : Ctx) : (s.setCtx n v).doms = s.doms := rfl
@[simp] theorem State.setCtx_flash (n : Nat) (v : Ctx) : (s.setCtx n v).flash = s.flash := rfl
@[simp] theorem State.setCtx_flashDoms (n : Nat) (v : Ctx) : (s.setCtx n v).flashDoms = s.flashDoms := rfl
@[simp] theorem State.setCtx_combs (n : Nat) (v : Ctx) : (s.setCtx n v).combs = s.combs := rfl
@[simp] theorem State.setCtx_frames (n : Nat) (v : Ctx) : (s.setCtx n v).frames = s.frames := rfl
@[simp] theorem State.setCtx_rings (n : Nat) (v : Ctx) : (s.setCtx n v).rings = s.rings := rfl
@[simp] theorem State.setCtx_net (n : Nat) (v : Ctx) : (s.setCtx n v).net = s.net := rfl
@[simp] theorem State.setCtx_tx (n : Nat) (v : Ctx) : (s.setCtx n v).tx = s.tx := rfl
@[simp] theorem State.setCtx_rx (n : Nat) (v : Ctx) : (s.setCtx n v).rx = s.rx := rfl
@[simp] theorem State.setCtx_incs (n : Nat) (v : Ctx) : (s.setCtx n v).incs = s.incs := rfl
@[simp] theorem State.setCtx_fcMode (n : Nat) (v : Ctx) : (s.setCtx n v).fcMode = s.fcMode := rfl
@[simp] theorem State.setCtx_ports (n : Nat) (v : Ctx) : (s.setCtx n v).ports = s.ports := rfl
@[simp] theorem State.setCtx_hl (n : Nat) (v : Ctx) : (s.setCtx n v).hl = s.hl := rfl
@[simp] theorem State.setCtx_events (n : Nat) (v : Ctx) : (s.setCtx n v).events = s.events := rfl
@[simp] theorem State.setCtx_opFrz (n : Nat) (v : Ctx) : (s.setCtx n v).opFrz = s.opFrz := rfl
@[simp] theorem State.setCtx_opFrzOver (n : Nat) (v : Ctx) : (s.setCtx n v).opFrzOver = s.opFrzOver := rfl
@[simp] theorem State.setCtx_opFrzMore (n : Nat) (v : Ctx) : (s.setCtx n v).opFrzMore = s.opFrzMore := rfl
@[simp] theorem State.setCtx_spdm (n : Nat) (v : Ctx) : (s.setCtx n v).spdm = s.spdm := rfl
@[simp] theorem State.setCtx_dbgChal (n : Nat) (v : Ctx) : (s.setCtx n v).dbgChal = s.dbgChal := rfl
@[simp] theorem State.setCtx_grant (n : Nat) (v : Ctx) : (s.setCtx n v).grant = s.grant := rfl
@[simp] theorem State.setCtx_dbgEnding (n : Nat) (v : Ctx) : (s.setCtx n v).dbgEnding = s.dbgEnding := rfl
@[simp] theorem State.setCtx_dbg (n : Nat) (v : Ctx) : (s.setCtx n v).dbg = s.dbg := rfl
@[simp] theorem State.setCtx_intake (n : Nat) (v : Ctx) : (s.setCtx n v).intake = s.intake := rfl
@[simp] theorem State.setCtx_elog (n : Nat) (v : Ctx) : (s.setCtx n v).elog = s.elog := rfl
@[simp] theorem State.setCtx_cper (n : Nat) (v : Ctx) : (s.setCtx n v).cper = s.cper := rfl
@[simp] theorem State.setCtx_cperNext (n : Nat) (v : Ctx) : (s.setCtx n v).cperNext = s.cperNext := rfl
@[simp] theorem State.setCtx_bundle (n : Nat) (v : Ctx) : (s.setCtx n v).bundle = s.bundle := rfl
@[simp] theorem State.setCtx_maint (n : Nat) (v : Ctx) : (s.setCtx n v).maint = s.maint := rfl
@[simp] theorem State.setCtx_ticket (n : Nat) (v : Ctx) : (s.setCtx n v).ticket = s.ticket := rfl
@[simp] theorem State.setCtx_convs (n : Nat) (v : Ctx) : (s.setCtx n v).convs = s.convs := rfl
@[simp] theorem State.setCtx_power (n : Nat) (v : Ctx) : (s.setCtx n v).power = s.power := rfl
@[simp] theorem State.setCtx_refs (n : Nat) (v : Ctx) : (s.setCtx n v).refs = s.refs := rfl
@[simp] theorem State.setCtx_boot (n : Nat) (v : Ctx) : (s.setCtx n v).boot = s.boot := rfl
@[simp] theorem State.setCtx_mgmt (n : Nat) (v : Ctx) : (s.setCtx n v).mgmt = s.mgmt := rfl
@[simp] theorem State.setCtx_pins (n : Nat) (v : Ctx) : (s.setCtx n v).pins = s.pins := rfl
@[simp] theorem State.setCtx_pulse (n : Nat) (v : Ctx) : (s.setCtx n v).pulse = s.pulse := rfl
@[simp] theorem State.setCtx_uartIn (n : Nat) (v : Ctx) : (s.setCtx n v).uartIn = s.uartIn := rfl
@[simp] theorem State.setCtx_tapDbg (n : Nat) (v : Ctx) : (s.setCtx n v).tapDbg = s.tapDbg := rfl
@[simp] theorem State.setCtx_bar4 (n : Nat) (v : Ctx) : (s.setCtx n v).bar4 = s.bar4 := rfl
@[simp] theorem State.setCtx_outs (n : Nat) (v : Ctx) : (s.setCtx n v).outs = s.outs := rfl

/-! `setRing` writes `rings` only -/

@[simp] theorem State.setRing_pending (n : Nat) (v : Ring) : (s.setRing n v).pending = s.pending := rfl
@[simp] theorem State.setRing_ts (n : Nat) (v : Ring) : (s.setRing n v).ts = s.ts := rfl
@[simp] theorem State.setRing_fresh (n : Nat) (v : Ring) : (s.setRing n v).fresh = s.fresh := rfl
@[simp] theorem State.setRing_nextId (n : Nat) (v : Ring) : (s.setRing n v).nextId = s.nextId := rfl
@[simp] theorem State.setRing_objs (n : Nat) (v : Ring) : (s.setRing n v).objs = s.objs := rfl
@[simp] theorem State.setRing_doms (n : Nat) (v : Ring) : (s.setRing n v).doms = s.doms := rfl
@[simp] theorem State.setRing_flash (n : Nat) (v : Ring) : (s.setRing n v).flash = s.flash := rfl
@[simp] theorem State.setRing_flashDoms (n : Nat) (v : Ring) : (s.setRing n v).flashDoms = s.flashDoms := rfl
@[simp] theorem State.setRing_combs (n : Nat) (v : Ring) : (s.setRing n v).combs = s.combs := rfl
@[simp] theorem State.setRing_frames (n : Nat) (v : Ring) : (s.setRing n v).frames = s.frames := rfl
@[simp] theorem State.setRing_ctxs (n : Nat) (v : Ring) : (s.setRing n v).ctxs = s.ctxs := rfl
@[simp] theorem State.setRing_net (n : Nat) (v : Ring) : (s.setRing n v).net = s.net := rfl
@[simp] theorem State.setRing_tx (n : Nat) (v : Ring) : (s.setRing n v).tx = s.tx := rfl
@[simp] theorem State.setRing_rx (n : Nat) (v : Ring) : (s.setRing n v).rx = s.rx := rfl
@[simp] theorem State.setRing_incs (n : Nat) (v : Ring) : (s.setRing n v).incs = s.incs := rfl
@[simp] theorem State.setRing_fcMode (n : Nat) (v : Ring) : (s.setRing n v).fcMode = s.fcMode := rfl
@[simp] theorem State.setRing_ports (n : Nat) (v : Ring) : (s.setRing n v).ports = s.ports := rfl
@[simp] theorem State.setRing_hl (n : Nat) (v : Ring) : (s.setRing n v).hl = s.hl := rfl
@[simp] theorem State.setRing_events (n : Nat) (v : Ring) : (s.setRing n v).events = s.events := rfl
@[simp] theorem State.setRing_opFrz (n : Nat) (v : Ring) : (s.setRing n v).opFrz = s.opFrz := rfl
@[simp] theorem State.setRing_opFrzOver (n : Nat) (v : Ring) : (s.setRing n v).opFrzOver = s.opFrzOver := rfl
@[simp] theorem State.setRing_opFrzMore (n : Nat) (v : Ring) : (s.setRing n v).opFrzMore = s.opFrzMore := rfl
@[simp] theorem State.setRing_spdm (n : Nat) (v : Ring) : (s.setRing n v).spdm = s.spdm := rfl
@[simp] theorem State.setRing_dbgChal (n : Nat) (v : Ring) : (s.setRing n v).dbgChal = s.dbgChal := rfl
@[simp] theorem State.setRing_grant (n : Nat) (v : Ring) : (s.setRing n v).grant = s.grant := rfl
@[simp] theorem State.setRing_dbgEnding (n : Nat) (v : Ring) : (s.setRing n v).dbgEnding = s.dbgEnding := rfl
@[simp] theorem State.setRing_dbg (n : Nat) (v : Ring) : (s.setRing n v).dbg = s.dbg := rfl
@[simp] theorem State.setRing_intake (n : Nat) (v : Ring) : (s.setRing n v).intake = s.intake := rfl
@[simp] theorem State.setRing_elog (n : Nat) (v : Ring) : (s.setRing n v).elog = s.elog := rfl
@[simp] theorem State.setRing_cper (n : Nat) (v : Ring) : (s.setRing n v).cper = s.cper := rfl
@[simp] theorem State.setRing_cperNext (n : Nat) (v : Ring) : (s.setRing n v).cperNext = s.cperNext := rfl
@[simp] theorem State.setRing_bundle (n : Nat) (v : Ring) : (s.setRing n v).bundle = s.bundle := rfl
@[simp] theorem State.setRing_maint (n : Nat) (v : Ring) : (s.setRing n v).maint = s.maint := rfl
@[simp] theorem State.setRing_ticket (n : Nat) (v : Ring) : (s.setRing n v).ticket = s.ticket := rfl
@[simp] theorem State.setRing_convs (n : Nat) (v : Ring) : (s.setRing n v).convs = s.convs := rfl
@[simp] theorem State.setRing_power (n : Nat) (v : Ring) : (s.setRing n v).power = s.power := rfl
@[simp] theorem State.setRing_refs (n : Nat) (v : Ring) : (s.setRing n v).refs = s.refs := rfl
@[simp] theorem State.setRing_boot (n : Nat) (v : Ring) : (s.setRing n v).boot = s.boot := rfl
@[simp] theorem State.setRing_mgmt (n : Nat) (v : Ring) : (s.setRing n v).mgmt = s.mgmt := rfl
@[simp] theorem State.setRing_pins (n : Nat) (v : Ring) : (s.setRing n v).pins = s.pins := rfl
@[simp] theorem State.setRing_pulse (n : Nat) (v : Ring) : (s.setRing n v).pulse = s.pulse := rfl
@[simp] theorem State.setRing_uartIn (n : Nat) (v : Ring) : (s.setRing n v).uartIn = s.uartIn := rfl
@[simp] theorem State.setRing_tapDbg (n : Nat) (v : Ring) : (s.setRing n v).tapDbg = s.tapDbg := rfl
@[simp] theorem State.setRing_bar4 (n : Nat) (v : Ring) : (s.setRing n v).bar4 = s.bar4 := rfl
@[simp] theorem State.setRing_outs (n : Nat) (v : Ring) : (s.setRing n v).outs = s.outs := rfl

/-! `setPort` writes `ports` only -/

@[simp] theorem State.setPort_pending (n : Nat) (v : TyPort) : (s.setPort n v).pending = s.pending := rfl
@[simp] theorem State.setPort_ts (n : Nat) (v : TyPort) : (s.setPort n v).ts = s.ts := rfl
@[simp] theorem State.setPort_fresh (n : Nat) (v : TyPort) : (s.setPort n v).fresh = s.fresh := rfl
@[simp] theorem State.setPort_nextId (n : Nat) (v : TyPort) : (s.setPort n v).nextId = s.nextId := rfl
@[simp] theorem State.setPort_objs (n : Nat) (v : TyPort) : (s.setPort n v).objs = s.objs := rfl
@[simp] theorem State.setPort_doms (n : Nat) (v : TyPort) : (s.setPort n v).doms = s.doms := rfl
@[simp] theorem State.setPort_flash (n : Nat) (v : TyPort) : (s.setPort n v).flash = s.flash := rfl
@[simp] theorem State.setPort_flashDoms (n : Nat) (v : TyPort) : (s.setPort n v).flashDoms = s.flashDoms := rfl
@[simp] theorem State.setPort_combs (n : Nat) (v : TyPort) : (s.setPort n v).combs = s.combs := rfl
@[simp] theorem State.setPort_frames (n : Nat) (v : TyPort) : (s.setPort n v).frames = s.frames := rfl
@[simp] theorem State.setPort_ctxs (n : Nat) (v : TyPort) : (s.setPort n v).ctxs = s.ctxs := rfl
@[simp] theorem State.setPort_rings (n : Nat) (v : TyPort) : (s.setPort n v).rings = s.rings := rfl
@[simp] theorem State.setPort_net (n : Nat) (v : TyPort) : (s.setPort n v).net = s.net := rfl
@[simp] theorem State.setPort_tx (n : Nat) (v : TyPort) : (s.setPort n v).tx = s.tx := rfl
@[simp] theorem State.setPort_rx (n : Nat) (v : TyPort) : (s.setPort n v).rx = s.rx := rfl
@[simp] theorem State.setPort_incs (n : Nat) (v : TyPort) : (s.setPort n v).incs = s.incs := rfl
@[simp] theorem State.setPort_fcMode (n : Nat) (v : TyPort) : (s.setPort n v).fcMode = s.fcMode := rfl
@[simp] theorem State.setPort_hl (n : Nat) (v : TyPort) : (s.setPort n v).hl = s.hl := rfl
@[simp] theorem State.setPort_events (n : Nat) (v : TyPort) : (s.setPort n v).events = s.events := rfl
@[simp] theorem State.setPort_opFrz (n : Nat) (v : TyPort) : (s.setPort n v).opFrz = s.opFrz := rfl
@[simp] theorem State.setPort_opFrzOver (n : Nat) (v : TyPort) : (s.setPort n v).opFrzOver = s.opFrzOver := rfl
@[simp] theorem State.setPort_opFrzMore (n : Nat) (v : TyPort) : (s.setPort n v).opFrzMore = s.opFrzMore := rfl
@[simp] theorem State.setPort_spdm (n : Nat) (v : TyPort) : (s.setPort n v).spdm = s.spdm := rfl
@[simp] theorem State.setPort_dbgChal (n : Nat) (v : TyPort) : (s.setPort n v).dbgChal = s.dbgChal := rfl
@[simp] theorem State.setPort_grant (n : Nat) (v : TyPort) : (s.setPort n v).grant = s.grant := rfl
@[simp] theorem State.setPort_dbgEnding (n : Nat) (v : TyPort) : (s.setPort n v).dbgEnding = s.dbgEnding := rfl
@[simp] theorem State.setPort_dbg (n : Nat) (v : TyPort) : (s.setPort n v).dbg = s.dbg := rfl
@[simp] theorem State.setPort_intake (n : Nat) (v : TyPort) : (s.setPort n v).intake = s.intake := rfl
@[simp] theorem State.setPort_elog (n : Nat) (v : TyPort) : (s.setPort n v).elog = s.elog := rfl
@[simp] theorem State.setPort_cper (n : Nat) (v : TyPort) : (s.setPort n v).cper = s.cper := rfl
@[simp] theorem State.setPort_cperNext (n : Nat) (v : TyPort) : (s.setPort n v).cperNext = s.cperNext := rfl
@[simp] theorem State.setPort_bundle (n : Nat) (v : TyPort) : (s.setPort n v).bundle = s.bundle := rfl
@[simp] theorem State.setPort_maint (n : Nat) (v : TyPort) : (s.setPort n v).maint = s.maint := rfl
@[simp] theorem State.setPort_ticket (n : Nat) (v : TyPort) : (s.setPort n v).ticket = s.ticket := rfl
@[simp] theorem State.setPort_convs (n : Nat) (v : TyPort) : (s.setPort n v).convs = s.convs := rfl
@[simp] theorem State.setPort_power (n : Nat) (v : TyPort) : (s.setPort n v).power = s.power := rfl
@[simp] theorem State.setPort_refs (n : Nat) (v : TyPort) : (s.setPort n v).refs = s.refs := rfl
@[simp] theorem State.setPort_boot (n : Nat) (v : TyPort) : (s.setPort n v).boot = s.boot := rfl
@[simp] theorem State.setPort_mgmt (n : Nat) (v : TyPort) : (s.setPort n v).mgmt = s.mgmt := rfl
@[simp] theorem State.setPort_pins (n : Nat) (v : TyPort) : (s.setPort n v).pins = s.pins := rfl
@[simp] theorem State.setPort_pulse (n : Nat) (v : TyPort) : (s.setPort n v).pulse = s.pulse := rfl
@[simp] theorem State.setPort_uartIn (n : Nat) (v : TyPort) : (s.setPort n v).uartIn = s.uartIn := rfl
@[simp] theorem State.setPort_tapDbg (n : Nat) (v : TyPort) : (s.setPort n v).tapDbg = s.tapDbg := rfl
@[simp] theorem State.setPort_bar4 (n : Nat) (v : TyPort) : (s.setPort n v).bar4 = s.bar4 := rfl
@[simp] theorem State.setPort_outs (n : Nat) (v : TyPort) : (s.setPort n v).outs = s.outs := rfl

/-! `setHlp` writes `hl` only -/

@[simp] theorem State.setHlp_pending (n : Nat) (v : HlPort) : (s.setHlp n v).pending = s.pending := rfl
@[simp] theorem State.setHlp_ts (n : Nat) (v : HlPort) : (s.setHlp n v).ts = s.ts := rfl
@[simp] theorem State.setHlp_fresh (n : Nat) (v : HlPort) : (s.setHlp n v).fresh = s.fresh := rfl
@[simp] theorem State.setHlp_nextId (n : Nat) (v : HlPort) : (s.setHlp n v).nextId = s.nextId := rfl
@[simp] theorem State.setHlp_objs (n : Nat) (v : HlPort) : (s.setHlp n v).objs = s.objs := rfl
@[simp] theorem State.setHlp_doms (n : Nat) (v : HlPort) : (s.setHlp n v).doms = s.doms := rfl
@[simp] theorem State.setHlp_flash (n : Nat) (v : HlPort) : (s.setHlp n v).flash = s.flash := rfl
@[simp] theorem State.setHlp_flashDoms (n : Nat) (v : HlPort) : (s.setHlp n v).flashDoms = s.flashDoms := rfl
@[simp] theorem State.setHlp_combs (n : Nat) (v : HlPort) : (s.setHlp n v).combs = s.combs := rfl
@[simp] theorem State.setHlp_frames (n : Nat) (v : HlPort) : (s.setHlp n v).frames = s.frames := rfl
@[simp] theorem State.setHlp_ctxs (n : Nat) (v : HlPort) : (s.setHlp n v).ctxs = s.ctxs := rfl
@[simp] theorem State.setHlp_rings (n : Nat) (v : HlPort) : (s.setHlp n v).rings = s.rings := rfl
@[simp] theorem State.setHlp_net (n : Nat) (v : HlPort) : (s.setHlp n v).net = s.net := rfl
@[simp] theorem State.setHlp_tx (n : Nat) (v : HlPort) : (s.setHlp n v).tx = s.tx := rfl
@[simp] theorem State.setHlp_rx (n : Nat) (v : HlPort) : (s.setHlp n v).rx = s.rx := rfl
@[simp] theorem State.setHlp_incs (n : Nat) (v : HlPort) : (s.setHlp n v).incs = s.incs := rfl
@[simp] theorem State.setHlp_fcMode (n : Nat) (v : HlPort) : (s.setHlp n v).fcMode = s.fcMode := rfl
@[simp] theorem State.setHlp_ports (n : Nat) (v : HlPort) : (s.setHlp n v).ports = s.ports := rfl
@[simp] theorem State.setHlp_events (n : Nat) (v : HlPort) : (s.setHlp n v).events = s.events := rfl
@[simp] theorem State.setHlp_opFrz (n : Nat) (v : HlPort) : (s.setHlp n v).opFrz = s.opFrz := rfl
@[simp] theorem State.setHlp_opFrzOver (n : Nat) (v : HlPort) : (s.setHlp n v).opFrzOver = s.opFrzOver := rfl
@[simp] theorem State.setHlp_opFrzMore (n : Nat) (v : HlPort) : (s.setHlp n v).opFrzMore = s.opFrzMore := rfl
@[simp] theorem State.setHlp_spdm (n : Nat) (v : HlPort) : (s.setHlp n v).spdm = s.spdm := rfl
@[simp] theorem State.setHlp_dbgChal (n : Nat) (v : HlPort) : (s.setHlp n v).dbgChal = s.dbgChal := rfl
@[simp] theorem State.setHlp_grant (n : Nat) (v : HlPort) : (s.setHlp n v).grant = s.grant := rfl
@[simp] theorem State.setHlp_dbgEnding (n : Nat) (v : HlPort) : (s.setHlp n v).dbgEnding = s.dbgEnding := rfl
@[simp] theorem State.setHlp_dbg (n : Nat) (v : HlPort) : (s.setHlp n v).dbg = s.dbg := rfl
@[simp] theorem State.setHlp_intake (n : Nat) (v : HlPort) : (s.setHlp n v).intake = s.intake := rfl
@[simp] theorem State.setHlp_elog (n : Nat) (v : HlPort) : (s.setHlp n v).elog = s.elog := rfl
@[simp] theorem State.setHlp_cper (n : Nat) (v : HlPort) : (s.setHlp n v).cper = s.cper := rfl
@[simp] theorem State.setHlp_cperNext (n : Nat) (v : HlPort) : (s.setHlp n v).cperNext = s.cperNext := rfl
@[simp] theorem State.setHlp_bundle (n : Nat) (v : HlPort) : (s.setHlp n v).bundle = s.bundle := rfl
@[simp] theorem State.setHlp_maint (n : Nat) (v : HlPort) : (s.setHlp n v).maint = s.maint := rfl
@[simp] theorem State.setHlp_ticket (n : Nat) (v : HlPort) : (s.setHlp n v).ticket = s.ticket := rfl
@[simp] theorem State.setHlp_convs (n : Nat) (v : HlPort) : (s.setHlp n v).convs = s.convs := rfl
@[simp] theorem State.setHlp_power (n : Nat) (v : HlPort) : (s.setHlp n v).power = s.power := rfl
@[simp] theorem State.setHlp_refs (n : Nat) (v : HlPort) : (s.setHlp n v).refs = s.refs := rfl
@[simp] theorem State.setHlp_boot (n : Nat) (v : HlPort) : (s.setHlp n v).boot = s.boot := rfl
@[simp] theorem State.setHlp_mgmt (n : Nat) (v : HlPort) : (s.setHlp n v).mgmt = s.mgmt := rfl
@[simp] theorem State.setHlp_pins (n : Nat) (v : HlPort) : (s.setHlp n v).pins = s.pins := rfl
@[simp] theorem State.setHlp_pulse (n : Nat) (v : HlPort) : (s.setHlp n v).pulse = s.pulse := rfl
@[simp] theorem State.setHlp_uartIn (n : Nat) (v : HlPort) : (s.setHlp n v).uartIn = s.uartIn := rfl
@[simp] theorem State.setHlp_tapDbg (n : Nat) (v : HlPort) : (s.setHlp n v).tapDbg = s.tapDbg := rfl
@[simp] theorem State.setHlp_bar4 (n : Nat) (v : HlPort) : (s.setHlp n v).bar4 = s.bar4 := rfl
@[simp] theorem State.setHlp_outs (n : Nat) (v : HlPort) : (s.setHlp n v).outs = s.outs := rfl

/-! `setFrame` writes `frames` only -/

@[simp] theorem State.setFrame_pending (n : Nat) (v : Frame) : (s.setFrame n v).pending = s.pending := rfl
@[simp] theorem State.setFrame_ts (n : Nat) (v : Frame) : (s.setFrame n v).ts = s.ts := rfl
@[simp] theorem State.setFrame_fresh (n : Nat) (v : Frame) : (s.setFrame n v).fresh = s.fresh := rfl
@[simp] theorem State.setFrame_nextId (n : Nat) (v : Frame) : (s.setFrame n v).nextId = s.nextId := rfl
@[simp] theorem State.setFrame_objs (n : Nat) (v : Frame) : (s.setFrame n v).objs = s.objs := rfl
@[simp] theorem State.setFrame_doms (n : Nat) (v : Frame) : (s.setFrame n v).doms = s.doms := rfl
@[simp] theorem State.setFrame_flash (n : Nat) (v : Frame) : (s.setFrame n v).flash = s.flash := rfl
@[simp] theorem State.setFrame_flashDoms (n : Nat) (v : Frame) : (s.setFrame n v).flashDoms = s.flashDoms := rfl
@[simp] theorem State.setFrame_combs (n : Nat) (v : Frame) : (s.setFrame n v).combs = s.combs := rfl
@[simp] theorem State.setFrame_ctxs (n : Nat) (v : Frame) : (s.setFrame n v).ctxs = s.ctxs := rfl
@[simp] theorem State.setFrame_rings (n : Nat) (v : Frame) : (s.setFrame n v).rings = s.rings := rfl
@[simp] theorem State.setFrame_net (n : Nat) (v : Frame) : (s.setFrame n v).net = s.net := rfl
@[simp] theorem State.setFrame_tx (n : Nat) (v : Frame) : (s.setFrame n v).tx = s.tx := rfl
@[simp] theorem State.setFrame_rx (n : Nat) (v : Frame) : (s.setFrame n v).rx = s.rx := rfl
@[simp] theorem State.setFrame_incs (n : Nat) (v : Frame) : (s.setFrame n v).incs = s.incs := rfl
@[simp] theorem State.setFrame_fcMode (n : Nat) (v : Frame) : (s.setFrame n v).fcMode = s.fcMode := rfl
@[simp] theorem State.setFrame_ports (n : Nat) (v : Frame) : (s.setFrame n v).ports = s.ports := rfl
@[simp] theorem State.setFrame_hl (n : Nat) (v : Frame) : (s.setFrame n v).hl = s.hl := rfl
@[simp] theorem State.setFrame_events (n : Nat) (v : Frame) : (s.setFrame n v).events = s.events := rfl
@[simp] theorem State.setFrame_opFrz (n : Nat) (v : Frame) : (s.setFrame n v).opFrz = s.opFrz := rfl
@[simp] theorem State.setFrame_opFrzOver (n : Nat) (v : Frame) : (s.setFrame n v).opFrzOver = s.opFrzOver := rfl
@[simp] theorem State.setFrame_opFrzMore (n : Nat) (v : Frame) : (s.setFrame n v).opFrzMore = s.opFrzMore := rfl
@[simp] theorem State.setFrame_spdm (n : Nat) (v : Frame) : (s.setFrame n v).spdm = s.spdm := rfl
@[simp] theorem State.setFrame_dbgChal (n : Nat) (v : Frame) : (s.setFrame n v).dbgChal = s.dbgChal := rfl
@[simp] theorem State.setFrame_grant (n : Nat) (v : Frame) : (s.setFrame n v).grant = s.grant := rfl
@[simp] theorem State.setFrame_dbgEnding (n : Nat) (v : Frame) : (s.setFrame n v).dbgEnding = s.dbgEnding := rfl
@[simp] theorem State.setFrame_dbg (n : Nat) (v : Frame) : (s.setFrame n v).dbg = s.dbg := rfl
@[simp] theorem State.setFrame_intake (n : Nat) (v : Frame) : (s.setFrame n v).intake = s.intake := rfl
@[simp] theorem State.setFrame_elog (n : Nat) (v : Frame) : (s.setFrame n v).elog = s.elog := rfl
@[simp] theorem State.setFrame_cper (n : Nat) (v : Frame) : (s.setFrame n v).cper = s.cper := rfl
@[simp] theorem State.setFrame_cperNext (n : Nat) (v : Frame) : (s.setFrame n v).cperNext = s.cperNext := rfl
@[simp] theorem State.setFrame_bundle (n : Nat) (v : Frame) : (s.setFrame n v).bundle = s.bundle := rfl
@[simp] theorem State.setFrame_maint (n : Nat) (v : Frame) : (s.setFrame n v).maint = s.maint := rfl
@[simp] theorem State.setFrame_ticket (n : Nat) (v : Frame) : (s.setFrame n v).ticket = s.ticket := rfl
@[simp] theorem State.setFrame_convs (n : Nat) (v : Frame) : (s.setFrame n v).convs = s.convs := rfl
@[simp] theorem State.setFrame_power (n : Nat) (v : Frame) : (s.setFrame n v).power = s.power := rfl
@[simp] theorem State.setFrame_refs (n : Nat) (v : Frame) : (s.setFrame n v).refs = s.refs := rfl
@[simp] theorem State.setFrame_boot (n : Nat) (v : Frame) : (s.setFrame n v).boot = s.boot := rfl
@[simp] theorem State.setFrame_mgmt (n : Nat) (v : Frame) : (s.setFrame n v).mgmt = s.mgmt := rfl
@[simp] theorem State.setFrame_pins (n : Nat) (v : Frame) : (s.setFrame n v).pins = s.pins := rfl
@[simp] theorem State.setFrame_pulse (n : Nat) (v : Frame) : (s.setFrame n v).pulse = s.pulse := rfl
@[simp] theorem State.setFrame_uartIn (n : Nat) (v : Frame) : (s.setFrame n v).uartIn = s.uartIn := rfl
@[simp] theorem State.setFrame_tapDbg (n : Nat) (v : Frame) : (s.setFrame n v).tapDbg = s.tapDbg := rfl
@[simp] theorem State.setFrame_bar4 (n : Nat) (v : Frame) : (s.setFrame n v).bar4 = s.bar4 := rfl
@[simp] theorem State.setFrame_outs (n : Nat) (v : Frame) : (s.setFrame n v).outs = s.outs := rfl

/-! `setConv` writes `convs` only -/

@[simp] theorem State.setConv_pending (n : Nat) (v : Conv) : (s.setConv n v).pending = s.pending := rfl
@[simp] theorem State.setConv_ts (n : Nat) (v : Conv) : (s.setConv n v).ts = s.ts := rfl
@[simp] theorem State.setConv_fresh (n : Nat) (v : Conv) : (s.setConv n v).fresh = s.fresh := rfl
@[simp] theorem State.setConv_nextId (n : Nat) (v : Conv) : (s.setConv n v).nextId = s.nextId := rfl
@[simp] theorem State.setConv_objs (n : Nat) (v : Conv) : (s.setConv n v).objs = s.objs := rfl
@[simp] theorem State.setConv_doms (n : Nat) (v : Conv) : (s.setConv n v).doms = s.doms := rfl
@[simp] theorem State.setConv_flash (n : Nat) (v : Conv) : (s.setConv n v).flash = s.flash := rfl
@[simp] theorem State.setConv_flashDoms (n : Nat) (v : Conv) : (s.setConv n v).flashDoms = s.flashDoms := rfl
@[simp] theorem State.setConv_combs (n : Nat) (v : Conv) : (s.setConv n v).combs = s.combs := rfl
@[simp] theorem State.setConv_frames (n : Nat) (v : Conv) : (s.setConv n v).frames = s.frames := rfl
@[simp] theorem State.setConv_ctxs (n : Nat) (v : Conv) : (s.setConv n v).ctxs = s.ctxs := rfl
@[simp] theorem State.setConv_rings (n : Nat) (v : Conv) : (s.setConv n v).rings = s.rings := rfl
@[simp] theorem State.setConv_net (n : Nat) (v : Conv) : (s.setConv n v).net = s.net := rfl
@[simp] theorem State.setConv_tx (n : Nat) (v : Conv) : (s.setConv n v).tx = s.tx := rfl
@[simp] theorem State.setConv_rx (n : Nat) (v : Conv) : (s.setConv n v).rx = s.rx := rfl
@[simp] theorem State.setConv_incs (n : Nat) (v : Conv) : (s.setConv n v).incs = s.incs := rfl
@[simp] theorem State.setConv_fcMode (n : Nat) (v : Conv) : (s.setConv n v).fcMode = s.fcMode := rfl
@[simp] theorem State.setConv_ports (n : Nat) (v : Conv) : (s.setConv n v).ports = s.ports := rfl
@[simp] theorem State.setConv_hl (n : Nat) (v : Conv) : (s.setConv n v).hl = s.hl := rfl
@[simp] theorem State.setConv_events (n : Nat) (v : Conv) : (s.setConv n v).events = s.events := rfl
@[simp] theorem State.setConv_opFrz (n : Nat) (v : Conv) : (s.setConv n v).opFrz = s.opFrz := rfl
@[simp] theorem State.setConv_opFrzOver (n : Nat) (v : Conv) : (s.setConv n v).opFrzOver = s.opFrzOver := rfl
@[simp] theorem State.setConv_opFrzMore (n : Nat) (v : Conv) : (s.setConv n v).opFrzMore = s.opFrzMore := rfl
@[simp] theorem State.setConv_spdm (n : Nat) (v : Conv) : (s.setConv n v).spdm = s.spdm := rfl
@[simp] theorem State.setConv_dbgChal (n : Nat) (v : Conv) : (s.setConv n v).dbgChal = s.dbgChal := rfl
@[simp] theorem State.setConv_grant (n : Nat) (v : Conv) : (s.setConv n v).grant = s.grant := rfl
@[simp] theorem State.setConv_dbgEnding (n : Nat) (v : Conv) : (s.setConv n v).dbgEnding = s.dbgEnding := rfl
@[simp] theorem State.setConv_dbg (n : Nat) (v : Conv) : (s.setConv n v).dbg = s.dbg := rfl
@[simp] theorem State.setConv_intake (n : Nat) (v : Conv) : (s.setConv n v).intake = s.intake := rfl
@[simp] theorem State.setConv_elog (n : Nat) (v : Conv) : (s.setConv n v).elog = s.elog := rfl
@[simp] theorem State.setConv_cper (n : Nat) (v : Conv) : (s.setConv n v).cper = s.cper := rfl
@[simp] theorem State.setConv_cperNext (n : Nat) (v : Conv) : (s.setConv n v).cperNext = s.cperNext := rfl
@[simp] theorem State.setConv_bundle (n : Nat) (v : Conv) : (s.setConv n v).bundle = s.bundle := rfl
@[simp] theorem State.setConv_maint (n : Nat) (v : Conv) : (s.setConv n v).maint = s.maint := rfl
@[simp] theorem State.setConv_ticket (n : Nat) (v : Conv) : (s.setConv n v).ticket = s.ticket := rfl
@[simp] theorem State.setConv_power (n : Nat) (v : Conv) : (s.setConv n v).power = s.power := rfl
@[simp] theorem State.setConv_refs (n : Nat) (v : Conv) : (s.setConv n v).refs = s.refs := rfl
@[simp] theorem State.setConv_boot (n : Nat) (v : Conv) : (s.setConv n v).boot = s.boot := rfl
@[simp] theorem State.setConv_mgmt (n : Nat) (v : Conv) : (s.setConv n v).mgmt = s.mgmt := rfl
@[simp] theorem State.setConv_pins (n : Nat) (v : Conv) : (s.setConv n v).pins = s.pins := rfl
@[simp] theorem State.setConv_pulse (n : Nat) (v : Conv) : (s.setConv n v).pulse = s.pulse := rfl
@[simp] theorem State.setConv_uartIn (n : Nat) (v : Conv) : (s.setConv n v).uartIn = s.uartIn := rfl
@[simp] theorem State.setConv_tapDbg (n : Nat) (v : Conv) : (s.setConv n v).tapDbg = s.tapDbg := rfl
@[simp] theorem State.setConv_bar4 (n : Nat) (v : Conv) : (s.setConv n v).bar4 = s.bar4 := rfl
@[simp] theorem State.setConv_outs (n : Nat) (v : Conv) : (s.setConv n v).outs = s.outs := rfl

/-! `setPin` writes `pins` only -/

@[simp] theorem State.setPin_pending (n : Nat) (v : Pin) : (s.setPin n v).pending = s.pending := rfl
@[simp] theorem State.setPin_ts (n : Nat) (v : Pin) : (s.setPin n v).ts = s.ts := rfl
@[simp] theorem State.setPin_fresh (n : Nat) (v : Pin) : (s.setPin n v).fresh = s.fresh := rfl
@[simp] theorem State.setPin_nextId (n : Nat) (v : Pin) : (s.setPin n v).nextId = s.nextId := rfl
@[simp] theorem State.setPin_objs (n : Nat) (v : Pin) : (s.setPin n v).objs = s.objs := rfl
@[simp] theorem State.setPin_doms (n : Nat) (v : Pin) : (s.setPin n v).doms = s.doms := rfl
@[simp] theorem State.setPin_flash (n : Nat) (v : Pin) : (s.setPin n v).flash = s.flash := rfl
@[simp] theorem State.setPin_flashDoms (n : Nat) (v : Pin) : (s.setPin n v).flashDoms = s.flashDoms := rfl
@[simp] theorem State.setPin_combs (n : Nat) (v : Pin) : (s.setPin n v).combs = s.combs := rfl
@[simp] theorem State.setPin_frames (n : Nat) (v : Pin) : (s.setPin n v).frames = s.frames := rfl
@[simp] theorem State.setPin_ctxs (n : Nat) (v : Pin) : (s.setPin n v).ctxs = s.ctxs := rfl
@[simp] theorem State.setPin_rings (n : Nat) (v : Pin) : (s.setPin n v).rings = s.rings := rfl
@[simp] theorem State.setPin_net (n : Nat) (v : Pin) : (s.setPin n v).net = s.net := rfl
@[simp] theorem State.setPin_tx (n : Nat) (v : Pin) : (s.setPin n v).tx = s.tx := rfl
@[simp] theorem State.setPin_rx (n : Nat) (v : Pin) : (s.setPin n v).rx = s.rx := rfl
@[simp] theorem State.setPin_incs (n : Nat) (v : Pin) : (s.setPin n v).incs = s.incs := rfl
@[simp] theorem State.setPin_fcMode (n : Nat) (v : Pin) : (s.setPin n v).fcMode = s.fcMode := rfl
@[simp] theorem State.setPin_ports (n : Nat) (v : Pin) : (s.setPin n v).ports = s.ports := rfl
@[simp] theorem State.setPin_hl (n : Nat) (v : Pin) : (s.setPin n v).hl = s.hl := rfl
@[simp] theorem State.setPin_events (n : Nat) (v : Pin) : (s.setPin n v).events = s.events := rfl
@[simp] theorem State.setPin_opFrz (n : Nat) (v : Pin) : (s.setPin n v).opFrz = s.opFrz := rfl
@[simp] theorem State.setPin_opFrzOver (n : Nat) (v : Pin) : (s.setPin n v).opFrzOver = s.opFrzOver := rfl
@[simp] theorem State.setPin_opFrzMore (n : Nat) (v : Pin) : (s.setPin n v).opFrzMore = s.opFrzMore := rfl
@[simp] theorem State.setPin_spdm (n : Nat) (v : Pin) : (s.setPin n v).spdm = s.spdm := rfl
@[simp] theorem State.setPin_dbgChal (n : Nat) (v : Pin) : (s.setPin n v).dbgChal = s.dbgChal := rfl
@[simp] theorem State.setPin_grant (n : Nat) (v : Pin) : (s.setPin n v).grant = s.grant := rfl
@[simp] theorem State.setPin_dbgEnding (n : Nat) (v : Pin) : (s.setPin n v).dbgEnding = s.dbgEnding := rfl
@[simp] theorem State.setPin_dbg (n : Nat) (v : Pin) : (s.setPin n v).dbg = s.dbg := rfl
@[simp] theorem State.setPin_intake (n : Nat) (v : Pin) : (s.setPin n v).intake = s.intake := rfl
@[simp] theorem State.setPin_elog (n : Nat) (v : Pin) : (s.setPin n v).elog = s.elog := rfl
@[simp] theorem State.setPin_cper (n : Nat) (v : Pin) : (s.setPin n v).cper = s.cper := rfl
@[simp] theorem State.setPin_cperNext (n : Nat) (v : Pin) : (s.setPin n v).cperNext = s.cperNext := rfl
@[simp] theorem State.setPin_bundle (n : Nat) (v : Pin) : (s.setPin n v).bundle = s.bundle := rfl
@[simp] theorem State.setPin_maint (n : Nat) (v : Pin) : (s.setPin n v).maint = s.maint := rfl
@[simp] theorem State.setPin_ticket (n : Nat) (v : Pin) : (s.setPin n v).ticket = s.ticket := rfl
@[simp] theorem State.setPin_convs (n : Nat) (v : Pin) : (s.setPin n v).convs = s.convs := rfl
@[simp] theorem State.setPin_power (n : Nat) (v : Pin) : (s.setPin n v).power = s.power := rfl
@[simp] theorem State.setPin_refs (n : Nat) (v : Pin) : (s.setPin n v).refs = s.refs := rfl
@[simp] theorem State.setPin_boot (n : Nat) (v : Pin) : (s.setPin n v).boot = s.boot := rfl
@[simp] theorem State.setPin_mgmt (n : Nat) (v : Pin) : (s.setPin n v).mgmt = s.mgmt := rfl
@[simp] theorem State.setPin_pulse (n : Nat) (v : Pin) : (s.setPin n v).pulse = s.pulse := rfl
@[simp] theorem State.setPin_uartIn (n : Nat) (v : Pin) : (s.setPin n v).uartIn = s.uartIn := rfl
@[simp] theorem State.setPin_tapDbg (n : Nat) (v : Pin) : (s.setPin n v).tapDbg = s.tapDbg := rfl
@[simp] theorem State.setPin_bar4 (n : Nat) (v : Pin) : (s.setPin n v).bar4 = s.bar4 := rfl
@[simp] theorem State.setPin_outs (n : Nat) (v : Pin) : (s.setPin n v).outs = s.outs := rfl

/-! `out` writes `outs` only -/

@[simp] theorem State.out_pending (o : OutMsg) : (s.out o).pending = s.pending := rfl
@[simp] theorem State.out_ts (o : OutMsg) : (s.out o).ts = s.ts := rfl
@[simp] theorem State.out_fresh (o : OutMsg) : (s.out o).fresh = s.fresh := rfl
@[simp] theorem State.out_nextId (o : OutMsg) : (s.out o).nextId = s.nextId := rfl
@[simp] theorem State.out_objs (o : OutMsg) : (s.out o).objs = s.objs := rfl
@[simp] theorem State.out_doms (o : OutMsg) : (s.out o).doms = s.doms := rfl
@[simp] theorem State.out_flash (o : OutMsg) : (s.out o).flash = s.flash := rfl
@[simp] theorem State.out_flashDoms (o : OutMsg) : (s.out o).flashDoms = s.flashDoms := rfl
@[simp] theorem State.out_combs (o : OutMsg) : (s.out o).combs = s.combs := rfl
@[simp] theorem State.out_frames (o : OutMsg) : (s.out o).frames = s.frames := rfl
@[simp] theorem State.out_ctxs (o : OutMsg) : (s.out o).ctxs = s.ctxs := rfl
@[simp] theorem State.out_rings (o : OutMsg) : (s.out o).rings = s.rings := rfl
@[simp] theorem State.out_net (o : OutMsg) : (s.out o).net = s.net := rfl
@[simp] theorem State.out_tx (o : OutMsg) : (s.out o).tx = s.tx := rfl
@[simp] theorem State.out_rx (o : OutMsg) : (s.out o).rx = s.rx := rfl
@[simp] theorem State.out_incs (o : OutMsg) : (s.out o).incs = s.incs := rfl
@[simp] theorem State.out_fcMode (o : OutMsg) : (s.out o).fcMode = s.fcMode := rfl
@[simp] theorem State.out_ports (o : OutMsg) : (s.out o).ports = s.ports := rfl
@[simp] theorem State.out_hl (o : OutMsg) : (s.out o).hl = s.hl := rfl
@[simp] theorem State.out_events (o : OutMsg) : (s.out o).events = s.events := rfl
@[simp] theorem State.out_opFrz (o : OutMsg) : (s.out o).opFrz = s.opFrz := rfl
@[simp] theorem State.out_opFrzOver (o : OutMsg) : (s.out o).opFrzOver = s.opFrzOver := rfl
@[simp] theorem State.out_opFrzMore (o : OutMsg) : (s.out o).opFrzMore = s.opFrzMore := rfl
@[simp] theorem State.out_spdm (o : OutMsg) : (s.out o).spdm = s.spdm := rfl
@[simp] theorem State.out_dbgChal (o : OutMsg) : (s.out o).dbgChal = s.dbgChal := rfl
@[simp] theorem State.out_grant (o : OutMsg) : (s.out o).grant = s.grant := rfl
@[simp] theorem State.out_dbgEnding (o : OutMsg) : (s.out o).dbgEnding = s.dbgEnding := rfl
@[simp] theorem State.out_dbg (o : OutMsg) : (s.out o).dbg = s.dbg := rfl
@[simp] theorem State.out_intake (o : OutMsg) : (s.out o).intake = s.intake := rfl
@[simp] theorem State.out_elog (o : OutMsg) : (s.out o).elog = s.elog := rfl
@[simp] theorem State.out_cper (o : OutMsg) : (s.out o).cper = s.cper := rfl
@[simp] theorem State.out_cperNext (o : OutMsg) : (s.out o).cperNext = s.cperNext := rfl
@[simp] theorem State.out_bundle (o : OutMsg) : (s.out o).bundle = s.bundle := rfl
@[simp] theorem State.out_maint (o : OutMsg) : (s.out o).maint = s.maint := rfl
@[simp] theorem State.out_ticket (o : OutMsg) : (s.out o).ticket = s.ticket := rfl
@[simp] theorem State.out_convs (o : OutMsg) : (s.out o).convs = s.convs := rfl
@[simp] theorem State.out_power (o : OutMsg) : (s.out o).power = s.power := rfl
@[simp] theorem State.out_refs (o : OutMsg) : (s.out o).refs = s.refs := rfl
@[simp] theorem State.out_boot (o : OutMsg) : (s.out o).boot = s.boot := rfl
@[simp] theorem State.out_mgmt (o : OutMsg) : (s.out o).mgmt = s.mgmt := rfl
@[simp] theorem State.out_pins (o : OutMsg) : (s.out o).pins = s.pins := rfl
@[simp] theorem State.out_pulse (o : OutMsg) : (s.out o).pulse = s.pulse := rfl
@[simp] theorem State.out_uartIn (o : OutMsg) : (s.out o).uartIn = s.uartIn := rfl
@[simp] theorem State.out_tapDbg (o : OutMsg) : (s.out o).tapDbg = s.tapDbg := rfl
@[simp] theorem State.out_bar4 (o : OutMsg) : (s.out o).bar4 = s.bar4 := rfl

/-! `setObj` writes `objs` only -/

@[simp] theorem State.setObj_pending (i idx sub v : Nat) : (s.setObj i idx sub v).pending = s.pending := rfl
@[simp] theorem State.setObj_ts (i idx sub v : Nat) : (s.setObj i idx sub v).ts = s.ts := rfl
@[simp] theorem State.setObj_fresh (i idx sub v : Nat) : (s.setObj i idx sub v).fresh = s.fresh := rfl
@[simp] theorem State.setObj_nextId (i idx sub v : Nat) : (s.setObj i idx sub v).nextId = s.nextId := rfl
@[simp] theorem State.setObj_doms (i idx sub v : Nat) : (s.setObj i idx sub v).doms = s.doms := rfl
@[simp] theorem State.setObj_flash (i idx sub v : Nat) : (s.setObj i idx sub v).flash = s.flash := rfl
@[simp] theorem State.setObj_flashDoms (i idx sub v : Nat) : (s.setObj i idx sub v).flashDoms = s.flashDoms := rfl
@[simp] theorem State.setObj_combs (i idx sub v : Nat) : (s.setObj i idx sub v).combs = s.combs := rfl
@[simp] theorem State.setObj_frames (i idx sub v : Nat) : (s.setObj i idx sub v).frames = s.frames := rfl
@[simp] theorem State.setObj_ctxs (i idx sub v : Nat) : (s.setObj i idx sub v).ctxs = s.ctxs := rfl
@[simp] theorem State.setObj_rings (i idx sub v : Nat) : (s.setObj i idx sub v).rings = s.rings := rfl
@[simp] theorem State.setObj_net (i idx sub v : Nat) : (s.setObj i idx sub v).net = s.net := rfl
@[simp] theorem State.setObj_tx (i idx sub v : Nat) : (s.setObj i idx sub v).tx = s.tx := rfl
@[simp] theorem State.setObj_rx (i idx sub v : Nat) : (s.setObj i idx sub v).rx = s.rx := rfl
@[simp] theorem State.setObj_incs (i idx sub v : Nat) : (s.setObj i idx sub v).incs = s.incs := rfl
@[simp] theorem State.setObj_fcMode (i idx sub v : Nat) : (s.setObj i idx sub v).fcMode = s.fcMode := rfl
@[simp] theorem State.setObj_ports (i idx sub v : Nat) : (s.setObj i idx sub v).ports = s.ports := rfl
@[simp] theorem State.setObj_hl (i idx sub v : Nat) : (s.setObj i idx sub v).hl = s.hl := rfl
@[simp] theorem State.setObj_events (i idx sub v : Nat) : (s.setObj i idx sub v).events = s.events := rfl
@[simp] theorem State.setObj_opFrz (i idx sub v : Nat) : (s.setObj i idx sub v).opFrz = s.opFrz := rfl
@[simp] theorem State.setObj_opFrzOver (i idx sub v : Nat) : (s.setObj i idx sub v).opFrzOver = s.opFrzOver := rfl
@[simp] theorem State.setObj_opFrzMore (i idx sub v : Nat) : (s.setObj i idx sub v).opFrzMore = s.opFrzMore := rfl
@[simp] theorem State.setObj_spdm (i idx sub v : Nat) : (s.setObj i idx sub v).spdm = s.spdm := rfl
@[simp] theorem State.setObj_dbgChal (i idx sub v : Nat) : (s.setObj i idx sub v).dbgChal = s.dbgChal := rfl
@[simp] theorem State.setObj_grant (i idx sub v : Nat) : (s.setObj i idx sub v).grant = s.grant := rfl
@[simp] theorem State.setObj_dbgEnding (i idx sub v : Nat) : (s.setObj i idx sub v).dbgEnding = s.dbgEnding := rfl
@[simp] theorem State.setObj_dbg (i idx sub v : Nat) : (s.setObj i idx sub v).dbg = s.dbg := rfl
@[simp] theorem State.setObj_intake (i idx sub v : Nat) : (s.setObj i idx sub v).intake = s.intake := rfl
@[simp] theorem State.setObj_elog (i idx sub v : Nat) : (s.setObj i idx sub v).elog = s.elog := rfl
@[simp] theorem State.setObj_cper (i idx sub v : Nat) : (s.setObj i idx sub v).cper = s.cper := rfl
@[simp] theorem State.setObj_cperNext (i idx sub v : Nat) : (s.setObj i idx sub v).cperNext = s.cperNext := rfl
@[simp] theorem State.setObj_bundle (i idx sub v : Nat) : (s.setObj i idx sub v).bundle = s.bundle := rfl
@[simp] theorem State.setObj_maint (i idx sub v : Nat) : (s.setObj i idx sub v).maint = s.maint := rfl
@[simp] theorem State.setObj_ticket (i idx sub v : Nat) : (s.setObj i idx sub v).ticket = s.ticket := rfl
@[simp] theorem State.setObj_convs (i idx sub v : Nat) : (s.setObj i idx sub v).convs = s.convs := rfl
@[simp] theorem State.setObj_power (i idx sub v : Nat) : (s.setObj i idx sub v).power = s.power := rfl
@[simp] theorem State.setObj_refs (i idx sub v : Nat) : (s.setObj i idx sub v).refs = s.refs := rfl
@[simp] theorem State.setObj_boot (i idx sub v : Nat) : (s.setObj i idx sub v).boot = s.boot := rfl
@[simp] theorem State.setObj_mgmt (i idx sub v : Nat) : (s.setObj i idx sub v).mgmt = s.mgmt := rfl
@[simp] theorem State.setObj_pins (i idx sub v : Nat) : (s.setObj i idx sub v).pins = s.pins := rfl
@[simp] theorem State.setObj_pulse (i idx sub v : Nat) : (s.setObj i idx sub v).pulse = s.pulse := rfl
@[simp] theorem State.setObj_uartIn (i idx sub v : Nat) : (s.setObj i idx sub v).uartIn = s.uartIn := rfl
@[simp] theorem State.setObj_tapDbg (i idx sub v : Nat) : (s.setObj i idx sub v).tapDbg = s.tapDbg := rfl
@[simp] theorem State.setObj_bar4 (i idx sub v : Nat) : (s.setObj i idx sub v).bar4 = s.bar4 := rfl
@[simp] theorem State.setObj_outs (i idx sub v : Nat) : (s.setObj i idx sub v).outs = s.outs := rfl

/-! `setDom` writes `doms` only -/

@[simp] theorem State.setDom_pending (i idx sub : Nat) (v : List Byte) : (s.setDom i idx sub v).pending = s.pending := rfl
@[simp] theorem State.setDom_ts (i idx sub : Nat) (v : List Byte) : (s.setDom i idx sub v).ts = s.ts := rfl
@[simp] theorem State.setDom_fresh (i idx sub : Nat) (v : List Byte) : (s.setDom i idx sub v).fresh = s.fresh := rfl
@[simp] theorem State.setDom_nextId (i idx sub : Nat) (v : List Byte) : (s.setDom i idx sub v).nextId = s.nextId := rfl
@[simp] theorem State.setDom_objs (i idx sub : Nat) (v : List Byte) : (s.setDom i idx sub v).objs = s.objs := rfl
@[simp] theorem State.setDom_flash (i idx sub : Nat) (v : List Byte) : (s.setDom i idx sub v).flash = s.flash := rfl
@[simp] theorem State.setDom_flashDoms (i idx sub : Nat) (v : List Byte) : (s.setDom i idx sub v).flashDoms = s.flashDoms := rfl
@[simp] theorem State.setDom_combs (i idx sub : Nat) (v : List Byte) : (s.setDom i idx sub v).combs = s.combs := rfl
@[simp] theorem State.setDom_frames (i idx sub : Nat) (v : List Byte) : (s.setDom i idx sub v).frames = s.frames := rfl
@[simp] theorem State.setDom_ctxs (i idx sub : Nat) (v : List Byte) : (s.setDom i idx sub v).ctxs = s.ctxs := rfl
@[simp] theorem State.setDom_rings (i idx sub : Nat) (v : List Byte) : (s.setDom i idx sub v).rings = s.rings := rfl
@[simp] theorem State.setDom_net (i idx sub : Nat) (v : List Byte) : (s.setDom i idx sub v).net = s.net := rfl
@[simp] theorem State.setDom_tx (i idx sub : Nat) (v : List Byte) : (s.setDom i idx sub v).tx = s.tx := rfl
@[simp] theorem State.setDom_rx (i idx sub : Nat) (v : List Byte) : (s.setDom i idx sub v).rx = s.rx := rfl
@[simp] theorem State.setDom_incs (i idx sub : Nat) (v : List Byte) : (s.setDom i idx sub v).incs = s.incs := rfl
@[simp] theorem State.setDom_fcMode (i idx sub : Nat) (v : List Byte) : (s.setDom i idx sub v).fcMode = s.fcMode := rfl
@[simp] theorem State.setDom_ports (i idx sub : Nat) (v : List Byte) : (s.setDom i idx sub v).ports = s.ports := rfl
@[simp] theorem State.setDom_hl (i idx sub : Nat) (v : List Byte) : (s.setDom i idx sub v).hl = s.hl := rfl
@[simp] theorem State.setDom_events (i idx sub : Nat) (v : List Byte) : (s.setDom i idx sub v).events = s.events := rfl
@[simp] theorem State.setDom_opFrz (i idx sub : Nat) (v : List Byte) : (s.setDom i idx sub v).opFrz = s.opFrz := rfl
@[simp] theorem State.setDom_opFrzOver (i idx sub : Nat) (v : List Byte) : (s.setDom i idx sub v).opFrzOver = s.opFrzOver := rfl
@[simp] theorem State.setDom_opFrzMore (i idx sub : Nat) (v : List Byte) : (s.setDom i idx sub v).opFrzMore = s.opFrzMore := rfl
@[simp] theorem State.setDom_spdm (i idx sub : Nat) (v : List Byte) : (s.setDom i idx sub v).spdm = s.spdm := rfl
@[simp] theorem State.setDom_dbgChal (i idx sub : Nat) (v : List Byte) : (s.setDom i idx sub v).dbgChal = s.dbgChal := rfl
@[simp] theorem State.setDom_grant (i idx sub : Nat) (v : List Byte) : (s.setDom i idx sub v).grant = s.grant := rfl
@[simp] theorem State.setDom_dbgEnding (i idx sub : Nat) (v : List Byte) : (s.setDom i idx sub v).dbgEnding = s.dbgEnding := rfl
@[simp] theorem State.setDom_dbg (i idx sub : Nat) (v : List Byte) : (s.setDom i idx sub v).dbg = s.dbg := rfl
@[simp] theorem State.setDom_intake (i idx sub : Nat) (v : List Byte) : (s.setDom i idx sub v).intake = s.intake := rfl
@[simp] theorem State.setDom_elog (i idx sub : Nat) (v : List Byte) : (s.setDom i idx sub v).elog = s.elog := rfl
@[simp] theorem State.setDom_cper (i idx sub : Nat) (v : List Byte) : (s.setDom i idx sub v).cper = s.cper := rfl
@[simp] theorem State.setDom_cperNext (i idx sub : Nat) (v : List Byte) : (s.setDom i idx sub v).cperNext = s.cperNext := rfl
@[simp] theorem State.setDom_bundle (i idx sub : Nat) (v : List Byte) : (s.setDom i idx sub v).bundle = s.bundle := rfl
@[simp] theorem State.setDom_maint (i idx sub : Nat) (v : List Byte) : (s.setDom i idx sub v).maint = s.maint := rfl
@[simp] theorem State.setDom_ticket (i idx sub : Nat) (v : List Byte) : (s.setDom i idx sub v).ticket = s.ticket := rfl
@[simp] theorem State.setDom_convs (i idx sub : Nat) (v : List Byte) : (s.setDom i idx sub v).convs = s.convs := rfl
@[simp] theorem State.setDom_power (i idx sub : Nat) (v : List Byte) : (s.setDom i idx sub v).power = s.power := rfl
@[simp] theorem State.setDom_refs (i idx sub : Nat) (v : List Byte) : (s.setDom i idx sub v).refs = s.refs := rfl
@[simp] theorem State.setDom_boot (i idx sub : Nat) (v : List Byte) : (s.setDom i idx sub v).boot = s.boot := rfl
@[simp] theorem State.setDom_mgmt (i idx sub : Nat) (v : List Byte) : (s.setDom i idx sub v).mgmt = s.mgmt := rfl
@[simp] theorem State.setDom_pins (i idx sub : Nat) (v : List Byte) : (s.setDom i idx sub v).pins = s.pins := rfl
@[simp] theorem State.setDom_pulse (i idx sub : Nat) (v : List Byte) : (s.setDom i idx sub v).pulse = s.pulse := rfl
@[simp] theorem State.setDom_uartIn (i idx sub : Nat) (v : List Byte) : (s.setDom i idx sub v).uartIn = s.uartIn := rfl
@[simp] theorem State.setDom_tapDbg (i idx sub : Nat) (v : List Byte) : (s.setDom i idx sub v).tapDbg = s.tapDbg := rfl
@[simp] theorem State.setDom_bar4 (i idx sub : Nat) (v : List Byte) : (s.setDom i idx sub v).bar4 = s.bar4 := rfl
@[simp] theorem State.setDom_outs (i idx sub : Nat) (v : List Byte) : (s.setDom i idx sub v).outs = s.outs := rfl

/-! `setArea` writes `combs` only -/

@[simp] theorem State.setArea_pending (c : Nat) (v : Area) : (s.setArea c v).pending = s.pending := rfl
@[simp] theorem State.setArea_ts (c : Nat) (v : Area) : (s.setArea c v).ts = s.ts := rfl
@[simp] theorem State.setArea_fresh (c : Nat) (v : Area) : (s.setArea c v).fresh = s.fresh := rfl
@[simp] theorem State.setArea_nextId (c : Nat) (v : Area) : (s.setArea c v).nextId = s.nextId := rfl
@[simp] theorem State.setArea_objs (c : Nat) (v : Area) : (s.setArea c v).objs = s.objs := rfl
@[simp] theorem State.setArea_doms (c : Nat) (v : Area) : (s.setArea c v).doms = s.doms := rfl
@[simp] theorem State.setArea_flash (c : Nat) (v : Area) : (s.setArea c v).flash = s.flash := rfl
@[simp] theorem State.setArea_flashDoms (c : Nat) (v : Area) : (s.setArea c v).flashDoms = s.flashDoms := rfl
@[simp] theorem State.setArea_frames (c : Nat) (v : Area) : (s.setArea c v).frames = s.frames := rfl
@[simp] theorem State.setArea_ctxs (c : Nat) (v : Area) : (s.setArea c v).ctxs = s.ctxs := rfl
@[simp] theorem State.setArea_rings (c : Nat) (v : Area) : (s.setArea c v).rings = s.rings := rfl
@[simp] theorem State.setArea_net (c : Nat) (v : Area) : (s.setArea c v).net = s.net := rfl
@[simp] theorem State.setArea_tx (c : Nat) (v : Area) : (s.setArea c v).tx = s.tx := rfl
@[simp] theorem State.setArea_rx (c : Nat) (v : Area) : (s.setArea c v).rx = s.rx := rfl
@[simp] theorem State.setArea_incs (c : Nat) (v : Area) : (s.setArea c v).incs = s.incs := rfl
@[simp] theorem State.setArea_fcMode (c : Nat) (v : Area) : (s.setArea c v).fcMode = s.fcMode := rfl
@[simp] theorem State.setArea_ports (c : Nat) (v : Area) : (s.setArea c v).ports = s.ports := rfl
@[simp] theorem State.setArea_hl (c : Nat) (v : Area) : (s.setArea c v).hl = s.hl := rfl
@[simp] theorem State.setArea_events (c : Nat) (v : Area) : (s.setArea c v).events = s.events := rfl
@[simp] theorem State.setArea_opFrz (c : Nat) (v : Area) : (s.setArea c v).opFrz = s.opFrz := rfl
@[simp] theorem State.setArea_opFrzOver (c : Nat) (v : Area) : (s.setArea c v).opFrzOver = s.opFrzOver := rfl
@[simp] theorem State.setArea_opFrzMore (c : Nat) (v : Area) : (s.setArea c v).opFrzMore = s.opFrzMore := rfl
@[simp] theorem State.setArea_spdm (c : Nat) (v : Area) : (s.setArea c v).spdm = s.spdm := rfl
@[simp] theorem State.setArea_dbgChal (c : Nat) (v : Area) : (s.setArea c v).dbgChal = s.dbgChal := rfl
@[simp] theorem State.setArea_grant (c : Nat) (v : Area) : (s.setArea c v).grant = s.grant := rfl
@[simp] theorem State.setArea_dbgEnding (c : Nat) (v : Area) : (s.setArea c v).dbgEnding = s.dbgEnding := rfl
@[simp] theorem State.setArea_dbg (c : Nat) (v : Area) : (s.setArea c v).dbg = s.dbg := rfl
@[simp] theorem State.setArea_intake (c : Nat) (v : Area) : (s.setArea c v).intake = s.intake := rfl
@[simp] theorem State.setArea_elog (c : Nat) (v : Area) : (s.setArea c v).elog = s.elog := rfl
@[simp] theorem State.setArea_cper (c : Nat) (v : Area) : (s.setArea c v).cper = s.cper := rfl
@[simp] theorem State.setArea_cperNext (c : Nat) (v : Area) : (s.setArea c v).cperNext = s.cperNext := rfl
@[simp] theorem State.setArea_bundle (c : Nat) (v : Area) : (s.setArea c v).bundle = s.bundle := rfl
@[simp] theorem State.setArea_maint (c : Nat) (v : Area) : (s.setArea c v).maint = s.maint := rfl
@[simp] theorem State.setArea_ticket (c : Nat) (v : Area) : (s.setArea c v).ticket = s.ticket := rfl
@[simp] theorem State.setArea_convs (c : Nat) (v : Area) : (s.setArea c v).convs = s.convs := rfl
@[simp] theorem State.setArea_power (c : Nat) (v : Area) : (s.setArea c v).power = s.power := rfl
@[simp] theorem State.setArea_refs (c : Nat) (v : Area) : (s.setArea c v).refs = s.refs := rfl
@[simp] theorem State.setArea_boot (c : Nat) (v : Area) : (s.setArea c v).boot = s.boot := rfl
@[simp] theorem State.setArea_mgmt (c : Nat) (v : Area) : (s.setArea c v).mgmt = s.mgmt := rfl
@[simp] theorem State.setArea_pins (c : Nat) (v : Area) : (s.setArea c v).pins = s.pins := rfl
@[simp] theorem State.setArea_pulse (c : Nat) (v : Area) : (s.setArea c v).pulse = s.pulse := rfl
@[simp] theorem State.setArea_uartIn (c : Nat) (v : Area) : (s.setArea c v).uartIn = s.uartIn := rfl
@[simp] theorem State.setArea_tapDbg (c : Nat) (v : Area) : (s.setArea c v).tapDbg = s.tapDbg := rfl
@[simp] theorem State.setArea_bar4 (c : Nat) (v : Area) : (s.setArea c v).bar4 = s.bar4 := rfl
@[simp] theorem State.setArea_outs (c : Nat) (v : Area) : (s.setArea c v).outs = s.outs := rfl

/-! `setWorker` writes `combs` only -/

@[simp] theorem State.setWorker_pending (c k : Nat) (v : Worker) : (s.setWorker c k v).pending = s.pending := rfl
@[simp] theorem State.setWorker_ts (c k : Nat) (v : Worker) : (s.setWorker c k v).ts = s.ts := rfl
@[simp] theorem State.setWorker_fresh (c k : Nat) (v : Worker) : (s.setWorker c k v).fresh = s.fresh := rfl
@[simp] theorem State.setWorker_nextId (c k : Nat) (v : Worker) : (s.setWorker c k v).nextId = s.nextId := rfl
@[simp] theorem State.setWorker_objs (c k : Nat) (v : Worker) : (s.setWorker c k v).objs = s.objs := rfl
@[simp] theorem State.setWorker_doms (c k : Nat) (v : Worker) : (s.setWorker c k v).doms = s.doms := rfl
@[simp] theorem State.setWorker_flash (c k : Nat) (v : Worker) : (s.setWorker c k v).flash = s.flash := rfl
@[simp] theorem State.setWorker_flashDoms (c k : Nat) (v : Worker) : (s.setWorker c k v).flashDoms = s.flashDoms := rfl
@[simp] theorem State.setWorker_frames (c k : Nat) (v : Worker) : (s.setWorker c k v).frames = s.frames := rfl
@[simp] theorem State.setWorker_ctxs (c k : Nat) (v : Worker) : (s.setWorker c k v).ctxs = s.ctxs := rfl
@[simp] theorem State.setWorker_rings (c k : Nat) (v : Worker) : (s.setWorker c k v).rings = s.rings := rfl
@[simp] theorem State.setWorker_net (c k : Nat) (v : Worker) : (s.setWorker c k v).net = s.net := rfl
@[simp] theorem State.setWorker_tx (c k : Nat) (v : Worker) : (s.setWorker c k v).tx = s.tx := rfl
@[simp] theorem State.setWorker_rx (c k : Nat) (v : Worker) : (s.setWorker c k v).rx = s.rx := rfl
@[simp] theorem State.setWorker_incs (c k : Nat) (v : Worker) : (s.setWorker c k v).incs = s.incs := rfl
@[simp] theorem State.setWorker_fcMode (c k : Nat) (v : Worker) : (s.setWorker c k v).fcMode = s.fcMode := rfl
@[simp] theorem State.setWorker_ports (c k : Nat) (v : Worker) : (s.setWorker c k v).ports = s.ports := rfl
@[simp] theorem State.setWorker_hl (c k : Nat) (v : Worker) : (s.setWorker c k v).hl = s.hl := rfl
@[simp] theorem State.setWorker_events (c k : Nat) (v : Worker) : (s.setWorker c k v).events = s.events := rfl
@[simp] theorem State.setWorker_opFrz (c k : Nat) (v : Worker) : (s.setWorker c k v).opFrz = s.opFrz := rfl
@[simp] theorem State.setWorker_opFrzOver (c k : Nat) (v : Worker) : (s.setWorker c k v).opFrzOver = s.opFrzOver := rfl
@[simp] theorem State.setWorker_opFrzMore (c k : Nat) (v : Worker) : (s.setWorker c k v).opFrzMore = s.opFrzMore := rfl
@[simp] theorem State.setWorker_spdm (c k : Nat) (v : Worker) : (s.setWorker c k v).spdm = s.spdm := rfl
@[simp] theorem State.setWorker_dbgChal (c k : Nat) (v : Worker) : (s.setWorker c k v).dbgChal = s.dbgChal := rfl
@[simp] theorem State.setWorker_grant (c k : Nat) (v : Worker) : (s.setWorker c k v).grant = s.grant := rfl
@[simp] theorem State.setWorker_dbgEnding (c k : Nat) (v : Worker) : (s.setWorker c k v).dbgEnding = s.dbgEnding := rfl
@[simp] theorem State.setWorker_dbg (c k : Nat) (v : Worker) : (s.setWorker c k v).dbg = s.dbg := rfl
@[simp] theorem State.setWorker_intake (c k : Nat) (v : Worker) : (s.setWorker c k v).intake = s.intake := rfl
@[simp] theorem State.setWorker_elog (c k : Nat) (v : Worker) : (s.setWorker c k v).elog = s.elog := rfl
@[simp] theorem State.setWorker_cper (c k : Nat) (v : Worker) : (s.setWorker c k v).cper = s.cper := rfl
@[simp] theorem State.setWorker_cperNext (c k : Nat) (v : Worker) : (s.setWorker c k v).cperNext = s.cperNext := rfl
@[simp] theorem State.setWorker_bundle (c k : Nat) (v : Worker) : (s.setWorker c k v).bundle = s.bundle := rfl
@[simp] theorem State.setWorker_maint (c k : Nat) (v : Worker) : (s.setWorker c k v).maint = s.maint := rfl
@[simp] theorem State.setWorker_ticket (c k : Nat) (v : Worker) : (s.setWorker c k v).ticket = s.ticket := rfl
@[simp] theorem State.setWorker_convs (c k : Nat) (v : Worker) : (s.setWorker c k v).convs = s.convs := rfl
@[simp] theorem State.setWorker_power (c k : Nat) (v : Worker) : (s.setWorker c k v).power = s.power := rfl
@[simp] theorem State.setWorker_refs (c k : Nat) (v : Worker) : (s.setWorker c k v).refs = s.refs := rfl
@[simp] theorem State.setWorker_boot (c k : Nat) (v : Worker) : (s.setWorker c k v).boot = s.boot := rfl
@[simp] theorem State.setWorker_mgmt (c k : Nat) (v : Worker) : (s.setWorker c k v).mgmt = s.mgmt := rfl
@[simp] theorem State.setWorker_pins (c k : Nat) (v : Worker) : (s.setWorker c k v).pins = s.pins := rfl
@[simp] theorem State.setWorker_pulse (c k : Nat) (v : Worker) : (s.setWorker c k v).pulse = s.pulse := rfl
@[simp] theorem State.setWorker_uartIn (c k : Nat) (v : Worker) : (s.setWorker c k v).uartIn = s.uartIn := rfl
@[simp] theorem State.setWorker_tapDbg (c k : Nat) (v : Worker) : (s.setWorker c k v).tapDbg = s.tapDbg := rfl
@[simp] theorem State.setWorker_bar4 (c k : Nat) (v : Worker) : (s.setWorker c k v).bar4 = s.bar4 := rfl
@[simp] theorem State.setWorker_outs (c k : Nat) (v : Worker) : (s.setWorker c k v).outs = s.outs := rfl

/-! `setStore` writes `combs` only -/

@[simp] theorem State.setStore_pending (c k : Nat) (v : StoreCell) : (s.setStore c k v).pending = s.pending := rfl
@[simp] theorem State.setStore_ts (c k : Nat) (v : StoreCell) : (s.setStore c k v).ts = s.ts := rfl
@[simp] theorem State.setStore_fresh (c k : Nat) (v : StoreCell) : (s.setStore c k v).fresh = s.fresh := rfl
@[simp] theorem State.setStore_nextId (c k : Nat) (v : StoreCell) : (s.setStore c k v).nextId = s.nextId := rfl
@[simp] theorem State.setStore_objs (c k : Nat) (v : StoreCell) : (s.setStore c k v).objs = s.objs := rfl
@[simp] theorem State.setStore_doms (c k : Nat) (v : StoreCell) : (s.setStore c k v).doms = s.doms := rfl
@[simp] theorem State.setStore_flash (c k : Nat) (v : StoreCell) : (s.setStore c k v).flash = s.flash := rfl
@[simp] theorem State.setStore_flashDoms (c k : Nat) (v : StoreCell) : (s.setStore c k v).flashDoms = s.flashDoms := rfl
@[simp] theorem State.setStore_frames (c k : Nat) (v : StoreCell) : (s.setStore c k v).frames = s.frames := rfl
@[simp] theorem State.setStore_ctxs (c k : Nat) (v : StoreCell) : (s.setStore c k v).ctxs = s.ctxs := rfl
@[simp] theorem State.setStore_rings (c k : Nat) (v : StoreCell) : (s.setStore c k v).rings = s.rings := rfl
@[simp] theorem State.setStore_net (c k : Nat) (v : StoreCell) : (s.setStore c k v).net = s.net := rfl
@[simp] theorem State.setStore_tx (c k : Nat) (v : StoreCell) : (s.setStore c k v).tx = s.tx := rfl
@[simp] theorem State.setStore_rx (c k : Nat) (v : StoreCell) : (s.setStore c k v).rx = s.rx := rfl
@[simp] theorem State.setStore_incs (c k : Nat) (v : StoreCell) : (s.setStore c k v).incs = s.incs := rfl
@[simp] theorem State.setStore_fcMode (c k : Nat) (v : StoreCell) : (s.setStore c k v).fcMode = s.fcMode := rfl
@[simp] theorem State.setStore_ports (c k : Nat) (v : StoreCell) : (s.setStore c k v).ports = s.ports := rfl
@[simp] theorem State.setStore_hl (c k : Nat) (v : StoreCell) : (s.setStore c k v).hl = s.hl := rfl
@[simp] theorem State.setStore_events (c k : Nat) (v : StoreCell) : (s.setStore c k v).events = s.events := rfl
@[simp] theorem State.setStore_opFrz (c k : Nat) (v : StoreCell) : (s.setStore c k v).opFrz = s.opFrz := rfl
@[simp] theorem State.setStore_opFrzOver (c k : Nat) (v : StoreCell) : (s.setStore c k v).opFrzOver = s.opFrzOver := rfl
@[simp] theorem State.setStore_opFrzMore (c k : Nat) (v : StoreCell) : (s.setStore c k v).opFrzMore = s.opFrzMore := rfl
@[simp] theorem State.setStore_spdm (c k : Nat) (v : StoreCell) : (s.setStore c k v).spdm = s.spdm := rfl
@[simp] theorem State.setStore_dbgChal (c k : Nat) (v : StoreCell) : (s.setStore c k v).dbgChal = s.dbgChal := rfl
@[simp] theorem State.setStore_grant (c k : Nat) (v : StoreCell) : (s.setStore c k v).grant = s.grant := rfl
@[simp] theorem State.setStore_dbgEnding (c k : Nat) (v : StoreCell) : (s.setStore c k v).dbgEnding = s.dbgEnding := rfl
@[simp] theorem State.setStore_dbg (c k : Nat) (v : StoreCell) : (s.setStore c k v).dbg = s.dbg := rfl
@[simp] theorem State.setStore_intake (c k : Nat) (v : StoreCell) : (s.setStore c k v).intake = s.intake := rfl
@[simp] theorem State.setStore_elog (c k : Nat) (v : StoreCell) : (s.setStore c k v).elog = s.elog := rfl
@[simp] theorem State.setStore_cper (c k : Nat) (v : StoreCell) : (s.setStore c k v).cper = s.cper := rfl
@[simp] theorem State.setStore_cperNext (c k : Nat) (v : StoreCell) : (s.setStore c k v).cperNext = s.cperNext := rfl
@[simp] theorem State.setStore_bundle (c k : Nat) (v : StoreCell) : (s.setStore c k v).bundle = s.bundle := rfl
@[simp] theorem State.setStore_maint (c k : Nat) (v : StoreCell) : (s.setStore c k v).maint = s.maint := rfl
@[simp] theorem State.setStore_ticket (c k : Nat) (v : StoreCell) : (s.setStore c k v).ticket = s.ticket := rfl
@[simp] theorem State.setStore_convs (c k : Nat) (v : StoreCell) : (s.setStore c k v).convs = s.convs := rfl
@[simp] theorem State.setStore_power (c k : Nat) (v : StoreCell) : (s.setStore c k v).power = s.power := rfl
@[simp] theorem State.setStore_refs (c k : Nat) (v : StoreCell) : (s.setStore c k v).refs = s.refs := rfl
@[simp] theorem State.setStore_boot (c k : Nat) (v : StoreCell) : (s.setStore c k v).boot = s.boot := rfl
@[simp] theorem State.setStore_mgmt (c k : Nat) (v : StoreCell) : (s.setStore c k v).mgmt = s.mgmt := rfl
@[simp] theorem State.setStore_pins (c k : Nat) (v : StoreCell) : (s.setStore c k v).pins = s.pins := rfl
@[simp] theorem State.setStore_pulse (c k : Nat) (v : StoreCell) : (s.setStore c k v).pulse = s.pulse := rfl
@[simp] theorem State.setStore_uartIn (c k : Nat) (v : StoreCell) : (s.setStore c k v).uartIn = s.uartIn := rfl
@[simp] theorem State.setStore_tapDbg (c k : Nat) (v : StoreCell) : (s.setStore c k v).tapDbg = s.tapDbg := rfl
@[simp] theorem State.setStore_bar4 (c k : Nat) (v : StoreCell) : (s.setStore c k v).bar4 = s.bar4 := rfl
@[simp] theorem State.setStore_outs (c k : Nat) (v : StoreCell) : (s.setStore c k v).outs = s.outs := rfl

/-! `setEng` writes `combs` only -/

@[simp] theorem State.setEng_pending (c : Nat) (v : Engine) : (s.setEng c v).pending = s.pending := rfl
@[simp] theorem State.setEng_ts (c : Nat) (v : Engine) : (s.setEng c v).ts = s.ts := rfl
@[simp] theorem State.setEng_fresh (c : Nat) (v : Engine) : (s.setEng c v).fresh = s.fresh := rfl
@[simp] theorem State.setEng_nextId (c : Nat) (v : Engine) : (s.setEng c v).nextId = s.nextId := rfl
@[simp] theorem State.setEng_objs (c : Nat) (v : Engine) : (s.setEng c v).objs = s.objs := rfl
@[simp] theorem State.setEng_doms (c : Nat) (v : Engine) : (s.setEng c v).doms = s.doms := rfl
@[simp] theorem State.setEng_flash (c : Nat) (v : Engine) : (s.setEng c v).flash = s.flash := rfl
@[simp] theorem State.setEng_flashDoms (c : Nat) (v : Engine) : (s.setEng c v).flashDoms = s.flashDoms := rfl
@[simp] theorem State.setEng_frames (c : Nat) (v : Engine) : (s.setEng c v).frames = s.frames := rfl
@[simp] theorem State.setEng_ctxs (c : Nat) (v : Engine) : (s.setEng c v).ctxs = s.ctxs := rfl
@[simp] theorem State.setEng_rings (c : Nat) (v : Engine) : (s.setEng c v).rings = s.rings := rfl
@[simp] theorem State.setEng_net (c : Nat) (v : Engine) : (s.setEng c v).net = s.net := rfl
@[simp] theorem State.setEng_tx (c : Nat) (v : Engine) : (s.setEng c v).tx = s.tx := rfl
@[simp] theorem State.setEng_rx (c : Nat) (v : Engine) : (s.setEng c v).rx = s.rx := rfl
@[simp] theorem State.setEng_incs (c : Nat) (v : Engine) : (s.setEng c v).incs = s.incs := rfl
@[simp] theorem State.setEng_fcMode (c : Nat) (v : Engine) : (s.setEng c v).fcMode = s.fcMode := rfl
@[simp] theorem State.setEng_ports (c : Nat) (v : Engine) : (s.setEng c v).ports = s.ports := rfl
@[simp] theorem State.setEng_hl (c : Nat) (v : Engine) : (s.setEng c v).hl = s.hl := rfl
@[simp] theorem State.setEng_events (c : Nat) (v : Engine) : (s.setEng c v).events = s.events := rfl
@[simp] theorem State.setEng_opFrz (c : Nat) (v : Engine) : (s.setEng c v).opFrz = s.opFrz := rfl
@[simp] theorem State.setEng_opFrzOver (c : Nat) (v : Engine) : (s.setEng c v).opFrzOver = s.opFrzOver := rfl
@[simp] theorem State.setEng_opFrzMore (c : Nat) (v : Engine) : (s.setEng c v).opFrzMore = s.opFrzMore := rfl
@[simp] theorem State.setEng_spdm (c : Nat) (v : Engine) : (s.setEng c v).spdm = s.spdm := rfl
@[simp] theorem State.setEng_dbgChal (c : Nat) (v : Engine) : (s.setEng c v).dbgChal = s.dbgChal := rfl
@[simp] theorem State.setEng_grant (c : Nat) (v : Engine) : (s.setEng c v).grant = s.grant := rfl
@[simp] theorem State.setEng_dbgEnding (c : Nat) (v : Engine) : (s.setEng c v).dbgEnding = s.dbgEnding := rfl
@[simp] theorem State.setEng_dbg (c : Nat) (v : Engine) : (s.setEng c v).dbg = s.dbg := rfl
@[simp] theorem State.setEng_intake (c : Nat) (v : Engine) : (s.setEng c v).intake = s.intake := rfl
@[simp] theorem State.setEng_elog (c : Nat) (v : Engine) : (s.setEng c v).elog = s.elog := rfl
@[simp] theorem State.setEng_cper (c : Nat) (v : Engine) : (s.setEng c v).cper = s.cper := rfl
@[simp] theorem State.setEng_cperNext (c : Nat) (v : Engine) : (s.setEng c v).cperNext = s.cperNext := rfl
@[simp] theorem State.setEng_bundle (c : Nat) (v : Engine) : (s.setEng c v).bundle = s.bundle := rfl
@[simp] theorem State.setEng_maint (c : Nat) (v : Engine) : (s.setEng c v).maint = s.maint := rfl
@[simp] theorem State.setEng_ticket (c : Nat) (v : Engine) : (s.setEng c v).ticket = s.ticket := rfl
@[simp] theorem State.setEng_convs (c : Nat) (v : Engine) : (s.setEng c v).convs = s.convs := rfl
@[simp] theorem State.setEng_power (c : Nat) (v : Engine) : (s.setEng c v).power = s.power := rfl
@[simp] theorem State.setEng_refs (c : Nat) (v : Engine) : (s.setEng c v).refs = s.refs := rfl
@[simp] theorem State.setEng_boot (c : Nat) (v : Engine) : (s.setEng c v).boot = s.boot := rfl
@[simp] theorem State.setEng_mgmt (c : Nat) (v : Engine) : (s.setEng c v).mgmt = s.mgmt := rfl
@[simp] theorem State.setEng_pins (c : Nat) (v : Engine) : (s.setEng c v).pins = s.pins := rfl
@[simp] theorem State.setEng_pulse (c : Nat) (v : Engine) : (s.setEng c v).pulse = s.pulse := rfl
@[simp] theorem State.setEng_uartIn (c : Nat) (v : Engine) : (s.setEng c v).uartIn = s.uartIn := rfl
@[simp] theorem State.setEng_tapDbg (c : Nat) (v : Engine) : (s.setEng c v).tapDbg = s.tapDbg := rfl
@[simp] theorem State.setEng_bar4 (c : Nat) (v : Engine) : (s.setEng c v).bar4 = s.bar4 := rfl
@[simp] theorem State.setEng_outs (c : Nat) (v : Engine) : (s.setEng c v).outs = s.outs := rfl

/-! `setForager` writes `combs` only -/

@[simp] theorem State.setForager_pending (c f : Nat) (v : Forager) : (s.setForager c f v).pending = s.pending := rfl
@[simp] theorem State.setForager_ts (c f : Nat) (v : Forager) : (s.setForager c f v).ts = s.ts := rfl
@[simp] theorem State.setForager_fresh (c f : Nat) (v : Forager) : (s.setForager c f v).fresh = s.fresh := rfl
@[simp] theorem State.setForager_nextId (c f : Nat) (v : Forager) : (s.setForager c f v).nextId = s.nextId := rfl
@[simp] theorem State.setForager_objs (c f : Nat) (v : Forager) : (s.setForager c f v).objs = s.objs := rfl
@[simp] theorem State.setForager_doms (c f : Nat) (v : Forager) : (s.setForager c f v).doms = s.doms := rfl
@[simp] theorem State.setForager_flash (c f : Nat) (v : Forager) : (s.setForager c f v).flash = s.flash := rfl
@[simp] theorem State.setForager_flashDoms (c f : Nat) (v : Forager) : (s.setForager c f v).flashDoms = s.flashDoms := rfl
@[simp] theorem State.setForager_frames (c f : Nat) (v : Forager) : (s.setForager c f v).frames = s.frames := rfl
@[simp] theorem State.setForager_ctxs (c f : Nat) (v : Forager) : (s.setForager c f v).ctxs = s.ctxs := rfl
@[simp] theorem State.setForager_rings (c f : Nat) (v : Forager) : (s.setForager c f v).rings = s.rings := rfl
@[simp] theorem State.setForager_net (c f : Nat) (v : Forager) : (s.setForager c f v).net = s.net := rfl
@[simp] theorem State.setForager_tx (c f : Nat) (v : Forager) : (s.setForager c f v).tx = s.tx := rfl
@[simp] theorem State.setForager_rx (c f : Nat) (v : Forager) : (s.setForager c f v).rx = s.rx := rfl
@[simp] theorem State.setForager_incs (c f : Nat) (v : Forager) : (s.setForager c f v).incs = s.incs := rfl
@[simp] theorem State.setForager_fcMode (c f : Nat) (v : Forager) : (s.setForager c f v).fcMode = s.fcMode := rfl
@[simp] theorem State.setForager_ports (c f : Nat) (v : Forager) : (s.setForager c f v).ports = s.ports := rfl
@[simp] theorem State.setForager_hl (c f : Nat) (v : Forager) : (s.setForager c f v).hl = s.hl := rfl
@[simp] theorem State.setForager_events (c f : Nat) (v : Forager) : (s.setForager c f v).events = s.events := rfl
@[simp] theorem State.setForager_opFrz (c f : Nat) (v : Forager) : (s.setForager c f v).opFrz = s.opFrz := rfl
@[simp] theorem State.setForager_opFrzOver (c f : Nat) (v : Forager) : (s.setForager c f v).opFrzOver = s.opFrzOver := rfl
@[simp] theorem State.setForager_opFrzMore (c f : Nat) (v : Forager) : (s.setForager c f v).opFrzMore = s.opFrzMore := rfl
@[simp] theorem State.setForager_spdm (c f : Nat) (v : Forager) : (s.setForager c f v).spdm = s.spdm := rfl
@[simp] theorem State.setForager_dbgChal (c f : Nat) (v : Forager) : (s.setForager c f v).dbgChal = s.dbgChal := rfl
@[simp] theorem State.setForager_grant (c f : Nat) (v : Forager) : (s.setForager c f v).grant = s.grant := rfl
@[simp] theorem State.setForager_dbgEnding (c f : Nat) (v : Forager) : (s.setForager c f v).dbgEnding = s.dbgEnding := rfl
@[simp] theorem State.setForager_dbg (c f : Nat) (v : Forager) : (s.setForager c f v).dbg = s.dbg := rfl
@[simp] theorem State.setForager_intake (c f : Nat) (v : Forager) : (s.setForager c f v).intake = s.intake := rfl
@[simp] theorem State.setForager_elog (c f : Nat) (v : Forager) : (s.setForager c f v).elog = s.elog := rfl
@[simp] theorem State.setForager_cper (c f : Nat) (v : Forager) : (s.setForager c f v).cper = s.cper := rfl
@[simp] theorem State.setForager_cperNext (c f : Nat) (v : Forager) : (s.setForager c f v).cperNext = s.cperNext := rfl
@[simp] theorem State.setForager_bundle (c f : Nat) (v : Forager) : (s.setForager c f v).bundle = s.bundle := rfl
@[simp] theorem State.setForager_maint (c f : Nat) (v : Forager) : (s.setForager c f v).maint = s.maint := rfl
@[simp] theorem State.setForager_ticket (c f : Nat) (v : Forager) : (s.setForager c f v).ticket = s.ticket := rfl
@[simp] theorem State.setForager_convs (c f : Nat) (v : Forager) : (s.setForager c f v).convs = s.convs := rfl
@[simp] theorem State.setForager_power (c f : Nat) (v : Forager) : (s.setForager c f v).power = s.power := rfl
@[simp] theorem State.setForager_refs (c f : Nat) (v : Forager) : (s.setForager c f v).refs = s.refs := rfl
@[simp] theorem State.setForager_boot (c f : Nat) (v : Forager) : (s.setForager c f v).boot = s.boot := rfl
@[simp] theorem State.setForager_mgmt (c f : Nat) (v : Forager) : (s.setForager c f v).mgmt = s.mgmt := rfl
@[simp] theorem State.setForager_pins (c f : Nat) (v : Forager) : (s.setForager c f v).pins = s.pins := rfl
@[simp] theorem State.setForager_pulse (c f : Nat) (v : Forager) : (s.setForager c f v).pulse = s.pulse := rfl
@[simp] theorem State.setForager_uartIn (c f : Nat) (v : Forager) : (s.setForager c f v).uartIn = s.uartIn := rfl
@[simp] theorem State.setForager_tapDbg (c f : Nat) (v : Forager) : (s.setForager c f v).tapDbg = s.tapDbg := rfl
@[simp] theorem State.setForager_bar4 (c f : Nat) (v : Forager) : (s.setForager c f v).bar4 = s.bar4 := rfl
@[simp] theorem State.setForager_outs (c f : Nat) (v : Forager) : (s.setForager c f v).outs = s.outs := rfl

/-! `setSlot` writes `combs` only -/

@[simp] theorem State.setSlot_pending (u : SlotRef) (v : WSlot) : (s.setSlot u v).pending = s.pending := rfl
@[simp] theorem State.setSlot_ts (u : SlotRef) (v : WSlot) : (s.setSlot u v).ts = s.ts := rfl
@[simp] theorem State.setSlot_fresh (u : SlotRef) (v : WSlot) : (s.setSlot u v).fresh = s.fresh := rfl
@[simp] theorem State.setSlot_nextId (u : SlotRef) (v : WSlot) : (s.setSlot u v).nextId = s.nextId := rfl
@[simp] theorem State.setSlot_objs (u : SlotRef) (v : WSlot) : (s.setSlot u v).objs = s.objs := rfl
@[simp] theorem State.setSlot_doms (u : SlotRef) (v : WSlot) : (s.setSlot u v).doms = s.doms := rfl
@[simp] theorem State.setSlot_flash (u : SlotRef) (v : WSlot) : (s.setSlot u v).flash = s.flash := rfl
@[simp] theorem State.setSlot_flashDoms (u : SlotRef) (v : WSlot) : (s.setSlot u v).flashDoms = s.flashDoms := rfl
@[simp] theorem State.setSlot_frames (u : SlotRef) (v : WSlot) : (s.setSlot u v).frames = s.frames := rfl
@[simp] theorem State.setSlot_ctxs (u : SlotRef) (v : WSlot) : (s.setSlot u v).ctxs = s.ctxs := rfl
@[simp] theorem State.setSlot_rings (u : SlotRef) (v : WSlot) : (s.setSlot u v).rings = s.rings := rfl
@[simp] theorem State.setSlot_net (u : SlotRef) (v : WSlot) : (s.setSlot u v).net = s.net := rfl
@[simp] theorem State.setSlot_tx (u : SlotRef) (v : WSlot) : (s.setSlot u v).tx = s.tx := rfl
@[simp] theorem State.setSlot_rx (u : SlotRef) (v : WSlot) : (s.setSlot u v).rx = s.rx := rfl
@[simp] theorem State.setSlot_incs (u : SlotRef) (v : WSlot) : (s.setSlot u v).incs = s.incs := rfl
@[simp] theorem State.setSlot_fcMode (u : SlotRef) (v : WSlot) : (s.setSlot u v).fcMode = s.fcMode := rfl
@[simp] theorem State.setSlot_ports (u : SlotRef) (v : WSlot) : (s.setSlot u v).ports = s.ports := rfl
@[simp] theorem State.setSlot_hl (u : SlotRef) (v : WSlot) : (s.setSlot u v).hl = s.hl := rfl
@[simp] theorem State.setSlot_events (u : SlotRef) (v : WSlot) : (s.setSlot u v).events = s.events := rfl
@[simp] theorem State.setSlot_opFrz (u : SlotRef) (v : WSlot) : (s.setSlot u v).opFrz = s.opFrz := rfl
@[simp] theorem State.setSlot_opFrzOver (u : SlotRef) (v : WSlot) : (s.setSlot u v).opFrzOver = s.opFrzOver := rfl
@[simp] theorem State.setSlot_opFrzMore (u : SlotRef) (v : WSlot) : (s.setSlot u v).opFrzMore = s.opFrzMore := rfl
@[simp] theorem State.setSlot_spdm (u : SlotRef) (v : WSlot) : (s.setSlot u v).spdm = s.spdm := rfl
@[simp] theorem State.setSlot_dbgChal (u : SlotRef) (v : WSlot) : (s.setSlot u v).dbgChal = s.dbgChal := rfl
@[simp] theorem State.setSlot_grant (u : SlotRef) (v : WSlot) : (s.setSlot u v).grant = s.grant := rfl
@[simp] theorem State.setSlot_dbgEnding (u : SlotRef) (v : WSlot) : (s.setSlot u v).dbgEnding = s.dbgEnding := rfl
@[simp] theorem State.setSlot_dbg (u : SlotRef) (v : WSlot) : (s.setSlot u v).dbg = s.dbg := rfl
@[simp] theorem State.setSlot_intake (u : SlotRef) (v : WSlot) : (s.setSlot u v).intake = s.intake := rfl
@[simp] theorem State.setSlot_elog (u : SlotRef) (v : WSlot) : (s.setSlot u v).elog = s.elog := rfl
@[simp] theorem State.setSlot_cper (u : SlotRef) (v : WSlot) : (s.setSlot u v).cper = s.cper := rfl
@[simp] theorem State.setSlot_cperNext (u : SlotRef) (v : WSlot) : (s.setSlot u v).cperNext = s.cperNext := rfl
@[simp] theorem State.setSlot_bundle (u : SlotRef) (v : WSlot) : (s.setSlot u v).bundle = s.bundle := rfl
@[simp] theorem State.setSlot_maint (u : SlotRef) (v : WSlot) : (s.setSlot u v).maint = s.maint := rfl
@[simp] theorem State.setSlot_ticket (u : SlotRef) (v : WSlot) : (s.setSlot u v).ticket = s.ticket := rfl
@[simp] theorem State.setSlot_convs (u : SlotRef) (v : WSlot) : (s.setSlot u v).convs = s.convs := rfl
@[simp] theorem State.setSlot_power (u : SlotRef) (v : WSlot) : (s.setSlot u v).power = s.power := rfl
@[simp] theorem State.setSlot_refs (u : SlotRef) (v : WSlot) : (s.setSlot u v).refs = s.refs := rfl
@[simp] theorem State.setSlot_boot (u : SlotRef) (v : WSlot) : (s.setSlot u v).boot = s.boot := rfl
@[simp] theorem State.setSlot_mgmt (u : SlotRef) (v : WSlot) : (s.setSlot u v).mgmt = s.mgmt := rfl
@[simp] theorem State.setSlot_pins (u : SlotRef) (v : WSlot) : (s.setSlot u v).pins = s.pins := rfl
@[simp] theorem State.setSlot_pulse (u : SlotRef) (v : WSlot) : (s.setSlot u v).pulse = s.pulse := rfl
@[simp] theorem State.setSlot_uartIn (u : SlotRef) (v : WSlot) : (s.setSlot u v).uartIn = s.uartIn := rfl
@[simp] theorem State.setSlot_tapDbg (u : SlotRef) (v : WSlot) : (s.setSlot u v).tapDbg = s.tapDbg := rfl
@[simp] theorem State.setSlot_bar4 (u : SlotRef) (v : WSlot) : (s.setSlot u v).bar4 = s.bar4 := rfl
@[simp] theorem State.setSlot_outs (u : SlotRef) (v : WSlot) : (s.setSlot u v).outs = s.outs := rfl

/-! Each part reads back as written; the others read as before -/

@[simp] theorem State.comb_setComb_same (k : Nat) (v : Comb) : (s.setComb k v).comb k = v := tget_tput_same _ _ k v
theorem State.comb_setComb (k j : Nat) (v : Comb) : (s.setComb k v).comb j = if j = k then v else s.comb j := tget_tput _ _ k j v
@[simp] theorem State.ctx_setCtx_same (k : Nat) (v : Ctx) : (s.setCtx k v).ctx k = v := tget_tput_same _ _ k v
theorem State.ctx_setCtx (k j : Nat) (v : Ctx) : (s.setCtx k v).ctx j = if j = k then v else s.ctx j := tget_tput _ _ k j v
@[simp] theorem State.ring_setRing_same (k : Nat) (v : Ring) : (s.setRing k v).ring k = v := tget_tput_same _ _ k v
theorem State.ring_setRing (k j : Nat) (v : Ring) : (s.setRing k v).ring j = if j = k then v else s.ring j := tget_tput _ _ k j v
@[simp] theorem State.port_setPort_same (k : Nat) (v : TyPort) : (s.setPort k v).port k = v := tget_tput_same _ _ k v
theorem State.port_setPort (k j : Nat) (v : TyPort) : (s.setPort k v).port j = if j = k then v else s.port j := tget_tput _ _ k j v
@[simp] theorem State.hlp_setHlp_same (k : Nat) (v : HlPort) : (s.setHlp k v).hlp k = v := tget_tput_same _ _ k v
theorem State.hlp_setHlp (k j : Nat) (v : HlPort) : (s.setHlp k v).hlp j = if j = k then v else s.hlp j := tget_tput _ _ k j v
@[simp] theorem State.frame_setFrame_same (k : Nat) (v : Frame) : (s.setFrame k v).frame k = v := tget_tput_same _ _ k v
theorem State.frame_setFrame (k j : Nat) (v : Frame) : (s.setFrame k v).frame j = if j = k then v else s.frame j := tget_tput _ _ k j v
@[simp] theorem State.conv_setConv_same (k : Nat) (v : Conv) : (s.setConv k v).conv k = v := tget_tput_same _ _ k v
theorem State.conv_setConv (k j : Nat) (v : Conv) : (s.setConv k v).conv j = if j = k then v else s.conv j := tget_tput _ _ k j v
@[simp] theorem State.pinOf_setPin_same (k : Nat) (v : Pin) : (s.setPin k v).pinOf k = v := tget_tput_same _ _ k v
theorem State.pinOf_setPin (k j : Nat) (v : Pin) : (s.setPin k v).pinOf j = if j = k then v else s.pinOf j := tget_tput _ _ k j v

@[simp] theorem State.comb_setCtx' (n : Nat) (v : Ctx) (j : Nat) : (s.setCtx n v).comb j = s.comb j := rfl
@[simp] theorem State.comb_setRing' (n : Nat) (v : Ring) (j : Nat) : (s.setRing n v).comb j = s.comb j := rfl
@[simp] theorem State.comb_setPort' (n : Nat) (v : TyPort) (j : Nat) : (s.setPort n v).comb j = s.comb j := rfl
@[simp] theorem State.comb_setHlp' (n : Nat) (v : HlPort) (j : Nat) : (s.setHlp n v).comb j = s.comb j := rfl
@[simp] theorem State.comb_setFrame' (n : Nat) (v : Frame) (j : Nat) : (s.setFrame n v).comb j = s.comb j := rfl
@[simp] theorem State.comb_setConv' (n : Nat) (v : Conv) (j : Nat) : (s.setConv n v).comb j = s.comb j := rfl
@[simp] theorem State.comb_setPin' (n : Nat) (v : Pin) (j : Nat) : (s.setPin n v).comb j = s.comb j := rfl
@[simp] theorem State.comb_out' (o : OutMsg) (j : Nat) : (s.out o).comb j = s.comb j := rfl
@[simp] theorem State.comb_setObj' (i idx sub v : Nat) (j : Nat) : (s.setObj i idx sub v).comb j = s.comb j := rfl
@[simp] theorem State.comb_setDom' (i idx sub : Nat) (v : List Byte) (j : Nat) : (s.setDom i idx sub v).comb j = s.comb j := rfl
@[simp] theorem State.ctx_setComb' (c : Nat) (v : Comb) (j : Nat) : (s.setComb c v).ctx j = s.ctx j := rfl
@[simp] theorem State.ctx_setRing' (n : Nat) (v : Ring) (j : Nat) : (s.setRing n v).ctx j = s.ctx j := rfl
@[simp] theorem State.ctx_setPort' (n : Nat) (v : TyPort) (j : Nat) : (s.setPort n v).ctx j = s.ctx j := rfl
@[simp] theorem State.ctx_setHlp' (n : Nat) (v : HlPort) (j : Nat) : (s.setHlp n v).ctx j = s.ctx j := rfl
@[simp] theorem State.ctx_setFrame' (n : Nat) (v : Frame) (j : Nat) : (s.setFrame n v).ctx j = s.ctx j := rfl
@[simp] theorem State.ctx_setConv' (n : Nat) (v : Conv) (j : Nat) : (s.setConv n v).ctx j = s.ctx j := rfl
@[simp] theorem State.ctx_setPin' (n : Nat) (v : Pin) (j : Nat) : (s.setPin n v).ctx j = s.ctx j := rfl
@[simp] theorem State.ctx_out' (o : OutMsg) (j : Nat) : (s.out o).ctx j = s.ctx j := rfl
@[simp] theorem State.ctx_setObj' (i idx sub v : Nat) (j : Nat) : (s.setObj i idx sub v).ctx j = s.ctx j := rfl
@[simp] theorem State.ctx_setDom' (i idx sub : Nat) (v : List Byte) (j : Nat) : (s.setDom i idx sub v).ctx j = s.ctx j := rfl
@[simp] theorem State.ctx_setArea' (c : Nat) (v : Area) (j : Nat) : (s.setArea c v).ctx j = s.ctx j := rfl
@[simp] theorem State.ctx_setWorker' (c k : Nat) (v : Worker) (j : Nat) : (s.setWorker c k v).ctx j = s.ctx j := rfl
@[simp] theorem State.ctx_setStore' (c k : Nat) (v : StoreCell) (j : Nat) : (s.setStore c k v).ctx j = s.ctx j := rfl
@[simp] theorem State.ctx_setEng' (c : Nat) (v : Engine) (j : Nat) : (s.setEng c v).ctx j = s.ctx j := rfl
@[simp] theorem State.ctx_setForager' (c f : Nat) (v : Forager) (j : Nat) : (s.setForager c f v).ctx j = s.ctx j := rfl
@[simp] theorem State.ctx_setSlot' (u : SlotRef) (v : WSlot) (j : Nat) : (s.setSlot u v).ctx j = s.ctx j := rfl
@[simp] theorem State.ring_setComb' (c : Nat) (v : Comb) (j : Nat) : (s.setComb c v).ring j = s.ring j := rfl
@[simp] theorem State.ring_setCtx' (n : Nat) (v : Ctx) (j : Nat) : (s.setCtx n v).ring j = s.ring j := rfl
@[simp] theorem State.ring_setPort' (n : Nat) (v : TyPort) (j : Nat) : (s.setPort n v).ring j = s.ring j := rfl
@[simp] theorem State.ring_setHlp' (n : Nat) (v : HlPort) (j : Nat) : (s.setHlp n v).ring j = s.ring j := rfl
@[simp] theorem State.ring_setFrame' (n : Nat) (v : Frame) (j : Nat) : (s.setFrame n v).ring j = s.ring j := rfl
@[simp] theorem State.ring_setConv' (n : Nat) (v : Conv) (j : Nat) : (s.setConv n v).ring j = s.ring j := rfl
@[simp] theorem State.ring_setPin' (n : Nat) (v : Pin) (j : Nat) : (s.setPin n v).ring j = s.ring j := rfl
@[simp] theorem State.ring_out' (o : OutMsg) (j : Nat) : (s.out o).ring j = s.ring j := rfl
@[simp] theorem State.ring_setObj' (i idx sub v : Nat) (j : Nat) : (s.setObj i idx sub v).ring j = s.ring j := rfl
@[simp] theorem State.ring_setDom' (i idx sub : Nat) (v : List Byte) (j : Nat) : (s.setDom i idx sub v).ring j = s.ring j := rfl
@[simp] theorem State.ring_setArea' (c : Nat) (v : Area) (j : Nat) : (s.setArea c v).ring j = s.ring j := rfl
@[simp] theorem State.ring_setWorker' (c k : Nat) (v : Worker) (j : Nat) : (s.setWorker c k v).ring j = s.ring j := rfl
@[simp] theorem State.ring_setStore' (c k : Nat) (v : StoreCell) (j : Nat) : (s.setStore c k v).ring j = s.ring j := rfl
@[simp] theorem State.ring_setEng' (c : Nat) (v : Engine) (j : Nat) : (s.setEng c v).ring j = s.ring j := rfl
@[simp] theorem State.ring_setForager' (c f : Nat) (v : Forager) (j : Nat) : (s.setForager c f v).ring j = s.ring j := rfl
@[simp] theorem State.ring_setSlot' (u : SlotRef) (v : WSlot) (j : Nat) : (s.setSlot u v).ring j = s.ring j := rfl
@[simp] theorem State.port_setComb' (c : Nat) (v : Comb) (j : Nat) : (s.setComb c v).port j = s.port j := rfl
@[simp] theorem State.port_setCtx' (n : Nat) (v : Ctx) (j : Nat) : (s.setCtx n v).port j = s.port j := rfl
@[simp] theorem State.port_setRing' (n : Nat) (v : Ring) (j : Nat) : (s.setRing n v).port j = s.port j := rfl
@[simp] theorem State.port_setHlp' (n : Nat) (v : HlPort) (j : Nat) : (s.setHlp n v).port j = s.port j := rfl
@[simp] theorem State.port_setFrame' (n : Nat) (v : Frame) (j : Nat) : (s.setFrame n v).port j = s.port j := rfl
@[simp] theorem State.port_setConv' (n : Nat) (v : Conv) (j : Nat) : (s.setConv n v).port j = s.port j := rfl
@[simp] theorem State.port_setPin' (n : Nat) (v : Pin) (j : Nat) : (s.setPin n v).port j = s.port j := rfl
@[simp] theorem State.port_out' (o : OutMsg) (j : Nat) : (s.out o).port j = s.port j := rfl
@[simp] theorem State.port_setObj' (i idx sub v : Nat) (j : Nat) : (s.setObj i idx sub v).port j = s.port j := rfl
@[simp] theorem State.port_setDom' (i idx sub : Nat) (v : List Byte) (j : Nat) : (s.setDom i idx sub v).port j = s.port j := rfl
@[simp] theorem State.port_setArea' (c : Nat) (v : Area) (j : Nat) : (s.setArea c v).port j = s.port j := rfl
@[simp] theorem State.port_setWorker' (c k : Nat) (v : Worker) (j : Nat) : (s.setWorker c k v).port j = s.port j := rfl
@[simp] theorem State.port_setStore' (c k : Nat) (v : StoreCell) (j : Nat) : (s.setStore c k v).port j = s.port j := rfl
@[simp] theorem State.port_setEng' (c : Nat) (v : Engine) (j : Nat) : (s.setEng c v).port j = s.port j := rfl
@[simp] theorem State.port_setForager' (c f : Nat) (v : Forager) (j : Nat) : (s.setForager c f v).port j = s.port j := rfl
@[simp] theorem State.port_setSlot' (u : SlotRef) (v : WSlot) (j : Nat) : (s.setSlot u v).port j = s.port j := rfl
@[simp] theorem State.hlp_setComb' (c : Nat) (v : Comb) (j : Nat) : (s.setComb c v).hlp j = s.hlp j := rfl
@[simp] theorem State.hlp_setCtx' (n : Nat) (v : Ctx) (j : Nat) : (s.setCtx n v).hlp j = s.hlp j := rfl
@[simp] theorem State.hlp_setRing' (n : Nat) (v : Ring) (j : Nat) : (s.setRing n v).hlp j = s.hlp j := rfl
@[simp] theorem State.hlp_setPort' (n : Nat) (v : TyPort) (j : Nat) : (s.setPort n v).hlp j = s.hlp j := rfl
@[simp] theorem State.hlp_setFrame' (n : Nat) (v : Frame) (j : Nat) : (s.setFrame n v).hlp j = s.hlp j := rfl
@[simp] theorem State.hlp_setConv' (n : Nat) (v : Conv) (j : Nat) : (s.setConv n v).hlp j = s.hlp j := rfl
@[simp] theorem State.hlp_setPin' (n : Nat) (v : Pin) (j : Nat) : (s.setPin n v).hlp j = s.hlp j := rfl
@[simp] theorem State.hlp_out' (o : OutMsg) (j : Nat) : (s.out o).hlp j = s.hlp j := rfl
@[simp] theorem State.hlp_setObj' (i idx sub v : Nat) (j : Nat) : (s.setObj i idx sub v).hlp j = s.hlp j := rfl
@[simp] theorem State.hlp_setDom' (i idx sub : Nat) (v : List Byte) (j : Nat) : (s.setDom i idx sub v).hlp j = s.hlp j := rfl
@[simp] theorem State.hlp_setArea' (c : Nat) (v : Area) (j : Nat) : (s.setArea c v).hlp j = s.hlp j := rfl
@[simp] theorem State.hlp_setWorker' (c k : Nat) (v : Worker) (j : Nat) : (s.setWorker c k v).hlp j = s.hlp j := rfl
@[simp] theorem State.hlp_setStore' (c k : Nat) (v : StoreCell) (j : Nat) : (s.setStore c k v).hlp j = s.hlp j := rfl
@[simp] theorem State.hlp_setEng' (c : Nat) (v : Engine) (j : Nat) : (s.setEng c v).hlp j = s.hlp j := rfl
@[simp] theorem State.hlp_setForager' (c f : Nat) (v : Forager) (j : Nat) : (s.setForager c f v).hlp j = s.hlp j := rfl
@[simp] theorem State.hlp_setSlot' (u : SlotRef) (v : WSlot) (j : Nat) : (s.setSlot u v).hlp j = s.hlp j := rfl
@[simp] theorem State.frame_setComb' (c : Nat) (v : Comb) (j : Nat) : (s.setComb c v).frame j = s.frame j := rfl
@[simp] theorem State.frame_setCtx' (n : Nat) (v : Ctx) (j : Nat) : (s.setCtx n v).frame j = s.frame j := rfl
@[simp] theorem State.frame_setRing' (n : Nat) (v : Ring) (j : Nat) : (s.setRing n v).frame j = s.frame j := rfl
@[simp] theorem State.frame_setPort' (n : Nat) (v : TyPort) (j : Nat) : (s.setPort n v).frame j = s.frame j := rfl
@[simp] theorem State.frame_setHlp' (n : Nat) (v : HlPort) (j : Nat) : (s.setHlp n v).frame j = s.frame j := rfl
@[simp] theorem State.frame_setConv' (n : Nat) (v : Conv) (j : Nat) : (s.setConv n v).frame j = s.frame j := rfl
@[simp] theorem State.frame_setPin' (n : Nat) (v : Pin) (j : Nat) : (s.setPin n v).frame j = s.frame j := rfl
@[simp] theorem State.frame_out' (o : OutMsg) (j : Nat) : (s.out o).frame j = s.frame j := rfl
@[simp] theorem State.frame_setObj' (i idx sub v : Nat) (j : Nat) : (s.setObj i idx sub v).frame j = s.frame j := rfl
@[simp] theorem State.frame_setDom' (i idx sub : Nat) (v : List Byte) (j : Nat) : (s.setDom i idx sub v).frame j = s.frame j := rfl
@[simp] theorem State.frame_setArea' (c : Nat) (v : Area) (j : Nat) : (s.setArea c v).frame j = s.frame j := rfl
@[simp] theorem State.frame_setWorker' (c k : Nat) (v : Worker) (j : Nat) : (s.setWorker c k v).frame j = s.frame j := rfl
@[simp] theorem State.frame_setStore' (c k : Nat) (v : StoreCell) (j : Nat) : (s.setStore c k v).frame j = s.frame j := rfl
@[simp] theorem State.frame_setEng' (c : Nat) (v : Engine) (j : Nat) : (s.setEng c v).frame j = s.frame j := rfl
@[simp] theorem State.frame_setForager' (c f : Nat) (v : Forager) (j : Nat) : (s.setForager c f v).frame j = s.frame j := rfl
@[simp] theorem State.frame_setSlot' (u : SlotRef) (v : WSlot) (j : Nat) : (s.setSlot u v).frame j = s.frame j := rfl
@[simp] theorem State.conv_setComb' (c : Nat) (v : Comb) (j : Nat) : (s.setComb c v).conv j = s.conv j := rfl
@[simp] theorem State.conv_setCtx' (n : Nat) (v : Ctx) (j : Nat) : (s.setCtx n v).conv j = s.conv j := rfl
@[simp] theorem State.conv_setRing' (n : Nat) (v : Ring) (j : Nat) : (s.setRing n v).conv j = s.conv j := rfl
@[simp] theorem State.conv_setPort' (n : Nat) (v : TyPort) (j : Nat) : (s.setPort n v).conv j = s.conv j := rfl
@[simp] theorem State.conv_setHlp' (n : Nat) (v : HlPort) (j : Nat) : (s.setHlp n v).conv j = s.conv j := rfl
@[simp] theorem State.conv_setFrame' (n : Nat) (v : Frame) (j : Nat) : (s.setFrame n v).conv j = s.conv j := rfl
@[simp] theorem State.conv_setPin' (n : Nat) (v : Pin) (j : Nat) : (s.setPin n v).conv j = s.conv j := rfl
@[simp] theorem State.conv_out' (o : OutMsg) (j : Nat) : (s.out o).conv j = s.conv j := rfl
@[simp] theorem State.conv_setObj' (i idx sub v : Nat) (j : Nat) : (s.setObj i idx sub v).conv j = s.conv j := rfl
@[simp] theorem State.conv_setDom' (i idx sub : Nat) (v : List Byte) (j : Nat) : (s.setDom i idx sub v).conv j = s.conv j := rfl
@[simp] theorem State.conv_setArea' (c : Nat) (v : Area) (j : Nat) : (s.setArea c v).conv j = s.conv j := rfl
@[simp] theorem State.conv_setWorker' (c k : Nat) (v : Worker) (j : Nat) : (s.setWorker c k v).conv j = s.conv j := rfl
@[simp] theorem State.conv_setStore' (c k : Nat) (v : StoreCell) (j : Nat) : (s.setStore c k v).conv j = s.conv j := rfl
@[simp] theorem State.conv_setEng' (c : Nat) (v : Engine) (j : Nat) : (s.setEng c v).conv j = s.conv j := rfl
@[simp] theorem State.conv_setForager' (c f : Nat) (v : Forager) (j : Nat) : (s.setForager c f v).conv j = s.conv j := rfl
@[simp] theorem State.conv_setSlot' (u : SlotRef) (v : WSlot) (j : Nat) : (s.setSlot u v).conv j = s.conv j := rfl
@[simp] theorem State.pinOf_setComb' (c : Nat) (v : Comb) (j : Nat) : (s.setComb c v).pinOf j = s.pinOf j := rfl
@[simp] theorem State.pinOf_setCtx' (n : Nat) (v : Ctx) (j : Nat) : (s.setCtx n v).pinOf j = s.pinOf j := rfl
@[simp] theorem State.pinOf_setRing' (n : Nat) (v : Ring) (j : Nat) : (s.setRing n v).pinOf j = s.pinOf j := rfl
@[simp] theorem State.pinOf_setPort' (n : Nat) (v : TyPort) (j : Nat) : (s.setPort n v).pinOf j = s.pinOf j := rfl
@[simp] theorem State.pinOf_setHlp' (n : Nat) (v : HlPort) (j : Nat) : (s.setHlp n v).pinOf j = s.pinOf j := rfl
@[simp] theorem State.pinOf_setFrame' (n : Nat) (v : Frame) (j : Nat) : (s.setFrame n v).pinOf j = s.pinOf j := rfl
@[simp] theorem State.pinOf_setConv' (n : Nat) (v : Conv) (j : Nat) : (s.setConv n v).pinOf j = s.pinOf j := rfl
@[simp] theorem State.pinOf_out' (o : OutMsg) (j : Nat) : (s.out o).pinOf j = s.pinOf j := rfl
@[simp] theorem State.pinOf_setObj' (i idx sub v : Nat) (j : Nat) : (s.setObj i idx sub v).pinOf j = s.pinOf j := rfl
@[simp] theorem State.pinOf_setDom' (i idx sub : Nat) (v : List Byte) (j : Nat) : (s.setDom i idx sub v).pinOf j = s.pinOf j := rfl
@[simp] theorem State.pinOf_setArea' (c : Nat) (v : Area) (j : Nat) : (s.setArea c v).pinOf j = s.pinOf j := rfl
@[simp] theorem State.pinOf_setWorker' (c k : Nat) (v : Worker) (j : Nat) : (s.setWorker c k v).pinOf j = s.pinOf j := rfl
@[simp] theorem State.pinOf_setStore' (c k : Nat) (v : StoreCell) (j : Nat) : (s.setStore c k v).pinOf j = s.pinOf j := rfl
@[simp] theorem State.pinOf_setEng' (c : Nat) (v : Engine) (j : Nat) : (s.setEng c v).pinOf j = s.pinOf j := rfl
@[simp] theorem State.pinOf_setForager' (c f : Nat) (v : Forager) (j : Nat) : (s.setForager c f v).pinOf j = s.pinOf j := rfl
@[simp] theorem State.pinOf_setSlot' (u : SlotRef) (v : WSlot) (j : Nat) : (s.setSlot u v).pinOf j = s.pinOf j := rfl

@[simp] theorem State.area_setArea_same (c : Nat) (v : Area) : (s.setArea c v).area c = v := by simp [State.area, State.setArea]
theorem State.area_setArea (c j : Nat) (v : Area) : (s.setArea c v).area j = if j = c then v else s.area j := by
  by_cases h : j = c
  · subst h; simp
  · simp [State.area, State.setArea, State.comb_setComb, h]
@[simp] theorem State.eng_setEng_same (c : Nat) (v : Engine) : (s.setEng c v).eng c = v := by simp [State.eng, State.setEng]
theorem State.eng_setEng (c j : Nat) (v : Engine) : (s.setEng c v).eng j = if j = c then v else s.eng j := by
  by_cases h : j = c
  · subst h; simp
  · simp [State.eng, State.setEng, State.area_setArea, h]
@[simp] theorem Area.worker_setWorker_same (a : Area) (k : Nat) (v : Worker) : (a.setWorker k v).worker k = v := tget_tput_same _ _ k v
theorem Area.worker_setWorker (a : Area) (k j : Nat) (v : Worker) : (a.setWorker k v).worker j = if j = k then v else a.worker j :=
  tget_tput _ _ k j v
@[simp] theorem Area.store_setStore_same (a : Area) (k : Nat) (v : StoreCell) : (a.setStore k v).store k = v := tget_tput_same _ _ k v
theorem Area.store_setStore (a : Area) (k j : Nat) (v : StoreCell) : (a.setStore k v).store j = if j = k then v else a.store j :=
  tget_tput _ _ k j v
@[simp] theorem Area.forager_setForager_same (a : Area) (k : Nat) (v : Forager) : (a.setForager k v).forager k = v := tget_tput_same _ _ k v
@[simp] theorem Area.worker_setStore (a : Area) (k j : Nat) (v : StoreCell) : (a.setStore k v).worker j = a.worker j := rfl
@[simp] theorem Area.store_setWorker (a : Area) (k j : Nat) (v : Worker) : (a.setWorker k v).store j = a.store j := rfl
@[simp] theorem Area.eng_setWorker (a : Area) (k : Nat) (v : Worker) : (a.setWorker k v).eng = a.eng := rfl
@[simp] theorem Area.ctr_setWorker (a : Area) (k : Nat) (v : Worker) : (a.setWorker k v).ctr = a.ctr := rfl
@[simp] theorem Area.mem_setWorker (a : Area) (k : Nat) (v : Worker) : (a.setWorker k v).mem = a.mem := rfl
@[simp] theorem State.worker_setWorker_same (c k : Nat) (v : Worker) : (s.setWorker c k v).worker c k = v := by
  simp [State.worker, State.setWorker]
theorem State.worker_setWorker (c k c' k' : Nat) (v : Worker) :
    (s.setWorker c k v).worker c' k' = if c' = c ∧ k' = k then v else s.worker c' k' := by
  by_cases h : c' = c
  · subst h; simp [State.worker, State.setWorker, Area.worker_setWorker]
  · simp [State.worker, State.setWorker, State.area_setArea, h]
@[simp] theorem State.store_setStore_same (c k : Nat) (v : StoreCell) : (s.setStore c k v).store c k = v := by
  simp [State.store, State.setStore]
theorem State.store_setStore (c k c' k' : Nat) (v : StoreCell) :
    (s.setStore c k v).store c' k' = if c' = c ∧ k' = k then v else s.store c' k' := by
  by_cases h : c' = c
  · subst h; simp [State.store, State.setStore, Area.store_setStore]
  · simp [State.store, State.setStore, State.area_setArea, h]
@[simp] theorem State.forager_setForager_same (c f : Nat) (v : Forager) : (s.setForager c f v).forager c f = v := by
  simp [State.forager, State.setForager]
@[simp] theorem Worker.slot_setSlot_same (w : Worker) (i : Nat) (v : WSlot) : (w.setSlot i v).slot i = v := tget_tput_same _ _ i v
theorem Worker.slot_setSlot (w : Worker) (i j : Nat) (v : WSlot) : (w.setSlot i v).slot j = if j = i then v else w.slot j :=
  tget_tput _ _ i j v
@[simp] theorem State.slot_setSlot_same (u : SlotRef) (v : WSlot) : (s.setSlot u v).slot u = v := by
  simp [State.slot, State.setSlot]
theorem State.slot_setSlot (u u' : SlotRef) (v : WSlot) : (s.setSlot u v).slot u' = if u' = u then v else s.slot u' := by
  obtain ⟨c, k, i⟩ := u
  obtain ⟨c', k', i'⟩ := u'
  by_cases h : c' = c ∧ k' = k
  · obtain ⟨rfl, rfl⟩ := h
    by_cases hi : i' = i
    · subst hi; simp
    · simp [State.slot, State.setSlot, Worker.slot_setSlot, hi]
  · have : ¬ (c' = c ∧ k' = k ∧ i' = i) := fun e => h ⟨e.1, e.2.1⟩
    simp [State.slot, State.setSlot, State.worker_setWorker, h, this]

/-! Dictionary objects -/

@[simp] theorem State.dom_setDom_same (i idx sub : Nat) (v : List Byte) : (s.setDom i idx sub v).dom i idx sub = v :=
  tget_tput_same _ _ _ v

end Sys2Proof.Machine
end

