-- ==== Sys2Proof/Laws/Cells.lean ====
section
/-! SUPPORT. How a Worker Cell instruction that may issue ends: the shared operations of CellCore, said once. -/

namespace Sys2Proof.Machine

open Sys2Proof Sys2Proof.Claims

variable {α : Type}

theorem tdel_tins (t : Tbl α) (k : Nat) (v : α) : tdel (tins k v t) k = tdel t k := by
  induction t with
  | nil => simp [tins, tdel]
  | cons e t ih =>
    obtain ⟨k', v'⟩ := e
    by_cases hl : k < k'
    · simp [tins, hl, tdel]
    · have ih' : List.filter (fun e => e.1 != k) (tins k v t) = List.filter (fun e => e.1 != k) t := ih
      simp only [tins, hl, if_false, tdel, List.filter_cons, ih']

theorem tdel_tdel (t : Tbl α) (k : Nat) : tdel (tdel t k) k = tdel t k := by
  simp [tdel, List.filter_filter]

@[simp] theorem tput_tput (t : Tbl α) (k : Nat) (v v' : α) : tput (tput t k v) k v' = tput t k v' := by
  simp only [tput, tdel_tins, tdel_tdel]

@[simp] theorem setComb_setComb (s : State) (c : Nat) (v v' : Comb) : (s.setComb c v).setComb c v' = s.setComb c v' := by
  simp [State.setComb]
@[simp] theorem setArea_setArea (s : State) (c : Nat) (v v' : Area) : (s.setArea c v).setArea c v' = s.setArea c v' := by
  simp [State.setArea]
@[simp] theorem setSlot_setSlot (s : State) (u : SlotRef) (v v' : WSlot) : (s.setSlot u v).setSlot u v' = s.setSlot u v' := by
  simp [State.setSlot, State.setWorker, State.worker, Area.setWorker, Worker.setSlot, Area.worker]

/-- An instruction that issues does what its effect answers. -/
theorem cellRun_issues {o : COp} {u : SlotRef} {s : State} {w : Nat} (h : issues o u s w) (body : Nat → State → CRes) :
    cellRun o u body s = .next ((s.setSlot u (now s u)).cellEnd u (s.slot u).pc (body w (s.setSlot u (now s u)))) := by
  obtain ⟨h1, h2, h3, h4, h5, h6, h7⟩ := h
  have e1 : ¬ (0x4000 ≤ (s.slot u).pc) := by omega
  simp only [State.slot] at h3 h4 h6 h7 e1
  simp [cellRun, onUnit, h1, State.cellStep, h2, h4, h5, e1, h6, h7, now, State.slot]

/-- The effect on the slot alone, then retirement. -/
theorem cellPure_issues {o : COp} {u : SlotRef} {s : State} {w : Nat} (h : issues o u s w) (f : Nat → WSlot → WSlot) :
    cellPure o u f s = .next (retire s u (f w (now s u))) := by
  rw [cellPure, cellRun_issues h]
  simp [State.cellEnd, retire, retireAt]

/-! Fetching the line changes nothing but the fetch buffer -/

theorem now_eq (s : State) (u : SlotRef) : now s u = { s.slot u with fetch := (now s u).fetch } := by
  simp only [now, fetchLine]
  split
  · split <;> rfl
  · rfl
@[simp] theorem now_s (s : State) (u : SlotRef) (n : Nat) : (now s u).s n = (s.slot u).s n := by rw [now_eq]; rfl
@[simp] theorem now_pair (s : State) (u : SlotRef) (n : Nat) : (now s u).pair n = (s.slot u).pair n := by rw [now_eq]; rfl
@[simp] theorem now_lane (s : State) (u : SlotRef) (n i : Nat) : (now s u).lane n i = (s.slot u).lane n i := by rw [now_eq]; rfl
@[simp] theorem now_vec (s : State) (u : SlotRef) (n : Nat) : (now s u).vec n = (s.slot u).vec n := by rw [now_eq]; rfl
@[simp] theorem now_pc (s : State) (u : SlotRef) : (now s u).pc = (s.slot u).pc := by rw [now_eq]
@[simp] theorem now_lock (s : State) (u : SlotRef) : (now s u).lock = (s.slot u).lock := by rw [now_eq]
@[simp] theorem now_rng (s : State) (u : SlotRef) : (now s u).rng = (s.slot u).rng := by rw [now_eq]
@[simp] theorem now_held (s : State) (u : SlotRef) : (now s u).held = (s.slot u).held := by rw [now_eq]
@[simp] theorem now_outst (s : State) (u : SlotRef) : (now s u).outst = (s.slot u).outst := by rw [now_eq]
@[simp] theorem now_rb (s : State) (u : SlotRef) : (now s u).rb = (s.slot u).rb := by rw [now_eq]

@[simp] theorem slot_fetched (s : State) (u : SlotRef) : (fetched s u).slot u = now s u := by simp [fetched]
@[simp] theorem setSlot_fetched (s : State) (u : SlotRef) (x : WSlot) : (fetched s u).setSlot u x = s.setSlot u x := by
  simp [fetched]

/-! The ways an issued instruction ends -/

theorem cellRun_fetched {o : COp} {u : SlotRef} {s : State} {w : Nat} (h : issues o u s w) (body : Nat → State → CRes) :
    cellRun o u body s = .next ((fetched s u).cellEnd u (s.slot u).pc (body w (fetched s u))) := cellRun_issues h body
theorem cellEnd_fault (s : State) (u : SlotRef) (code : W16) :
    (.next ((fetched s u).cellEnd u (s.slot u).pc (.fault (fetched s u) code)) : Res) = stops s u code := rfl
theorem cellEnd_next (s : State) (u : SlotRef) (t : State) :
    (.next ((fetched s u).cellEnd u (s.slot u).pc (.next t)) : Res) = done s u t := by simp [State.cellEnd, done]
theorem cellEnd_retire (s : State) (u : SlotRef) (x : WSlot) :
    (.next ((fetched s u).cellEnd u (s.slot u).pc (.next (s.setSlot u x))) : Res) = .next (retire s u x) := by
  simp [State.cellEnd, retire, retireAt]
theorem cellEnd_hold (s : State) (u : SlotRef) :
    (.next ((fetched s u).cellEnd u (s.slot u).pc .hold) : Res) = .next (fetched s u) := rfl
theorem cellEnd_wait (s : State) (u : SlotRef) (c : Wait) :
    (.next ((fetched s u).cellEnd u (s.slot u).pc (.wait c)) : Res) = .next ((fetched s u).deschedule u c) := rfl

end Sys2Proof.Machine
end

