-- ==== Sys2Proof/Laws/Dict.lean ====
section
/-! SUPPORT. What a dictionary access that passes the tests of R490 does: the effect of the object's own rule, and its answer. -/

open Sys2Proof Sys2Proof.Machine Sys2Proof.Claims

namespace Sys2Proof.Laws

/-- What an admitted write of a scalar has passed. -/
theorem writable_passes {p : Path} {idx sub : Nat} {v : W64} {s : State} (h : writable p idx sub v s) :
    s.pathOpen p = true ∧ s.objOpen p idx sub = true ∧ s.selOk p idx = true ∧ objRange idx sub v.toNat = true
      ∧ ∃ row, s.objCheck p idx sub true = .ok row ∧ row.ty.isDom = false ∧ v.toNat < 2 ^ row.ty.width := by
  unfold writable at h
  cases hc : s.objCheck p idx sub true <;> simp_all

/-- What an admitted write of a DOMAIN has passed. -/
theorem domWritable_passes {p : Path} {idx sub : Nat} {s : State} (h : domWritable p idx sub s) :
    s.pathOpen p = true ∧ s.objOpen p idx sub = true ∧ ∃ row, s.objCheck p idx sub true = .ok row ∧ row.ty.isDom = true := by
  unfold domWritable at h
  cases hc : s.objCheck p idx sub true <;> simp_all

/-- What an admitted read has passed. -/
theorem readable_passes {p : Path} {idx sub : Nat} {s : State} (h : readable p idx sub s) :
    s.pathOpen p = true ∧ s.objOpen p idx sub = true ∧ s.selOk p idx = true ∧ ∃ row, s.objCheck p idx sub false = .ok row := by
  unfold readable at h
  cases hc : s.objCheck p idx sub false <;> simp_all [Except.isOk, Except.toBool]

/-- An admitted write of a scalar is decided by the object's own rule. -/
theorem writeAnswer_eff {p : Path} {idx sub : Nat} {v : W64} {s : State} (h : writable p idx sub v s) (eff : Eff) :
    s.writeAnswer p idx sub v eff =
      ((match (eff s).1 with | none => (eff s).2 | some r => (eff s).2.refused p idx sub r).out (.answer p idx sub (refCode (eff s).1) 0)) := by
  obtain ⟨h1, h2, h3, h4, row, h5, h6, h7⟩ := writable_passes h
  have h7' : ¬ 2 ^ row.ty.width ≤ v.toNat := by omega
  simp only [State.writeAnswer, State.objPut, h1, h5, h6, h7', h4, h2, h3]
  obtain ⟨r, t⟩ := eff s
  cases r <;> rfl

/-- An admitted write whose rule accepts it. -/
theorem write_accepted {p : Path} {idx sub : Nat} {v : W64} {s t : State} {eff : Eff} (h : writable p idx sub v s) (he : eff s = (none, t)) :
    s.writeAnswer p idx sub v eff = t.out (.answer p idx sub 0 0) := by
  rw [writeAnswer_eff h, he]; rfl

/-- An admitted write that its rule refuses. -/
theorem write_refused {p : Path} {idx sub : Nat} {v : W64} {s t : State} {eff : Eff} {r : Refuse} (h : writable p idx sub v s)
    (he : eff s = (some r, t)) : s.writeAnswer p idx sub v eff = (t.refused p idx sub r).out (.answer p idx sub r.code 0) := by
  rw [writeAnswer_eff h, he]; rfl

/-- An admitted write of a DOMAIN is decided by the object's own rule. -/
theorem domAnswer_eff {p : Path} {idx sub : Nat} {s : State} (h : domWritable p idx sub s) (eff : Eff) :
    s.domAnswer p idx sub eff =
      ((match (eff s).1 with | none => (eff s).2 | some r => (eff s).2.refused p idx sub r).out (.answer p idx sub (refCode (eff s).1) 0)) := by
  obtain ⟨h1, h2, row, h5, h6⟩ := domWritable_passes h
  simp only [State.domAnswer, State.domPut, h1, h5, h6, h2]
  obtain ⟨r, t⟩ := eff s
  cases r <;> rfl

theorem dom_accepted {p : Path} {idx sub : Nat} {s t : State} {eff : Eff} (h : domWritable p idx sub s) (he : eff s = (none, t)) :
    s.domAnswer p idx sub eff = t.out (.answer p idx sub 0 0) := by
  rw [domAnswer_eff h, he]; rfl

theorem dom_refused {p : Path} {idx sub : Nat} {s t : State} {eff : Eff} {r : Refuse} (h : domWritable p idx sub s)
    (he : eff s = (some r, t)) : s.domAnswer p idx sub eff = (t.refused p idx sub r).out (.answer p idx sub r.code 0) := by
  rw [domAnswer_eff h, he]; rfl

/-- An admitted read that its rule answers with bytes. -/
theorem read_bytes {p : Path} {idx sub : Nat} {s t : State} {rd : Rd} {b : List Byte} (h : readable p idx sub s)
    (he : rd s = (.ok (.bytes b), t)) : s.readAnswer p idx sub rd = t.out (.answerBytes p idx sub 0 b) := by
  obtain ⟨h1, h2, h3, row, h4⟩ := readable_passes h
  simp only [State.readAnswer, State.objGet, h1, h4, h2, h3, he]
  rfl

/-- An admitted read that its rule answers with a value. -/
theorem read_val {p : Path} {idx sub : Nat} {s t : State} {rd : Rd} {v : W64} (h : readable p idx sub s)
    (he : rd s = (.ok (.val v), t)) : s.readAnswer p idx sub rd = t.out (.answer p idx sub 0 v) := by
  obtain ⟨h1, h2, h3, row, h4⟩ := readable_passes h
  simp only [State.readAnswer, State.objGet, h1, h4, h2, h3, he]
  rfl

/-- An admitted read that its rule refuses. -/
theorem read_refused {p : Path} {idx sub : Nat} {s t : State} {rd : Rd} {r : Refuse} (h : readable p idx sub s)
    (he : rd s = (.error r, t)) : s.readAnswer p idx sub rd = (t.refused p idx sub r).out
      (if r.code = 0x8008#16 then .answerBytes p idx sub r.code (List.replicate 256 0) else .answer p idx sub r.code 0) := by
  obtain ⟨h1, h2, h3, row, h4⟩ := readable_passes h
  simp only [State.readAnswer, State.objGet, h1, h4, h2, h3, he]
  rfl

end Sys2Proof.Laws
end

