-- ==== Sys2Proof/Laws/Memory.lean ====
section
/-! SUPPORT. The operations that move or clear bytes of a memory keep its canonical form: the lines of a window that
changes (R207), a range that is zero-filled (R229, R234), and the stores of a locked sequence (R192). -/

namespace Sys2Proof.Machine

/-- A list of byte stores, each where `f` puts it, keeps the canonical form. -/
theorem wf_stores (f : Nat × Byte → Nat) : ∀ (l : List (Nat × Byte)) (m : List Host.Cell), Memory.wf m = true →
    Memory.wf (l.foldl (fun (t : Tbl Byte) (e : Nat × Byte) => tset 0 t (f e) e.2) m) = true
  | [], _, h => h
  | e :: t, m, h => wf_stores f t (tset 0 m (f e) e.2) (twf_tset 0 m (f e) e.2 h)

theorem wf_rewindow (m : PMem) (v w : Nat) : Memory.wf (m.rewindow v w).bytes = true :=
  wf_stores (fun e => dwMove v w (e.1 / 64) * 64 + e.1 % 64) m.bytes [] rfl

theorem wf_zeroRange (m : PMem) (lo hi : Nat) (h : Memory.wf m.bytes = true) : Memory.wf (m.zeroRange lo hi).bytes = true :=
  twf_filter 0 m.bytes _ h

/-- The memories of the machine after reset are in canonical form. -/
theorem wf_reset (c k : Nat) : Memory.wf (State.reset.area c).mem.bytes = true ∧ Memory.wf (State.reset.comb c).mw.mem.bytes = true
    ∧ Memory.wf (State.reset.worker c k).mem = true ∧ Memory.wf ((State.reset.area c).store k).mem = true := ⟨rfl, rfl, rfl, rfl⟩

end Sys2Proof.Machine
end

