-- ==== Sys2Proof/Tests/Slice0.lean ====
section
/-! SUPPORT. Tests: ill-formed operands are refused, worked examples of the spec, and for every statement with hypotheses a
witness theorem: concrete values, one group for each clause in the clause's order, that meet all its hypotheses. -/

namespace Sys2Proof.Tests
section
set_option Elab.async false
set_option maxRecDepth 100000
set_option linter.unusedVariables false
open Sys2Proof.Machine Sys2Proof.Claims

/-- Slot 0 of Worker Cell 0 of Comb 0. -/
def u0 : SlotRef := ⟨0, 0, 0⟩
/-- Context 0 runs, resident on Combs 0 and 1, whose Frame's rails are up. -/
def base : State := { (State.reset : State) with ctxs := [(0, { st := 3, resident := true, wM1 := 1 })] }
/-- The state `s` with Worker Cell 0 of Comb 0 holding `k`, its slot 0 holding `x` and running at 0x40, and word `w` there. -/
def cellAt (w : Nat) (x : WSlot := {}) (k : Worker := {}) (s : State := base) : State :=
  s.setWorker 0 0 { k with mem := cellsWrite k.mem 0x40 (leBytes 4 w), slots := tput k.slots 0 { x with running := true, pc := 0x40 } }
/-- `base` in Run, with the Keeper's firmware running and context 0 selected on the Management Port. -/
def up : State :=
  (({ base with boot := { powerGood := true, fw := true }, mgmt := { nmt := 5 } }.setObj 0 0x2100 8 2).setObj 0 0x2C00 1 5).setObj 17 0x2091 3 16
/-- A packet with the check value of its bytes. -/
def ok (p : Pkt) : Pkt := { p with e2e := p.crc }
/-- What holds of the state a command leaves. -/
def gives (r : Res) (P : State → Bool) : Bool := match r with | .next t => P t | _ => false

/-! Operands that name no unit (R4, R11-R15, R28, R161, R221, R283, R329, R342, R344, R420, R527) -/

/-! One command for each check of WellFormed.lean, with its operand one beyond the last unit. -/
theorem test_ill_formed_cells : (
  [.eccWriteback 480 0, .eccWriteback 0 0x600000, .cAdd ⟨480, 0, 0⟩, .cAdd ⟨0, 640, 0⟩, .cAdd ⟨0, 3, 0⟩, .cAdd ⟨0, 0, 4⟩, .readBufferExpire ⟨0, 0, 0⟩ 2,
   .fallbackIssue 0 639, .genDescStart 0 0 0, .genDescStart 0 3 2, .ctwSignal 0 3 4, .edgeSlotWrite 0 3, .linkWordArrival 0 0 4, .cqTailDoorbell 0 4 0,
   .msgDeliver 0 4, .fgTake 0 4, .fgStart 0 0 64, .slSegmentArrival 0 4, .mwFrame 0 16 [], .mwLaneRetrain 0 0 146 true, .mwRowSpare 0 0 32 0, .mwRowSpare 0 0 0 5120,
   .partitionReset 0 0x5000000 false] : List Instr).all (fun i => !i.wf) = true := by decide +kernel
theorem test_ill_formed_hosts : (
  [.switchRestoreDone 16, .contextSwitchStart 0 16, .hlPortDown 2, .completionPost 1088, .hcTake 0 [] [], .sqTailDoorbell 2048 0, .ringConfigWrite 0 4 0,
   .ideKeyProg 0 2 0 [], .ideKeyProg 0 0 3 [], .hlLinkTrained 0 6 16 true, .hlLinkTrained 0 0 3 true, .slotFreeze (.forager 0 4) 0 0, .slotFreeze (.host 1088) 0 0,
   .slotFreeze (.engine 0 4) 0 0, .slotFreeze (.service 480) 0 0, .slotFreeze (.worker 0 3 0) 0 0] : List Instr).all (fun i => !i.wf) = true := by decide +kernel
theorem test_ill_formed_ports : (
  [.tyFrameReceive 6 [], .pauseExpire 0 18, .laneRetrainStart 0 96, .tyCtlWrite .mgmt 6 0, .throttleStep 48, .swarmAnswer 0 11 true, .converterShort 113, .ibcAlert 8 true,
   .mfpHandover 8, .sdoRequest 2 [], .canBusOff 2, .tpdoTimerExpire 4, .pwrCapWrite (.hl 2) 0, .pwrCapWrite (.tenant 16) 0, .cmDwWrite .mgmt 8 0, .fgRingWrite .mgmt 4 0,
   .slRxWrite .mgmt 4 0, .mwResWrite .mgmt 16 0, .epochRewind .mgmt 16 0, .mfpCfgWrite .mgmt 8 0, .dwSelWrite 2 0, .fcModeChange 8, .spdmCosign 3, .challengeLapse 17] : List Instr).all (fun i => !i.wf) = true := by decide +kernel
theorem test_ill_formed_lists : (
  [.slopeGrantTick [(480, true)], .thermalTick [], .bistDone [⟨48, 0, .comb⟩], .bistDone [⟨0, 11, .comb⟩], .mwCalibrateDone [(0, 11)], .pbRunDone [⟨480, .comb⟩],
   .errorReport ⟨0, 0, none, 0, 480, 0, 0, 0, 0⟩] : List Instr).all (fun i => !i.wf) = true := by decide +kernel
theorem test_ill_formed_faults : gives (exec (.eccWriteback 480 0) base) (fun _ => true) = false := by decide +kernel

/-! Worked examples of the spec -/

/-- Wafer organisation: logical Comb (23, 7) lies in Frame 28, slot 8. -/
theorem test_comb_place : frameOf (7 * 40 + 23) = 28 ∧ slotOf (7 * 40 + 23) = 8 := by decide +kernel
/-- The tenant partition of the address example of Wafer organisation. -/
def tenant : State := base.setCtx 0 { st := 3, resident := true, x0 := 20, y0 := 6, wM1 := 7, hM1 := 3 }
theorem test_address :
    (match tenant.toComb (some 0) (fld 0x8000392000001000 43 6) (fld 0x8000392000001000 39 4) with | .ok c => c = 347 && frameOf c = 37 | .error _ => false) = true
    ∧ fld 0x8000392000001000 36 3 = 2
    ∧ (match tenant.toComb (some 0) 8 2 with | .ok _ => false | .error e => e = 0x3003#16) = true := by decide +kernel
/-- Block-scaled arithmetic: the group of 16 MXFP4 elements gives 3.0, and the accumulator takes it with one rounding to even. -/
theorem test_mxfp4_group :
    let a := unpackCodes 4 16 0x531C52F16A405793
    let b := unpackCodes 4 16 0x93D25E913547B164
    let g := groupSum ((a.zip b).map (fun p => prodOf 0 p.1 0x7C 0 p.2 0x80))
    g = 0x40400000#32 ∧ accAdd 0x4B800001#32 g = 0x4B800002#32 := by decide +kernel
/-- The transposed read of R42's example: the second product lies wholly below the lowest kept bit. -/
theorem test_group_truncates : groupSum [.val 36 0, .val 3 (-27)] = 0x42100000#32 := by decide +kernel
/-- Two passes in E2M3: the high slice of the B operand. -/
theorem test_quantise_block : quantBlock 1 false none [fv 0x3FA80000#32, fv 0xBE500000#32] [0, 0] = (0x7D, [0x1A, 0x26]) := by decide +kernel
/-- The residual's low slice. -/
theorem test_quantise_low : quantBlock 1 false none [fv 0x3D800000#32, fv 0xBC800000#32] [0, 0] = (0x79, [0x18, 0x28]) := by decide +kernel
/-- R52: halfway between 5.0 and 5.5 the threshold is 32,768. -/
theorem test_round_stochastic : roundStoch 1 (21, -2) 32767 = 0x1B ∧ roundStoch 1 (21, -2) 32768 = 0x1A := by decide +kernel
/-- Ellipsis: the 4-of-8 row's index bytes. -/
theorem test_index_bytes : idxBytes [1, 3, 4, 6, 0, 2, 5, 7] = [0x19, 0x0D, 0xF5] := by decide +kernel
/-- The Pruner's example: 2.0, −3.0, 0.5, 3.0, −0.0, 1.0, 2.0, 0.0. -/
theorem test_prune :
    let g : List W32 := [0x40000000, 0xC0400000, 0x3F000000, 0x40400000, 0x80000000, 0x3F800000, 0x40000000, 0]
    pruneKeep 2 8 g = [1, 3] ∧ pruneKeep 4 8 g = [0, 1, 3, 6] := by decide +kernel
/-- Waggle: the header of the gather example names Comb (12, 5), group 37, four words, tag 0xA5, class 1. -/
theorem test_message_header : fld 0x1840C542500A5C10 44 6 = 12 ∧ fld 0x1840C542500A5C10 40 4 = 5 ∧ msgFault 0x1840C542500A5C10 = none := by decide +kernel
/-- Coolant at 45 L/min and 41 °C: 20,400 W. -/
theorem test_coolant : pCool 410 450 = 20400 := by decide +kernel
/-- Counters, Checks and debug: `PC_BLOCK` for kind 0 holds 21,600 counters. -/
theorem test_pc_block : (perfUnits 0).length * perfCount 0 = 21600 := by decide +kernel

/-! One step on a small state -/

/-- R176: `ADD` s3, s1, s2 is modulo 2^32. -/
theorem test_add_wraps : gives (exec (.cAdd u0) (cellAt (1 * 2 ^ 26 + 3 * 2 ^ 21 + 1 * 2 ^ 16 + 2 * 2 ^ 11) { sregs := [(1, 0xFFFFFFFF#32), (2, 2#32)] }))
    (fun t => (t.slot u0).s 3 = 1#32 && (t.slot u0).pc = 0x44) = true := by decide +kernel
/-- An idle step counts TS (R440). -/
theorem test_idle : gives (step base) (fun t => t.ts = 1#64) = true := by decide +kernel

/-- The counter example of Waggle messages: a counter at 2^64 − 5 takes an add of 3, and an add of 7 would then pass the limit (R273). -/
def counting (v : W64) (amt : Nat) : State := (base.setArea 0 { ctr := [(17, v)] }).setComb 0 { (base.setArea 0 { ctr := [(17, v)] }).comb 0 with ctrOps := [⟨0, 17, amt, none, 0, none⟩] }
theorem test_counter_takes : gives (exec (.counterAdd 0) (counting 0xFFFFFFFFFFFFFFFB#64 3)) (fun t => tget 0 (t.area 0).ctr 17 = 0xFFFFFFFFFFFFFFFE#64) = true := by
  decide +kernel
theorem test_counter_saturates : gives (exec (.counterAdd 0) (counting 0xFFFFFFFFFFFFFFFE#64 7)) (fun t => tget 0 (t.area 0).ctr 17 = 0xFFFFFFFFFFFFFFFF#64) = true := by
  decide +kernel

/-! Witnesses -/

theorem witness_IdleStepCountsTs : (
  (let s : State := { base with refs := { stopped := true, switching := 3 } }; decide (s.pending = [] ∧ s.refs.stopped = true))
  && (let s : State := base; decide (s.pending = [] ∧ s.refs.stopped = false ∧ s.boot.tsHold = false))
  && (let s : State := { base with boot := { tsHold := true } }; decide (s.pending = [] ∧ s.refs.stopped = false ∧ s.boot.tsHold = true))) = true := by decide +kernel

theorem witness_ScalarInstructionsAndBranches : (
  (let u : SlotRef := u0; let s : State := cellAt 0 {} {}; let w : Nat := 0; decide (issues .nop u s w))
  && (let u : SlotRef := u0; let s : State := cellAt 73469952 { sregs := [(1, 0xFFFFFFFF#32), (2, 33#32)] } {}; let w : Nat := 73469952; decide (issues .add u s w))
  && (let u : SlotRef := u0; let s : State := cellAt 73469953 { sregs := [(1, 0xFFFFFFFF#32), (2, 33#32)] } {}; let w : Nat := 73469953; decide (issues .sub u s w))
  && (let u : SlotRef := u0; let s : State := cellAt 73469954 { sregs := [(1, 0xFFFFFFFF#32), (2, 33#32)] } {}; let w : Nat := 73469954; decide (issues .and u s w))
  && (let u : SlotRef := u0; let s : State := cellAt 73469955 { sregs := [(1, 0xFFFFFFFF#32), (2, 33#32)] } {}; let w : Nat := 73469955; decide (issues .or u s w))
  && (let u : SlotRef := u0; let s : State := cellAt 73469956 { sregs := [(1, 0xFFFFFFFF#32), (2, 33#32)] } {}; let w : Nat := 73469956; decide (issues .xor u s w))
  && (let u : SlotRef := u0; let s : State := cellAt 73469957 { sregs := [(1, 0xFFFFFFFF#32), (2, 33#32)] } {}; let w : Nat := 73469957; decide (issues .shl u s w))
  && (let u : SlotRef := u0; let s : State := cellAt 73469958 { sregs := [(1, 0xFFFFFFFF#32), (2, 33#32)] } {}; let w : Nat := 73469958; decide (issues .shr u s w))
  && (let u : SlotRef := u0; let s : State := cellAt 73469959 { sregs := [(1, 0xFFFFFFFF#32), (2, 33#32)] } {}; let w : Nat := 73469959; decide (issues .sra u s w))
  && (let u : SlotRef := u0; let s : State := cellAt 73469960 { sregs := [(1, 0xFFFFFFFF#32), (2, 33#32)] } {}; let w : Nat := 73469960; decide (issues .slt u s w))
  && (let u : SlotRef := u0; let s : State := cellAt 73469961 { sregs := [(1, 0xFFFFFFFF#32), (2, 33#32)] } {}; let w : Nat := 73469961; decide (issues .sltu u s w))
  && (let u : SlotRef := u0; let s : State := cellAt 73469962 { sregs := [(1, 0xFFFFFFFF#32), (2, 33#32)] } {}; let w : Nat := 73469962; decide (issues .mul u s w))
  && (let u : SlotRef := u0; let s : State := cellAt 73469963 { sregs := [(1, 0xFFFFFFFF#32), (2, 33#32)] } {}; let w : Nat := 73469963; decide (issues .mulhu u s w))
  && (let u : SlotRef := u0; let s : State := cellAt 140607488 { sregs := [(1, 0xFFFFFFFF#32), (2, 33#32)] } {}; let w : Nat := 140607488; decide (issues .addi u s w))
  && (let u : SlotRef := u0; let s : State := cellAt 207749119 { sregs := [(1, 0xFFFFFFFF#32), (2, 33#32)] } {}; let w : Nat := 207749119; decide (issues .andi u s w))
  && (let u : SlotRef := u0; let s : State := cellAt 274857983 { sregs := [(1, 0xFFFFFFFF#32), (2, 33#32)] } {}; let w : Nat := 274857983; decide (issues .ori u s w))
  && (let u : SlotRef := u0; let s : State := cellAt 341966847 { sregs := [(1, 0xFFFFFFFF#32), (2, 33#32)] } {}; let w : Nat := 341966847; decide (issues .xori u s w))
  && (let u : SlotRef := u0; let s : State := cellAt 409010207 { sregs := [(1, 0xFFFFFFFF#32), (2, 33#32)] } {}; let w : Nat := 409010207; decide (issues .shi u s w ∧ fld w 5 2 = 0))
  && (let u : SlotRef := u0; let s : State := cellAt 409010239 { sregs := [(1, 0xFFFFFFFF#32), (2, 33#32)] } {}; let w : Nat := 409010239; decide (issues .shi u s w ∧ fld w 5 2 = 1))
  && (let u : SlotRef := u0; let s : State := cellAt 409010271 { sregs := [(1, 0xFFFFFFFF#32), (2, 33#32)] } {}; let w : Nat := 409010271; decide (issues .shi u s w ∧ fld w 5 2 = 2))
  && (let u : SlotRef := u0; let s : State := cellAt 478150655 {} {}; let w : Nat := 478150655; decide (issues .lui u s w))
  && (let u : SlotRef := u0; let s : State := cellAt 539164656 { sregs := [(1, 0xFFFFFFFF#32), (2, 33#32)] } {}; let w : Nat := 539164656; decide (issues .beq u s w))
  && (let u : SlotRef := u0; let s : State := cellAt 606273520 { sregs := [(1, 0xFFFFFFFF#32), (2, 33#32)] } {}; let w : Nat := 606273520; decide (issues .bne u s w))
  && (let u : SlotRef := u0; let s : State := cellAt 673382384 { sregs := [(1, 0xFFFFFFFF#32), (2, 33#32)] } {}; let w : Nat := 673382384; decide (issues .blt u s w))
  && (let u : SlotRef := u0; let s : State := cellAt 740491248 { sregs := [(1, 0xFFFFFFFF#32), (2, 33#32)] } {}; let w : Nat := 740491248; decide (issues .bge u s w))
  && (let u : SlotRef := u0; let s : State := cellAt 807600112 { sregs := [(1, 0xFFFFFFFF#32), (2, 33#32)] } {}; let w : Nat := 807600112; decide (issues .bltu u s w))
  && (let u : SlotRef := u0; let s : State := cellAt 874708976 { sregs := [(1, 0xFFFFFFFF#32), (2, 33#32)] } {}; let w : Nat := 874708976; decide (issues .bgeu u s w))
  && (let u : SlotRef := u0; let s : State := cellAt 945848319 {} {}; let w : Nat := 945848319; decide (issues .jal u s w))
  && (let u : SlotRef := u0; let s : State := cellAt 1013055488 { sregs := [(1, 0xFFFFFFFF#32), (2, 33#32)] } {}; let w : Nat := 1013055488; decide (issues .jr u s w))) = true := by decide +kernel

theorem witness_LocalLoadsAndStores : (
  (let u : SlotRef := u0; let s : State := cellAt 1080164348 { sregs := [(1, 0x00004000#32), (2, 0x12345678#32)] } {}; let w : Nat := 1080164348; let a := ((s.slot u).s (wA w) + BitVec.ofInt 32 (wSImm w)).toNat; decide ((s.slot u).lock = none ∧ issues .ld u s w ∧ a % 4 = 0 ∧ a < 0x4000))
  && (let u : SlotRef := u0; let s : State := cellAt 1214316544 { sregs := [(1, 0x00003FC0#32), (2, 0x12345678#32)] } {}; let w : Nat := 1214316544; let a := ((s.slot u).s (wA w) + BitVec.ofInt 32 (wSImm w)).toNat; decide ((s.slot u).lock = none ∧ issues .vld u s w ∧ a % 64 = 0 ∧ a < 0x4000))
  && (let u : SlotRef := u0; let s : State := cellAt 1145110528 { sregs := [(1, 0x00003FFC#32), (2, 0x12345678#32)] } {}; let w : Nat := 1145110528; let a := ((s.slot u).s (wA w) + BitVec.ofInt 32 (wSImm w)).toNat; decide ((s.slot u).lock = none ∧ issues .st u s w ∧ a % 4 = 0 ∧ a < 0x4000))
  && (let u : SlotRef := u0; let s : State := cellAt 1279328256 { sregs := [(1, 0x00000000#32), (2, 0x12345678#32)] } {}; let w : Nat := 1279328256; let a := ((s.slot u).s (wA w) + BitVec.ofInt 32 (wSImm w)).toNat; decide ((s.slot u).lock = none ∧ issues .vst u s w ∧ a % 64 = 0 ∧ a < 0x4000))
  && (let u : SlotRef := u0; let s : State := cellAt 1080098816 { sregs := [(1, 0x00004000#32), (2, 0x12345678#32)] } {}; let w : Nat := 1080098816; let a := ((s.slot u).s (wA w) + BitVec.ofInt 32 (wSImm w)).toNat; decide ((s.slot u).lock = none ∧ issues .ld u s w ∧ ¬(a % 4 = 0 ∧ a < 0x4000)))
  && (let u : SlotRef := u0; let s : State := cellAt 1214316544 { sregs := [(1, 0x00003FC4#32), (2, 0x12345678#32)] } {}; let w : Nat := 1214316544; let a := ((s.slot u).s (wA w) + BitVec.ofInt 32 (wSImm w)).toNat; decide ((s.slot u).lock = none ∧ issues .vld u s w ∧ ¬(a % 64 = 0 ∧ a < 0x4000)))
  && (let u : SlotRef := u0; let s : State := cellAt 1147207680 { sregs := [(1, 0x00000002#32), (2, 0x12345678#32)] } {}; let w : Nat := 1147207680; let a := ((s.slot u).s (wA w) + BitVec.ofInt 32 (wSImm w)).toNat; decide ((s.slot u).lock = none ∧ issues .st u s w ∧ ¬(a % 4 = 0 ∧ a < 0x4000)))
  && (let u : SlotRef := u0; let s : State := cellAt 1281425408 { sregs := [(1, 0x00004000#32), (2, 0x12345678#32)] } {}; let w : Nat := 1281425408; let a := ((s.slot u).s (wA w) + BitVec.ofInt 32 (wSImm w)).toNat; decide ((s.slot u).lock = none ∧ issues .vst u s w ∧ ¬(a % 64 = 0 ∧ a < 0x4000)))
  && (let u : SlotRef := u0; let s : State := cellAt 0 { sregs := [(1, 0x00000000#32), (2, 0x12345678#32)] } {}; let w : Nat := 0; let a := ((s.slot u).s (wA w) + BitVec.ofInt 32 (wSImm w)).toNat; let b : List Byte := [1,2]; let j : Nat := 5; decide ((s.slot u).lock = none ∧ (j < a ∨ a + b.length ≤ j)))) = true := by decide +kernel

theorem witness_VectorFloatInstructions : (
  (let u : SlotRef := u0; let s : State := cellAt 2153844736 { sregs := [(1, 1#32)], vregs := [(16, 0x40000000#32), (17, 0x3F800000#32), (32, 0x40400000#32), (33, 0x80000001#32)] } {}; let w : Nat := 2153844736; decide (issues .vadd u s w))
  && (let u : SlotRef := u0; let s : State := cellAt 2153844737 { sregs := [(1, 1#32)], vregs := [(16, 0x40000000#32), (17, 0x3F800000#32), (32, 0x40400000#32), (33, 0x80000001#32)] } {}; let w : Nat := 2153844737; decide (issues .vsub u s w))
  && (let u : SlotRef := u0; let s : State := cellAt 2153844738 { sregs := [(1, 1#32)], vregs := [(16, 0x40000000#32), (17, 0x3F800000#32), (32, 0x40400000#32), (33, 0x80000001#32)] } {}; let w : Nat := 2153844738; decide (issues .vmul u s w))
  && (let u : SlotRef := u0; let s : State := cellAt 2153844740 { sregs := [(1, 1#32)], vregs := [(16, 0x40000000#32), (17, 0x3F800000#32), (32, 0x40400000#32), (33, 0x80000001#32)] } {}; let w : Nat := 2153844740; decide (issues .vmax u s w))
  && (let u : SlotRef := u0; let s : State := cellAt 2153844757 { sregs := [(1, 1#32)], vregs := [(16, 0x40000000#32), (17, 0x3F800000#32), (32, 0x40400000#32), (33, 0x80000001#32)] } {}; let w : Nat := 2153844757; decide (issues .vmin u s w))
  && (let u : SlotRef := u0; let s : State := cellAt 2153844739 { sregs := [(1, 1#32)], vregs := [(16, 0x40000000#32), (17, 0x3F800000#32), (32, 0x40400000#32), (33, 0x80000001#32)] } {}; let w : Nat := 2153844739; decide (issues .vfma u s w ∧ bit w 4 = false))
  && (let u : SlotRef := u0; let s : State := cellAt 2153844755 { sregs := [(1, 1#32)], vregs := [(16, 0x40000000#32), (17, 0x3F800000#32), (32, 0x40400000#32), (33, 0x80000001#32)] } {}; let w : Nat := 2153844755; decide (issues .vfma u s w ∧ bit w 4 = true))
  && (let u : SlotRef := u0; let s : State := cellAt 2153840646 { sregs := [(1, 1#32)], vregs := [(16, 0x40000000#32), (17, 0x3F800000#32), (32, 0x40400000#32), (33, 0x80000001#32)] } {}; let w : Nat := 2153840646; decide (issues .vexp u s w))
  && (let u : SlotRef := u0; let s : State := cellAt 2153840647 { sregs := [(1, 1#32)], vregs := [(16, 0x40000000#32), (17, 0x3F800000#32), (32, 0x40400000#32), (33, 0x80000001#32)] } {}; let w : Nat := 2153840647; decide (issues .vrcp u s w))
  && (let u : SlotRef := u0; let s : State := cellAt 2153840664 { sregs := [(1, 1#32)], vregs := [(16, 0x40000000#32), (17, 0x3F800000#32), (32, 0x40400000#32), (33, 0x80000001#32)] } {}; let w : Nat := 2153840664; decide (issues .vrsq u s w))
  && (let u : SlotRef := u0; let s : State := cellAt 2153906185 { sregs := [(1, 1#32)], vregs := [(16, 0x40000000#32), (17, 0x3F800000#32), (32, 0x40400000#32), (33, 0x80000001#32)] } {}; let w : Nat := 2153906185; decide (issues .vcvtDown u s w))
  && (let u : SlotRef := u0; let s : State := cellAt 2155937817 { sregs := [(1, 1#32)], vregs := [(16, 0x40000000#32), (17, 0x3F800000#32), (32, 0x40400000#32), (33, 0x80000001#32)] } {}; let w : Nat := 2155937817; decide (issues .vcvtUp u s w))) = true := by decide +kernel

theorem witness_VectorIntegerReduceMove : (
  (let u : SlotRef := u0; let s : State := cellAt 2220953600 { sregs := [(1, 1#32)], vregs := [(16, 0x40000000#32), (17, 0x3F800000#32), (32, 0x40400000#32), (33, 0x80000001#32)] } {}; let w : Nat := 2220953600; decide (issues .viadd u s w))
  && (let u : SlotRef := u0; let s : State := cellAt 2220953601 { sregs := [(1, 1#32)], vregs := [(16, 0x40000000#32), (17, 0x3F800000#32), (32, 0x40400000#32), (33, 0x80000001#32)] } {}; let w : Nat := 2220953601; decide (issues .visub u s w))
  && (let u : SlotRef := u0; let s : State := cellAt 2220953602 { sregs := [(1, 1#32)], vregs := [(16, 0x40000000#32), (17, 0x3F800000#32), (32, 0x40400000#32), (33, 0x80000001#32)] } {}; let w : Nat := 2220953602; decide (issues .vimul u s w))
  && (let u : SlotRef := u0; let s : State := cellAt 2220953603 { sregs := [(1, 1#32)], vregs := [(16, 0x40000000#32), (17, 0x3F800000#32), (32, 0x40400000#32), (33, 0x80000001#32)] } {}; let w : Nat := 2220953603; decide (issues .vand u s w))
  && (let u : SlotRef := u0; let s : State := cellAt 2220953604 { sregs := [(1, 1#32)], vregs := [(16, 0x40000000#32), (17, 0x3F800000#32), (32, 0x40400000#32), (33, 0x80000001#32)] } {}; let w : Nat := 2220953604; decide (issues .vor u s w))
  && (let u : SlotRef := u0; let s : State := cellAt 2220953605 { sregs := [(1, 1#32)], vregs := [(16, 0x40000000#32), (17, 0x3F800000#32), (32, 0x40400000#32), (33, 0x80000001#32)] } {}; let w : Nat := 2220953605; decide (issues .vxor u s w))
  && (let u : SlotRef := u0; let s : State := cellAt 2220953606 { sregs := [(1, 1#32)], vregs := [(16, 0x40000000#32), (17, 0x3F800000#32), (32, 0x40400000#32), (33, 0x80000001#32)] } {}; let w : Nat := 2220953606; decide (issues .vshl u s w))
  && (let u : SlotRef := u0; let s : State := cellAt 2220953607 { sregs := [(1, 1#32)], vregs := [(16, 0x40000000#32), (17, 0x3F800000#32), (32, 0x40400000#32), (33, 0x80000001#32)] } {}; let w : Nat := 2220953607; decide (issues .vshr u s w))
  && (let u : SlotRef := u0; let s : State := cellAt 2220953608 { sregs := [(1, 1#32)], vregs := [(16, 0x40000000#32), (17, 0x3F800000#32), (32, 0x40400000#32), (33, 0x80000001#32)] } {}; let w : Nat := 2220953608; decide (issues .vsra u s w))
  && (let u : SlotRef := u0; let s : State := cellAt 2220953609 { sregs := [(1, 1#32)], vregs := [(16, 0x40000000#32), (17, 0x3F800000#32), (32, 0x40400000#32), (33, 0x80000001#32)] } {}; let w : Nat := 2220953609; decide (issues .vilt u s w))
  && (let u : SlotRef := u0; let s : State := cellAt 2288058368 { sregs := [(1, 1#32)], vregs := [(16, 0x40000000#32), (17, 0x3F800000#32), (32, 0x40400000#32), (33, 0x80000001#32)] } {}; let w : Nat := 2288058368; decide (issues .vredFSum u s w))
  && (let u : SlotRef := u0; let s : State := cellAt 2288058369 { sregs := [(1, 1#32)], vregs := [(16, 0x40000000#32), (17, 0x3F800000#32), (32, 0x40400000#32), (33, 0x80000001#32)] } {}; let w : Nat := 2288058369; decide (issues .vredFMax u s w))
  && (let u : SlotRef := u0; let s : State := cellAt 2288058370 { sregs := [(1, 1#32)], vregs := [(16, 0x40000000#32), (17, 0x3F800000#32), (32, 0x40400000#32), (33, 0x80000001#32)] } {}; let w : Nat := 2288058370; decide (issues .vredISum u s w))
  && (let u : SlotRef := u0; let s : State := cellAt 2288058371 { sregs := [(1, 1#32)], vregs := [(16, 0x40000000#32), (17, 0x3F800000#32), (32, 0x40400000#32), (33, 0x80000001#32)] } {}; let w : Nat := 2288058371; decide (issues .vredIMax u s w))
  && (let u : SlotRef := u0; let s : State := cellAt 2355167232 { sregs := [(1, 1#32)], vregs := [(16, 0x40000000#32), (17, 0x3F800000#32), (32, 0x40400000#32), (33, 0x80000001#32)] } {}; let w : Nat := 2355167232; decide (issues .vbc u s w))
  && (let u : SlotRef := u0; let s : State := cellAt 2355169153 { sregs := [(1, 1#32)], vregs := [(16, 0x40000000#32), (17, 0x3F800000#32), (32, 0x40400000#32), (33, 0x80000001#32)] } {}; let w : Nat := 2355169153; decide (issues .vget u s w))
  && (let u : SlotRef := u0; let s : State := cellAt 2355169154 { sregs := [(1, 1#32)], vregs := [(16, 0x40000000#32), (17, 0x3F800000#32), (32, 0x40400000#32), (33, 0x80000001#32)] } {}; let w : Nat := 2355169154; decide (issues .vset u s w))
  && (let u : SlotRef := u0; let s : State := cellAt 2355167235 { sregs := [(1, 1#32)], vregs := [(16, 0x40000000#32), (17, 0x3F800000#32), (32, 0x40400000#32), (33, 0x80000001#32)] } {}; let w : Nat := 2355167235; decide (issues .vmov u s w))) = true := by decide +kernel

theorem witness_QuantiseAndExpand : (
  (let u : SlotRef := u0; let s : State := cellAt 2690787328 { sregs := [(1, 1#32)], vregs := [(16, 0x40000000#32), (17, 0x3F800000#32), (32, 0x40400000#32), (33, 0x80000001#32)] } {}; let w : Nat := 2690787328; decide (issues .qnt u s w ∧ bit w 4 = false ∧ bit w 5 = false))
  && (let u : SlotRef := u0; let s : State := cellAt 2690787346 { sregs := [(1, 1#32)], vregs := [(16, 0x40000000#32), (17, 0x3F800000#32), (32, 0x40400000#32), (33, 0x80000001#32)] } {}; let w : Nat := 2690787346; decide (issues .qnt u s w ∧ bit w 4 = true ∧ bit w 5 = false))
  && (let u : SlotRef := u0; let s : State := cellAt 2759993344 { sregs := [(1, 1#32)], vregs := [(16, 0x40000000#32), (17, 0x3F800000#32), (32, 0x40400000#32), (33, 0x80000001#32)] } {}; let w : Nat := 2759993344; let x := s.slot u; let f := fld w 0 2; let src := qSource w x; let zero := src.map (fun _ => (0 : Nat)); let q := quantBlock f false none (src.map fv) zero; decide (issues .qsl u s w ∧ q.1 ≠ 255))
  && (let u : SlotRef := u0; let s : State := cellAt 2824939524 { sregs := [(1, 1#32)], vregs := [(16, 0x40000000#32), (17, 0x3F800000#32), (32, 0x40400000#32), (33, 0x80000001#32)] } {}; let w : Nat := 2824939524; decide (issues .dqt u s w ∧ bit w 2 = true))
  && (let u : SlotRef := u0; let s : State := cellAt 2827036672 { sregs := [(1, 1#32)], vregs := [(16, 0x40000000#32), (17, 0x3F800000#32), (32, 0x40400000#32), (33, 0x80000001#32)] } {}; let w : Nat := 2827036672; decide (issues .dqt u s w ∧ bit w 2 = false))
  && (let u : SlotRef := u0; let s : State := cellAt 2892048384 { sregs := [(5, 0b111110101100011010001000#32)] } {}; let w : Nat := 2892048384; decide (issues .spx u s w))) = true := by decide +kernel

theorem witness_CellsThatDoNotIssueOrWait : (
  (let i : Instr := .cNop u0; let o : COp := .nop; let u : SlotRef := u0; let s : State := base; decide (cellCmd i = some (o, u) ∧ isSlot u = true ∧ s.canIssue u = false))
  && (let i : Instr := .cEnd u0; let o : COp := .endSlot; let u : SlotRef := u0; let s : State := (cellAt 0).setSlot u0 { (cellAt 0).slot u0 with pc := 0x4000 }; decide (cellCmd i = some (o, u) ∧ isSlot u = true ∧ s.canIssue u = true ∧ 0x4000 ≤ (s.slot u).pc))
  && (let i : Instr := .cNop u0; let o : COp := .nop; let u : SlotRef := u0; let s : State := cellAt 1; let w := fetchWord (s.worker u.comb u.cell) (s.slot u); decide (cellCmd i = some (o, u) ∧ isSlot u = true ∧ s.canIssue u = true ∧ (s.slot u).pc < 0x4000 ∧ cellOp w = none))
  && (let i : Instr := .cNop u0; let o : COp := .nop; let u : SlotRef := u0; let s : State := cellAt 0xFC000000; let w := fetchWord (s.worker u.comb u.cell) (s.slot u); let o' : COp := .endSlot; decide (cellCmd i = some (o, u) ∧ isSlot u = true ∧ s.canIssue u = true ∧ (s.slot u).pc < 0x4000 ∧ cellOp w = some o' ∧ o' ≠ o))
  && (let i : Instr := .cUnlock u0; let o : COp := .unlock; let u : SlotRef := u0; let s : State := cellAt 0xF8000000; let w := fetchWord (s.worker u.comb u.cell) (s.slot u); decide (cellCmd i = some (o, u) ∧ isSlot u = true ∧ s.canIssue u = true ∧ (s.slot u).pc < 0x4000 ∧ cellOp w = some o ∧ (scalarsOf o w).any (fun r => (s.slot u).pend.any (fun p => p.reg = r || (p.wide && p.reg + 1 = r))) = false ∧ lockFault (s.slot u) o w = true))
  && (let u : SlotRef := u0; let s : State := cellAt 1348599808 { held := true } {}; let w : Nat := 1348599808; decide ((s.slot u).held = true ∧ issues .gld u s w))
  && (let u : SlotRef := u0; let s : State := cellAt 1415708672 { held := true } {}; let w : Nat := 1415708672; decide ((s.slot u).held = true ∧ issues .gst u s w))
  && (let u : SlotRef := u0; let s : State := cellAt 3422689280 { held := true } {}; let w : Nat := 3422689280; decide ((s.slot u).held = true ∧ issues .wsnd u s w))
  && (let u : SlotRef := u0; let s : State := cellAt 3489726480 { held := true } {}; let w : Nat := 3489726480; decide ((s.slot u).held = true ∧ issues .cadd u s w))
  && (let u : SlotRef := u0; let s : State := cellAt 3493920770 { held := true } {}; let w : Nat := 3493920770; decide ((s.slot u).held = true ∧ issues .caddRemote u s w))
  && (let u : SlotRef := u0; let s : State := cellAt 3630301200 { held := true } {}; let w : Nat := 3630301200; decide ((s.slot u).held = true ∧ issues .ctest u s w))
  && (let u : SlotRef := u0; let s : State := cellAt 3695181840 { held := true } {}; let w : Nat := 3695181840; decide ((s.slot u).held = true ∧ issues .crd u s w))
  && (let u : SlotRef := u0; let s : State := cellAt 3764387856 { held := true } {}; let w : Nat := 3764387856; decide ((s.slot u).held = true ∧ issues .srr u s w))
  && (let u : SlotRef := u0; let s : State := cellAt 3825401872 { held := true } {}; let w : Nat := 3825401872; decide ((s.slot u).held = true ∧ issues .srw u s w))
  && (let u : SlotRef := u0; let s : State := cellAt 0 { held := true } {}; decide ((s.slot u).held = true))) = true := by decide +kernel

theorem witness_RetirementAndStopFrames : (
  (let u : SlotRef := u0; let u' : SlotRef := ⟨0, 0, 1⟩; decide (u' ≠ u))
  && (let u : SlotRef := u0; let c : Nat := 1; decide (c ≠ u.comb))
  && (let s : State := cellAt 0 { sregs := [(1, 0xFFFFFFFF#32), (2, 33#32)] }; let u : SlotRef := u0; decide ((s.slot u).lock = none))) = true := by decide +kernel

theorem witness_SpecialRegisters : (
  (let u : SlotRef := u0; let s : State := cellAt 3225420224 {} {}; let w : Nat := 3225420224; let i := wIdx w; decide (issues .mfs u s w ∧ i = 0x1C))
  && (let u : SlotRef := u0; let s : State := cellAt 3225420064 { rng := 9#64 } {}; let w : Nat := 3225420064; let i := wIdx w; decide (issues .mfs u s w ∧ i = 0x12))
  && (let u : SlotRef := u0; let s : State := cellAt 3227517088 {} { ptCfg := 0x11#32 }; let w : Nat := 3227517088; let i := wIdx w; decide (issues .mfs u s w ∧ i = 0x0A))
  && (let u : SlotRef := u0; let s : State := cellAt 3227517056 {} { wq := [⟨3#16, [1#32], 0⟩] }; let w : Nat := 3227517056; let i := wIdx w; decide (issues .mfs u s w ∧ i = 0x08))
  && (let u : SlotRef := u0; let s : State := cellAt 3227517296 {} {}; let w : Nat := 3227517296; let i := wIdx w; decide (issues .mfs u s w ∧ 0x14 ≤ i ∧ i ≤ 0x17))
  && (let u : SlotRef := u0; let s : State := cellAt 3227517312 { fpc := 8#32 } {}; let w : Nat := 3227517312; let i := wIdx w; decide (issues .mfs u s w ∧ 0x18 ≤ i ∧ i ≤ 0x1B))
  && (let u : SlotRef := u0; let s : State := cellAt 3225419776 {} { ports := { inq := [(0, [5#64, 6#64])] } }; let w : Nat := 3225419776; let f := fetched s u; let k := f.worker u.comb u.cell; let i := wIdx w; let v : W64 := 5#64; let l := ([6#64] : List W64); decide (issues .mfs u s w ∧ i < 4 ∧ ptNames k.ptCfg.toNat i = false ∧ k.ports.inQ i = v :: l))
  && (let u : SlotRef := u0; let s : State := cellAt 3225419824 {} { ports := { inq := [(0, [5#64, 6#64])] } }; let w : Nat := 3225419824; let f := fetched s u; let k := f.worker u.comb u.cell; let i := wIdx w; decide (issues .mfs u s w ∧ i < 4 ∧ ptNames k.ptCfg.toNat i = false ∧ k.ports.inQ i = []))
  && (let u : SlotRef := u0; let s : State := cellAt 3225419776 {} { ptCfg := 0x1000#32, ports := { inq := [(0, [5#64, 6#64])] } }; let w : Nat := 3225419776; let f := fetched s u; let k := f.worker u.comb u.cell; let i := wIdx w; decide (issues .mfs u s w ∧ i < 4 ∧ ptNames k.ptCfg.toNat i = true))
  && (let u : SlotRef := u0; let s : State := cellAt 3227517072 {} { wq := [⟨3#16, [1#32, 2#32], 1⟩] }; let w : Nat := 3227517072; let f := fetched s u; let k := f.worker u.comb u.cell; let i := wIdx w; let t : Tuple := ⟨3#16, [1#32, 2#32], 1⟩; let l := ([] : List Tuple); decide (issues .mfs u s w ∧ i = 9 ∧ k.wq = t :: l))
  && (let u : SlotRef := u0; let s : State := cellAt 3227517392 {} {}; let w : Nat := 3227517392; let i := wIdx w; decide (issues .mfs u s w ∧ 0x1D ≤ i))
  && (let u : SlotRef := u0; let s : State := cellAt 3288465696 { sregs := [(1, 0xFFFFFFFF#32), (2, 33#32)] } {}; let w : Nat := 3288465696; let i := wIdx w; decide (issues .mts u s w ∧ i = 0x12))
  && (let u : SlotRef := u0; let s : State := cellAt 3288465568 { sregs := [(2, 0x11#32)] } {}; let w : Nat := 3288465568; let x := s.slot u; let i := wIdx w; decide (issues .mts u s w ∧ i = 0x0A ∧ ptCfgOk (x.s (wA w)).toNat = true))
  && (let u : SlotRef := u0; let s : State := cellAt 3288465568 { sregs := [(2, 0x10#32)] } {}; let w : Nat := 3288465568; let x := s.slot u; let i := wIdx w; decide (issues .mts u s w ∧ i = 0x0A ∧ ptCfgOk (x.s (wA w)).toNat = false))
  && (let u : SlotRef := u0; let s : State := cellAt 3288465520 { sregs := [(1, 0xFFFFFFFF#32), (2, 33#32)] } {}; let w : Nat := 3288465520; let f := fetched s u; let k := f.worker u.comb u.cell; let i := wIdx w; decide (issues .mts u s w ∧ 4 ≤ i ∧ i < 8 ∧ ptEn k.ptCfg.toNat (i - 4) = false ∧ f.canPut u.comb u.cell (i - 4) = true))
  && (let u : SlotRef := u0; let s : State := cellAt 3288465712 { sregs := [(1, 0xFFFFFFFF#32), (2, 33#32)] } {}; let w : Nat := 3288465712; let i := wIdx w; decide (issues .mts u s w ∧ 0x13 ≤ i))
  && (let u : SlotRef := u0; let s : State := cellAt 3361734656 {} { wq := [⟨3#16, [1#32, 2#32], 1⟩] }; let w : Nat := 3361734656; let f := fetched s u; let k := f.worker u.comb u.cell; let t : Tuple := ⟨3#16, [1#32, 2#32], 1⟩; let l := ([] : List Tuple); decide (issues .vpop u s w ∧ k.wq = t :: l))
  && (let u : SlotRef := u0; let s : State := cellAt 3361734656 {} {}; let w : Nat := 3361734656; let f := fetched s u; let k := f.worker u.comb u.cell; decide (issues .vpop u s w ∧ k.wq = []))) = true := by decide +kernel

theorem witness_FencesLocksSlots : (
  (let u : SlotRef := u0; let s : State := cellAt 1476395008 { outst := [7], rb := [⟨0, []⟩], sregs := [(1, 1#32), (2, 0x3FFC#32)] } {}; let w : Nat := 1476395008; decide (issues .fenceR u s w))
  && (let u : SlotRef := u0; let s : State := cellAt 1476395009 { outst := [7], rb := [⟨0, []⟩], sregs := [(1, 1#32), (2, 0x3FFC#32)] } {}; let w : Nat := 1476395009; decide (issues .fenceA u s w))
  && (let u : SlotRef := u0; let s : State := cellAt 1476395010 { outst := [7], rb := [⟨0, []⟩], sregs := [(1, 1#32), (2, 0x3FFC#32)] } {}; let w : Nat := 1476395010; decide (issues .fenceRA u s w))
  && (let u : SlotRef := u0; let s : State := cellAt 4093640704 { sregs := [(1, 0xFFFFFFFF#32), (2, 33#32)] } {}; let w : Nat := 4093640704; decide (issues .lock u s w))
  && (let u : SlotRef := u0; let s : State := cellAt 4160749568 { sregs := [(3, 1#32)], lock := some { buf := [(8, 1#8), (9, 2#8)], count := 16 } } {}; let w : Nat := 4160749568; let x := now s u; let l : LockRec := { buf := [(8, 1#8), (9, 2#8)], count := 16 }; decide (issues .unlock u s w ∧ x.lock = some l))
  && (let u : SlotRef := u0; let s : State := cellAt 4026601472 { outst := [7], rb := [⟨0, []⟩], sregs := [(1, 1#32), (2, 0x3FFC#32)] } {}; let w : Nat := 4026601472; let f := fetched s u; let k := f.worker u.comb u.cell; let t := ((s.slot u).s (wA w)).toNat % 4; let pc := ((s.slot u).s (wB w)).toNat; decide (issues .spawn u s w ∧ pc % 4 = 0 ∧ pc ≤ 0x3FFF ∧ t ≠ u.slot ∧ (k.slot t).running = false ∧ (k.slot t).frozen = false ∧ (k.slot t).wait = .ready))
  && (let u : SlotRef := u0; let s : State := cellAt 4026732544 { outst := [7], rb := [⟨0, []⟩], sregs := [(1, 1#32), (2, 0x3FFC#32)] } {}; let w : Nat := 4026732544; let f := fetched s u; let k := f.worker u.comb u.cell; let t := ((s.slot u).s (wA w)).toNat % 4; let pc := ((s.slot u).s (wB w)).toNat; decide (issues .spawn u s w ∧ pc % 4 = 0 ∧ pc ≤ 0x3FFF ∧ (t = u.slot ∨ (k.slot t).running = true ∨ (k.slot t).frozen = true ∨ (k.slot t).wait ≠ .ready)))
  && (let u : SlotRef := u0; let s : State := cellAt 4026601472 { sregs := [(1, 1#32), (2, 0x4000#32)] } {}; let w : Nat := 4026601472; let pc := ((s.slot u).s (wB w)).toNat; decide (issues .spawn u s w ∧ ¬(pc % 4 = 0 ∧ pc ≤ 0x3FFF)))
  && (let u : SlotRef := u0; let s : State := cellAt 4227858432 { sregs := [(1, 0xFFFFFFFF#32), (2, 33#32)] } {}; let w : Nat := 4227858432; decide (issues .endSlot u s w))) = true := by decide +kernel

theorem witness_GlobalLoadsAndStores : (
  (let u : SlotRef := u0; let s : State := cellAt 1350696960 { sregs := [(2, 0x00000000#32), (3, 0x80000050#32)] } {}; let w : Nat := 1350696960; let x := now s u; let f := fetched s u; let wide := bit w 0; let n := if wide then 8 else 4; let cn := f.residentAt u.comb; let addr := x.pair (wA w); let e : W16 := 0x3001#16; decide ((s.slot u).held = false ∧ issues .gld u s w ∧ (match f.translate cn addr n with | .error x_ => decide (x_ = e) | _ => false) = true))
  && (let u : SlotRef := u0; let s : State := cellAt 1417805824 { sregs := [(2, 0x00000000#32), (3, 0x80000050#32)] } {}; let w : Nat := 1417805824; let x := now s u; let f := fetched s u; let wide := bit w 0; let n := if wide then 8 else 4; let cn := f.residentAt u.comb; let addr := x.pair (wA w); let e : W16 := 0x3001#16; decide ((s.slot u).held = false ∧ issues .gst u s w ∧ (match f.translate cn addr n with | .error x_ => decide (x_ = e) | _ => false) = true))
  && (let u : SlotRef := u0; let s : State := cellAt 1350696961 { sregs := [(2, 0x00000028#32), (3, 0x80000030#32)] } {} (base.setArea 0 { mem := { bytes := cellsWrite [] 0x100 [1,2,3,4,5,6,7,8] }, ctr := [(5, 9#64)] }); let w : Nat := 1350696961; let x := now s u; let f := fetched s u; let wide := bit w 0; let n := if wide then 8 else 4; let cn := f.residentAt u.comb; let addr := x.pair (wA w); let t : Tgt := ⟨none, 0, 0, 3, 0x28⟩; decide ((s.slot u).held = false ∧ issues .gld u s w ∧ f.ownBehind u = false ∧ (match f.translate cn addr n with | .ok x_ => decide (x_ = t) | _ => false) = true ∧ t.own u.comb = true ∧ t.space = 3 ∧ wide = true))
  && (let u : SlotRef := u0; let s : State := cellAt 1350696960 { sregs := [(2, 0x0000013C#32), (3, 0x80000000#32)] } {} (base.setArea 0 { mem := { bytes := cellsWrite [] 0x100 [1,2,3,4,5,6,7,8] }, ctr := [(5, 9#64)] }); let w : Nat := 1350696960; let x := now s u; let f := fetched s u; let wide := bit w 0; let n := if wide then 8 else 4; let cn := f.residentAt u.comb; let addr := x.pair (wA w); let t : Tgt := ⟨none, 0, 0, 0, 0x13C⟩; let b : List Byte := cellsRead (cellsWrite [] 0x100 [1,2,3,4,5,6,7,8]) 0x100 64; decide ((s.slot u).held = false ∧ issues .gld u s w ∧ f.ownBehind u = false ∧ (match f.translate cn addr n with | .ok x_ => decide (x_ = t) | _ => false) = true ∧ t.own u.comb = true ∧ t.space = 0 ∧ t.off % 64 + n ≤ 64 ∧ x.rb.find? (fun l => l.line = lineKey t) = none ∧ (match f.performRead cn t.c 0 (t.off / 64 * 64) 64 [] with | (.ok x_, _) => decide (x_ = b) | _ => false) = true))
  && (let u : SlotRef := u0; let s : State := cellAt 1350696960 { sregs := [(2, 0x0000013C#32), (3, 0x80000000#32)], rb := [⟨lineKey (⟨none, 0, 0, 0, 0x13C⟩ : Tgt), List.replicate 64 7⟩] } {} (base.setArea 0 { mem := { bytes := cellsWrite [] 0x100 [1,2,3,4,5,6,7,8] }, ctr := [(5, 9#64)] }); let w : Nat := 1350696960; let x := now s u; let f := fetched s u; let wide := bit w 0; let n := if wide then 8 else 4; let cn := f.residentAt u.comb; let addr := x.pair (wA w); let t : Tgt := ⟨none, 0, 0, 0, 0x13C⟩; let l : RdLine := ⟨lineKey t, List.replicate 64 7⟩; decide ((s.slot u).held = false ∧ issues .gld u s w ∧ f.ownBehind u = false ∧ (match f.translate cn addr n with | .ok x_ => decide (x_ = t) | _ => false) = true ∧ t.space = 0 ∧ t.off % 64 + n ≤ 64 ∧ x.rb.find? (fun l => l.line = lineKey t) = some l))
  && (let u : SlotRef := u0; let s : State := cellAt 1417805824 { sregs := [(2, 0x02FFFFFC#32), (3, 0x80000000#32), (4, 0x01020304#32)] } {} (base.setArea 0 { mem := { bytes := cellsWrite [] 0x100 [1,2,3,4,5,6,7,8] }, ctr := [(5, 9#64)] }); let w : Nat := 1417805824; let x := now s u; let f := fetched s u; let wide := bit w 0; let n := if wide then 8 else 4; let cn := f.residentAt u.comb; let addr := x.pair (wA w); let bs := if wide then leBytes 8 (x.pair (wD w)).toNat else leBytes 4 (x.s (wD w)).toNat; let t : Tgt := ⟨none, 0, 0, 0, 0x2FFFFFC⟩; let f' : State := (f.performWrite cn 0 0 0x2FFFFFC bs (f.epLow cn)).1; decide ((s.slot u).held = false ∧ issues .gst u s w ∧ f.ownBehind u = false ∧ (match f.translate cn addr n with | .ok x_ => decide (x_ = t) | _ => false) = true ∧ t.own u.comb = true ∧ t.space = 0 ∧ f.performWrite cn t.c 0 t.off bs (f.epLow cn) = (f', none)))
  && (let u : SlotRef := u0; let s : State := cellAt 1417805824 { sregs := [(2, 0x00000104#32), (3, 0x80000800#32), (4, 0x01020304#32)] } {} (base.setArea 0 { mem := { bytes := cellsWrite [] 0x100 [1,2,3,4,5,6,7,8] }, ctr := [(5, 9#64)] }); let w : Nat := 1417805824; let x := now s u; let f := fetched s u; let wide := bit w 0; let n := if wide then 8 else 4; let cn := f.residentAt u.comb; let addr := x.pair (wA w); let t : Tgt := ⟨none, 0, 1, 0, 0x104⟩; decide ((s.slot u).held = false ∧ issues .gst u s w ∧ (match f.translate cn addr n with | .ok x_ => decide (x_ = t) | _ => false) = true ∧ t.own u.comb = false ∧ t.space = 0 ∧ f.canSend (.worker u.comb u.cell u.slot) (f.dstOf t) 0 = true))
  && (let u : SlotRef := u0; let s : State := cellAt 1417805824 { sregs := [(2, 0x00000000#32), (3, 0x80000030#32)] } {} (base.setArea 0 { mem := { bytes := cellsWrite [] 0x100 [1,2,3,4,5,6,7,8] }, ctr := [(5, 9#64)] }); let w : Nat := 1417805824; let x := now s u; let f := fetched s u; let wide := bit w 0; let n := if wide then 8 else 4; let cn := f.residentAt u.comb; let addr := x.pair (wA w); let t : Tgt := ⟨none, 0, 0, 3, 0x0⟩; decide ((s.slot u).held = false ∧ issues .gst u s w ∧ f.ownBehind u = false ∧ (match f.translate cn addr n with | .ok x_ => decide (x_ = t) | _ => false) = true ∧ t.space = 3))
  && (let u : SlotRef := u0; let s : State := cellAt 1350696960 { sregs := [(2, 0x0000013C#32), (3, 0x80000800#32)] } {} (base.setArea 0 { mem := { bytes := cellsWrite [] 0x100 [1,2,3,4,5,6,7,8] }, ctr := [(5, 9#64)] }); let w : Nat := 1350696960; let x := now s u; let f := fetched s u; let wide := bit w 0; let n := if wide then 8 else 4; let cn := f.residentAt u.comb; let addr := x.pair (wA w); let t : Tgt := ⟨none, 0, 1, 0, 0x13C⟩; decide ((s.slot u).held = false ∧ issues .gld u s w ∧ (match f.translate cn addr n with | .ok x_ => decide (x_ = t) | _ => false) = true ∧ t.own u.comb = false ∧ t.space = 0 ∧ t.off % 64 + n ≤ 64 ∧ x.rb.find? (fun l => l.line = lineKey t) = none ∧ f.canSend (.worker u.comb u.cell u.slot) (f.dstOf t) 0 = true))) = true := by decide +kernel

theorem witness_MessagesAndCounters : (
  (let u : SlotRef := u0; let s : State := cellAt 3422689280 { sregs := [(2, 0x00000001#32), (3, 0x00029000#32)] } {}; let w : Nat := 3422689280; let x := now s u; let f := fetched s u; let cn := f.residentAt u.comb; let h := (x.pair (wA w)).toNat; let e : W16 := 0x3003#16; decide ((s.slot u).held = false ∧ issues .wsnd u s w ∧ (match f.msgTarget cn h with | .error x_ => decide (x_ = e) | _ => false) = true))
  && (let u : SlotRef := u0; let s : State := cellAt 3422689280 { sregs := [(2, 0x00000031#32), (3, 0x00000000#32)] } {}; let w : Nat := 3422689280; let x := now s u; let f := fetched s u; let cn := f.residentAt u.comb; let h := (x.pair (wA w)).toNat; let c8 : Nat := 0; decide ((s.slot u).held = false ∧ issues .wsnd u s w ∧ (match f.msgTarget cn h with | .ok x_ => decide (x_ = (none, c8, u.comb)) | _ => false) = true ∧ (f.comb u.comb).landRoom (fld h 4 2) = true))
  && (let u : SlotRef := u0; let s : State := cellAt 3422689280 { sregs := [(2, 0x00000001#32), (3, 0x00001000#32)] } {}; let w : Nat := 3422689280; let x := now s u; let f := fetched s u; let m : Master := .worker u.comb u.cell u.slot; let cn := f.residentAt u.comb; let h := (x.pair (wA w)).toNat; let rem : Option Nat := none; let c8 : Nat := 0; let c : Nat := 1; decide ((s.slot u).held = false ∧ issues .wsnd u s w ∧ (match f.msgTarget cn h with | .ok x_ => decide (x_ = (rem, c8, c)) | _ => false) = true ∧ (rem ≠ none ∨ c ≠ u.comb) ∧ f.canSend m (dstField (rem.getD f.ownModule) c) (fld h 4 2) = true))
  && (let u : SlotRef := u0; let s : State := cellAt 3489857520 { sregs := [(2, 0x00000007#32), (3, 0x00000000#32)] } {}; let w : Nat := 3489857520; let f := fetched s u; decide ((s.slot u).held = false ∧ issues .cadd u s w ∧ f.ownBehind u = false))
  && (let u : SlotRef := u0; let s : State := cellAt 3493920770 { sregs := [(2, 0x00000008#32), (3, 0x80000830#32)] } {}; let w : Nat := 3493920770; let x := now s u; let f := fetched s u; let m : Master := .worker u.comb u.cell u.slot; let cn := f.residentAt u.comb; let n := if bit w 0 then 8 else 4; let t : Tgt := ⟨none, 0, 1, 3, 0x8⟩; decide ((s.slot u).held = false ∧ issues .caddRemote u s w ∧ (match f.translate cn (x.pair (wD w)) n with | .ok x_ => decide (x_ = t) | _ => false) = true ∧ t.space = 3 ∧ t.own u.comb = false ∧ f.canSend m (f.dstOf t) 0 = true))
  && (let u : SlotRef := u0; let s : State := cellAt 3493986307 { sregs := [(2, 0x00000008#32), (3, 0x80000030#32)] } {}; let w : Nat := 3493986307; let x := now s u; let f := fetched s u; let cn := f.residentAt u.comb; let n := if bit w 0 then 8 else 4; let t : Tgt := ⟨none, 0, 0, 3, 0x8⟩; decide ((s.slot u).held = false ∧ issues .caddRemote u s w ∧ (match f.translate cn (x.pair (wD w)) n with | .ok x_ => decide (x_ = t) | _ => false) = true ∧ t.space = 3 ∧ t.own u.comb = true ∧ (f.comb u.comb).landRoom 0 = true))
  && (let u : SlotRef := u0; let s : State := cellAt 3493920770 { sregs := [(2, 0x00000008#32), (3, 0x80000800#32)] } {}; let w : Nat := 3493920770; let x := now s u; let f := fetched s u; let cn := f.residentAt u.comb; let n := if bit w 0 then 8 else 4; let t : Tgt := ⟨none, 0, 1, 0, 0x8⟩; decide ((s.slot u).held = false ∧ issues .caddRemote u s w ∧ (match f.translate cn (x.pair (wD w)) n with | .ok x_ => decide (x_ = t) | _ => false) = true ∧ t.space ≠ 3))
  && (let u : SlotRef := u0; let s : State := cellAt 3556900944 { sregs := [(2, 0x00000009#32), (3, 0x00000000#32)] } {} (base.setArea 0 { mem := { bytes := cellsWrite [] 0x100 [1,2,3,4,5,6,7,8] }, ctr := [(5, 9#64)] }); let w : Nat := 3556900944; let x := now s u; let f := fetched s u; let v := (x.pair (wA w)).toNat; let ctr := (f.area u.comb).counter (wIdx w); decide ((s.slot u).held = false ∧ issues .cwait u s w ∧ v ≤ ctr))
  && (let u : SlotRef := u0; let s : State := cellAt 3556900944 { sregs := [(2, 0x0000000A#32), (3, 0x00000000#32)] } {} (base.setArea 0 { mem := { bytes := cellsWrite [] 0x100 [1,2,3,4,5,6,7,8] }, ctr := [(5, 9#64)] }); let w : Nat := 3556900944; let x := now s u; let f := fetched s u; let v := (x.pair (wA w)).toNat; let ctr := (f.area u.comb).counter (wIdx w); decide ((s.slot u).held = false ∧ issues .cwait u s w ∧ ctr < v))
  && (let u : SlotRef := u0; let s : State := cellAt 3632398416 { sregs := [(2, 0x00000009#32), (3, 0x00000000#32)] } {} (base.setArea 0 { mem := { bytes := cellsWrite [] 0x100 [1,2,3,4,5,6,7,8] }, ctr := [(5, 9#64)] }); let w : Nat := 3632398416; decide ((s.slot u).held = false ∧ issues .ctest u s w))
  && (let u : SlotRef := u0; let s : State := cellAt 3699376208 { sregs := [(2, 0x00000009#32), (3, 0x00000000#32)] } {} (base.setArea 0 { mem := { bytes := cellsWrite [] 0x100 [1,2,3,4,5,6,7,8] }, ctr := [(5, 9#64)] }); let w : Nat := 3699376208; decide ((s.slot u).held = false ∧ issues .crd u s w))) = true := by decide +kernel

theorem witness_StoreCells : (
  (let u : SlotRef := u0; let s : State := cellAt 3764391712 {} {}; let w : Nat := 3764391712; let k : Nat := 7; let r := wIdx w % 32; decide ((s.slot u).held = false ∧ srCell u.cell (wIdx w) = some k ∧ issues .srr u s w ∧ (srAccess k r).1 = true))
  && (let u : SlotRef := u0; let s : State := cellAt 3764389664 {} {}; let w : Nat := 3764389664; let k : Nat := 3; let r := wIdx w % 32; decide ((s.slot u).held = false ∧ srCell u.cell (wIdx w) = some k ∧ issues .srr u s w ∧ (srAccess k r).1 = false))
  && (let u : SlotRef := u0; let s : State := cellAt 3825405744 {} {}; let w : Nat := 3825405744; let k : Nat := 7; let r := wIdx w % 32; decide ((s.slot u).held = false ∧ srCell u.cell (wIdx w) = some k ∧ issues .srw u s w ∧ (srAccess k r).2 = true))
  && (let u : SlotRef := u0; let s : State := cellAt 3825405760 {} {}; let w : Nat := 3825405760; let k : Nat := 7; let r := wIdx w % 32; decide ((s.slot u).held = false ∧ srCell u.cell (wIdx w) = some k ∧ issues .srw u s w ∧ (srAccess k r).2 = false))
  && (let u : SlotRef := u0; let s : State := cellAt 3764389888 {} {}; let w : Nat := 3764389888; decide ((s.slot u).held = false ∧ srCell u.cell (wIdx w) = none ∧ issues .srr u s w))
  && (let u : SlotRef := u0; let s : State := cellAt 3825467376 {} {}; let w : Nat := 3825467376; decide ((s.slot u).held = false ∧ srCell u.cell (wIdx w) = none ∧ issues .srw u s w))
  && (let c : Nat := 0; let k : Nat := 3; let s : State := base.setStore 0 3 { regQ := [(13, 0x11#32, 21, 5, 0x40)] } |>.setSlot ⟨0, 5, 1⟩ { running := true, outst := [5], wait := .ready }; let t := s.store c k; let r : Nat := 13; let v := 0x11#32; let who : Nat := 21; let id : Nat := 5; let pc : Nat := 0x40; let rest : List (Nat × W32 × Nat × Nat × Nat) := []; let t' : StoreCell := ({ t with regQ := rest }.write r v).1; decide (isStoreCell c k = true ∧ t.regQ = (r, v, who, id, pc) :: rest ∧ { t with regQ := rest }.write r v = (t', none, none)))
  && (let c : Nat := 0; let k : Nat := 3; let s : State := base.setStore 0 3 { regQ := [(13, 0x10#32, 21, 5, 0x40)] } |>.setSlot ⟨0, 5, 1⟩ { running := true, outst := [5], wait := .ready }; let t := s.store c k; let r : Nat := 13; let v := 0x10#32; let who : Nat := 21; let id : Nat := 5; let pc : Nat := 0x40; let rest : List (Nat × W32 × Nat × Nat × Nat) := []; let t' : StoreCell := ({ t with regQ := rest }.write r v).1; let code : W16 := 0x4202#16; let st : Option (Nat × W16) := none; decide (isStoreCell c k = true ∧ t.regQ = (r, v, who, id, pc) :: rest ∧ { t with regQ := rest }.write r v = (t', some code, st)))
  && (let c : Nat := 0; let k : Nat := 3; let g : Nat := 1; let s : State := base.setStore 0 3 { slots := [(2, { q := [.desc [0x2FFFC#32, 0x0#32, 0x0#32, 0x0#32, 0x0#32, 0x0#32, 0x0#32, 0x0#32, 0x0#32, 0x0#32]] })] }; let t := s.store c k; let i : Nat := 2; let ws : List W32 := [0x2FFFC#32, 0x0#32, 0x0#32, 0x0#32, 0x0#32, 0x0#32, 0x0#32, 0x0#32, 0x0#32, 0x0#32]; let l : List SEntry := []; decide (isStoreCell c k = true ∧ g < 2 ∧ s.ctxRuns c = true ∧ s.dead c = false ∧ (s.area c).genTurn k g = some i ∧ (t.slot i).q = .desc ws :: l ∧ gBad (wnum ws) = false))
  && (let c : Nat := 0; let k : Nat := 3; let g : Nat := 1; let s : State := base.setStore 0 3 { slots := [(2, { q := [.desc [0x400000#32, 0x0#32, 0x0#32, 0x0#32, 0x0#32, 0x0#32, 0x0#32, 0x0#32, 0x0#32, 0x0#32]] })] }; let t := s.store c k; let i : Nat := 2; let ws : List W32 := [0x400000#32, 0x0#32, 0x0#32, 0x0#32, 0x0#32, 0x0#32, 0x0#32, 0x0#32, 0x0#32, 0x0#32]; let l : List SEntry := []; decide (isStoreCell c k = true ∧ g < 2 ∧ s.ctxRuns c = true ∧ s.dead c = false ∧ (s.area c).genTurn k g = some i ∧ (t.slot i).q = .desc ws :: l ∧ gBad (wnum ws) = true))
  && (let c : Nat := 0; let k : Nat := 3; let g : Nat := 1; let s : State := base.setStore 0 3 { gens := [(1, { slot := some 2, pos := 1 })], slots := [(2, { q := [.desc [0x2FFFC#32, 0x1#32, 0x0#32, 0x4#32, 0x0#32, 0x0#32, 0x0#32, 0x0#32, 0x0#32, 0x0#32]] })] }; let t := s.store c k; let i : Nat := 2; let ws : List W32 := [0x2FFFC#32, 0x1#32, 0x0#32, 0x4#32, 0x0#32, 0x0#32, 0x0#32, 0x0#32, 0x0#32, 0x0#32]; let l : List SEntry := []; let d := wnum ws; let a := gAddr d (t.gen g).pos; decide (isStoreCell c k = true ∧ g < 2 ∧ s.ctxRuns c = true ∧ s.dead c = false ∧ (t.gen g).halted = false ∧ (t.gen g).slot = some i ∧ (t.slot i).q = .desc ws :: l ∧ (a < 0 ∨ 0x2FFFF < a ∨ a % (gSize d : Int) ≠ 0)))
  && (let c : Nat := 0; let k : Nat := 3; let g : Nat := 1; let s : State := base.setStore 0 3 { gens := [(1, { slot := some 2, pos := 1 })], slots := [(2, { q := [.desc [0x2FFF8#32, 0x1#32, 0x0#32, 0x4#32, 0x0#32, 0x0#32, 0x0#32, 0x0#32, 0x0#32, 0x0#32]] })] }; let t := s.store c k; let i : Nat := 2; let ws : List W32 := [0x2FFF8#32, 0x1#32, 0x0#32, 0x4#32, 0x0#32, 0x0#32, 0x0#32, 0x0#32, 0x0#32, 0x0#32]; let l : List SEntry := []; let d := wnum ws; let a := gAddr d (t.gen g).pos; decide (isStoreCell c k = true ∧ g < 2 ∧ s.ctxRuns c = true ∧ s.dead c = false ∧ (t.gen g).halted = false ∧ (t.gen g).slot = some i ∧ (t.slot i).q = .desc ws :: l ∧ 0 ≤ a ∧ a ≤ 0x2FFFF ∧ a % (gSize d : Int) = 0 ∧ gIn d = false ∧ ptEn t.ptCfg.toNat (gPort d) = false ∧ s.canPut c k (gPort d) = true))
  && (let c : Nat := 0; let k : Nat := 3; let g : Nat := 1; let s : State := base.setStore 0 3 { gens := [(1, { slot := some 2, pos := 1 })], slots := [(2, { q := [.desc [0xEFFF8#32, 0x1#32, 0x0#32, 0x0#32, 0x0#32, 0x0#32, 0x0#32, 0x0#32, 0x0#32, 0x0#32]] })], ports := { inq := [(0, [5#64, 6#64])] } }; let t := s.store c k; let i : Nat := 2; let ws : List W32 := [0xEFFF8#32, 0x1#32, 0x0#32, 0x0#32, 0x0#32, 0x0#32, 0x0#32, 0x0#32, 0x0#32, 0x0#32]; let l : List SEntry := []; let d := wnum ws; let a := gAddr d (t.gen g).pos; let v := (5#64 : W64); let q := ([6#64] : List W64); decide (isStoreCell c k = true ∧ g < 2 ∧ s.ctxRuns c = true ∧ s.dead c = false ∧ (t.gen g).halted = false ∧ (t.gen g).slot = some i ∧ (t.slot i).q = .desc ws :: l ∧ 0 ≤ a ∧ a ≤ 0x2FFFF ∧ a % (gSize d : Int) = 0 ∧ gIn d = true ∧ ptNames t.ptCfg.toNat (gPort d) = false ∧ t.ports.inQ (gPort d) = v :: q))
  && (let c : Nat := 0; let k : Nat := 3; let g : Nat := 0; let s : State := base.setStore 0 3 { slots := [(3, { q := [.ctw [0xFFF00020#32, 0xFFFF#32, 0x0#32, 0x0#32]] })] }; let t := s.store c k; let i : Nat := 3; let ws : List W32 := [0xFFF00020#32, 0xFFFF#32, 0x0#32, 0x0#32]; let l : List SEntry := []; let d := wnum ws; decide (isStoreCell c k = true ∧ i < 4 ∧ s.ctxRuns c = true ∧ s.dead c = false ∧ (List.range 2).find? (fun g => (s.area c).genTurn k g = some i) = some g ∧ (t.slot i).q = .ctw ws :: l ∧ ctwBad k (wnum ws) = false ∧ fld d 0 4 = 0))
  && (let c : Nat := 0; let k : Nat := 7; let g : Nat := 0; let s : State := base.setStore 0 7 { edgeWr := 3#32, slots := [(3, { q := [.ctw [0x1#32, 0x1#32, 0x0#32, 0x0#32]] })] }; let t := s.store c k; let i : Nat := 3; let ws : List W32 := [0x1#32, 0x1#32, 0x0#32, 0x0#32]; let l : List SEntry := []; let d := wnum ws; decide (isStoreCell c k = true ∧ i < 4 ∧ s.ctxRuns c = true ∧ s.dead c = false ∧ (List.range 2).find? (fun g => (s.area c).genTurn k g = some i) = some g ∧ (t.slot i).q = .ctw ws :: l ∧ ctwBad k (wnum ws) = false ∧ fld d 0 4 = 1 ∧ bit d 5 = false))
  && (let c : Nat := 0; let k : Nat := 7; let g : Nat := 0; let s : State := base.setStore 0 7 { edgeWr := 3#32, slots := [(3, { q := [.ctw [0x500021#32, 0x1#32, 0x0#32, 0x0#32]] })] }; let t := s.store c k; let i : Nat := 3; let ws : List W32 := [0x500021#32, 0x1#32, 0x0#32, 0x0#32]; let l : List SEntry := []; let d := wnum ws; decide (isStoreCell c k = true ∧ i < 4 ∧ s.ctxRuns c = true ∧ s.dead c = false ∧ (List.range 2).find? (fun g => (s.area c).genTurn k g = some i) = some g ∧ (t.slot i).q = .ctw ws :: l ∧ ctwBad k (wnum ws) = false ∧ fld d 0 4 = 1 ∧ bit d 5 = true))) = true := by decide +kernel

theorem witness_CellLinksMoveWords : (
  (let c : Nat := 0; let k : Nat := 0; let d : Nat := 1; let s : State := base.setWorker 0 0 { ports := { wire := [(1, [5#64, 6#64])], inq := [(1, [4#64])] }, ptCfg := 0 }; let p := s.portsOf c k; let v := (5#64 : W64); let l := ([6#64] : List W64); decide (isCell c k = true ∧ d < 4 ∧ tget [] p.wire d = v :: l))
  && (let c : Nat := 0; let k : Nat := 0; let d : Nat := 1; let s : State := base; let p := s.portsOf c k; decide (isCell c k = true ∧ d < 4 ∧ tget [] p.wire d = []))
  && (let c : Nat := 0; let k : Nat := 0; let d : Nat := 1; let s : State := base.setWorker 0 0 { ports := { back := [(1, 1)], used := [(1, 1)] }, ptCfg := 0 }; let p := s.portsOf c k; decide (isCell c k = true ∧ d < 4 ∧ 0 < tget 0 p.back d))
  && (let c : Nat := 0; let k : Nat := 0; let d : Nat := 1; let s : State := base; let p := s.portsOf c k; decide (isCell c k = true ∧ d < 4 ∧ tget 0 p.back d = 0))
  && (let c : Nat := 0; let k : Nat := 0; let d : Nat := 1; let s : State := base.setWorker 0 0 { ports := { inq := [(1, [5#64])] }, ptCfg := 0x110011#32 }; let p := s.portsOf c k; let cfg := (s.area c).ptCfgOf k; let outs := (List.range 4).filter (fun e => ptEn cfg e && ptSrc cfg e = d); let v := (5#64 : W64); let l := ([] : List W64); decide (isCell c k = true ∧ d < 4 ∧ p.inQ d = v :: l ∧ outs ≠ [] ∧ outs.all (s.canPut c k) = true))
  && (let c : Nat := 0; let k : Nat := 0; let d : Nat := 1; let s : State := base.setWorker 0 0 { ports := { inq := [(1, [5#64])], used := [(0, 8)] }, ptCfg := 0x11#32 }; let cfg := (s.area c).ptCfgOf k; let outs := (List.range 4).filter (fun e => ptEn cfg e && ptSrc cfg e = d); let e := 0; decide (isCell c k = true ∧ d < 4 ∧ e ∈ outs ∧ s.canPut c k e = false))) = true := by decide +kernel

theorem witness_SlotsWakeAndLinesExpire : (
  (let u : SlotRef := u0; let s : State := base.setArea 0 ({ ctr := [(4095, 9#64)] } : Area) |>.setSlot u0 { running := true, wait := .counter 4095 9#64 }; let i : Nat := 4095; let v : W64 := 9#64; decide (isSlot u = true ∧ (s.slot u).wait = .counter i v ∧ v.toNat ≤ (s.area u.comb).counter i))
  && (let u : SlotRef := u0; let s : State := base.setArea 0 ({ ctr := [(4095, 9#64)] } : Area) |>.setSlot u0 { running := true, wait := .counter 4095 10#64 }; let i : Nat := 4095; let v : W64 := 10#64; decide (isSlot u = true ∧ (s.slot u).wait = .counter i v ∧ (s.area u.comb).counter i < v.toNat))
  && (let u : SlotRef := u0; let s : State := base.setWorker 0 0 { ports := { inq := [(1, [5#64])] }, ptCfg := 0 } |>.setSlot u0 { wait := .portIn 1 }; let d : Nat := 1; decide (isSlot u = true ∧ (s.slot u).wait = .portIn d ∧ (∀ i ∈ List.range 4, i ≠ u.slot → ((s.worker u.comb u.cell).slot i).wait ≠ .portIn d ∧ ((s.worker u.comb u.cell).slot i).woke ≠ .portIn d) ∧ (s.portsOf u.comb u.cell).inQ d ≠ []))
  && (let u : SlotRef := u0; let s : State := base.setSlot u0 { wait := .portIn 1 }; let d : Nat := 1; decide (isSlot u = true ∧ (s.slot u).wait = .portIn d ∧ (∀ i ∈ List.range 4, i ≠ u.slot → ((s.worker u.comb u.cell).slot i).wait ≠ .portIn d ∧ ((s.worker u.comb u.cell).slot i).woke ≠ .portIn d) ∧ (s.portsOf u.comb u.cell).inQ d = []))
  && (let u : SlotRef := u0; let s : State := base; decide (isSlot u = true ∧ (s.slot u).wait = .ready))
  && (let u : SlotRef := u0; let way : Nat := 1; decide (isSlot u = true ∧ way < 2))) = true := by decide +kernel

theorem witness_EdgeRingsAndScheduledLinks : (
  (let c : Nat := 0; let k : Nat := 23; let s : State := base.setStore 0 23 { edgeBase := 0x40#32, edgeSlots := 2#32, edgeWr := 3#32, edgeRd := 2#32, edgeQ := [{ row := 0, six := 0, vals := [1#32, 2#32], idx := [], form := 0, trailer := [3#32, 0, 0, 0], tag := 7#16, crc := crc32c (bytes32 [1#32, 2#32]), first := true, mt := 0, nt := 0 }] }; let g : Seg := { row := 0, six := 0, vals := [1#32, 2#32], idx := [], form := 0, trailer := [3#32, 0, 0, 0], tag := 7#16, crc := crc32c (bytes32 [1#32, 2#32]), first := true, mt := 0, nt := 0 }; let l : List Seg := []; let t := s.store c k; decide (isEdgePort c k = true ∧ t.edgeQ = g :: l ∧ t.ringRoom = true ∧ g.form = 0 ∧ crc32c g.body = g.crc))
  && (let c : Nat := 0; let k : Nat := 7; let s : State := base; decide (isEdgePort c k = true ∧ (s.store c k).edgeQ = []))
  && (let c : Nat := 0; let d : Nat := 0; let c' : Nat := 1; let n : Nat := 0; let s : State := (base.setStore 0 7 { edgeSlots := 1#32 }).setArea 1 { slOut := [(1, some { row := 0, six := 0, vals := [1#32, 2#32], idx := [], form := 0, trailer := [3#32, 0, 0, 0], tag := 7#16, crc := crc32c (bytes32 [1#32, 2#32]), first := true, mt := 0, nt := 0 })] }; let g : Seg := { row := 0, six := 0, vals := [1#32, 2#32], idx := [], form := 0, trailer := [3#32, 0, 0, 0], tag := 7#16, crc := crc32c (bytes32 [1#32, 2#32]), first := true, mt := 0, nt := 0 }; let a : Area := ((s.area c).toEdge (s.slRx n d) 0 { g with src := d + 1 }).getD {}; let d' := if d % 2 = 0 then d + 1 else d - 1; let i := if g.first then 0 else tget 0 (s.area c).slK d; decide (isComb c = true ∧ d < 4 ∧ slNeighbour c d = some c' ∧ s.residentAt c = some n ∧ tget none (s.area c').slOut d' = some g ∧ (s.area c).toEdge (s.slRx n d) i { g with src := d + 1 } = some a))) = true := by decide +kernel

theorem witness_EnginePortsAndPairs : (
  (let c : Nat := 0; let sl : Nat := 3; let s : State := base.setEng 0 { cqSize := [(3, 4#32)], cqHead := [(3, 0xFFFFFFFE#32)], cqTail := [(3, 0xFFFFFFFF#32)] }; let n := s.residentAt c; let a := s.areaAt n c; let e := a.eng; let h := tget 0 e.cqHead sl; let v : W32 := 2#32; decide (isComb c = true ∧ sl < 4 ∧ (v - h).toNat ≤ (tget 0 e.cqSize sl).toNat ∧ (tget 0 e.cqTail sl - h).toNat ≤ (v - h).toNat))
  && (let c : Nat := 0; let sl : Nat := 3; let s : State := base.setEng 0 { cqSize := [(3, 4#32)], cqHead := [(3, 0xFFFFFFFE#32)], cqTail := [(3, 0xFFFFFFFF#32)] }; let n := s.residentAt c; let a := s.areaAt n c; let e := a.eng; let h := tget 0 e.cqHead sl; let v : W32 := 3#32; decide (isComb c = true ∧ sl < 4 ∧ (tget 0 e.cqSize sl).toNat < (v - h).toNat))
  && (let c : Nat := 0; let sl : Nat := 3; let s : State := base.setEng 0 { cqSize := [(3, 4#32)], cqHead := [(3, 0xFFFFFFFE#32)], cqTail := [(3, 0xFFFFFFFF#32)], runs := [(3, { cl := [2#32], phase := .stopped 2 })] }; let n := s.residentAt c; let a := s.areaAt n c; let e := a.eng; let st := 2; decide (isComb c = true ∧ sl < 4 ∧ (tget {} e.runs sl).phase = .stopped st ∧ clOpcode (wnum (tget {} e.runs sl).cl) ≠ 3))
  && (let c : Nat := 0; let sl : Nat := 3; let s : State := base; let n := s.residentAt c; let a := s.areaAt n c; let e := a.eng; decide (isComb c = true ∧ sl < 4 ∧ (match (tget {} e.runs sl).phase with | .stopped _ => false | _ => true) = true))
  && (let c : Nat := 0; let sl : Nat := 3; let s : State := base.setEng 0 { cqSize := [(3, 4#32)], cqHead := [(3, 0xFFFFFFFE#32)], cqTail := [(3, 0xFFFFFFFF#32)], runs := [(3, { cl := [2#32], phase := .stopped 1 })] }; let n := s.residentAt c; let a := s.areaAt n c; let e := a.eng; decide (isComb c = true ∧ sl < 4 ∧ (tget {} e.runs sl).phase = .stopped 1))
  && (let c : Nat := 0; let sl : Nat := 3; let s : State := base; let n := s.residentAt c; let a := s.areaAt n c; let e := a.eng; let w0 : W32 := 1023#32; let w1 : W32 := 0xFFFFFF#32; decide (isComb c = true ∧ sl < 4 ∧ w0.toNat < 1024 ∧ w1.toNat < 2 ^ 24 ∧ tget none e.closes w0.toNat = none ∧ tget 0 e.consumed w0.toNat ≤ w1.toNat))
  && (let c : Nat := 0; let sl : Nat := 3; let s : State := base.setEng 0 { closes := [(0, some 0)] }; let n := s.residentAt c; let a := s.areaAt n c; let e := a.eng; let w0 : W32 := 0#32; let w1 : W32 := 5#32; let m : Nat := 0; decide (isComb c = true ∧ sl < 4 ∧ w0.toNat < 1024 ∧ w1.toNat < 2 ^ 24 ∧ tget none e.closes w0.toNat = some m))
  && (let c : Nat := 0; let sl : Nat := 3; let v : W32 := 0x7F81#32; decide (isComb c = true ∧ sl < 4 ∧ xbiasOk v.toNat = true))
  && (let c : Nat := 0; let sl : Nat := 3; let v : W32 := 0x10000#32; decide (isComb c = true ∧ sl < 4 ∧ xbiasOk v.toNat = false))
  && (let c : Nat := 0; let sl : Nat := 3; let v : W32 := 0#32; decide (isComb c = true ∧ sl < 4 ∧ gqPubOk v.toNat = true))
  && (let c : Nat := 0; let sl : Nat := 3; let i : Nat := 0x23; decide (isComb c = true ∧ sl < 4 ∧ 0x23 ≤ i))
  && (let c : Nat := 0; decide (isComb c = true ∧ partnerOf c ≠ c))
  && (let c : Nat := 0; let s : State := base; decide (isComb c = true ∧ bit (s.eng c).gqPub.toNat 31 = false))
  && (let c : Nat := 0; let s : State := base.setEng 0 { gqPub := 0x80000040#32, gq := [⟨0, []⟩] }; let t := (s.performWrite (s.residentAt c) c 0 (fld (s.eng c).gqPub.toNat 0 26) (leBytes 4 (s.eng c).gq.length) (s.epLow (s.residentAt c))).1; decide (isComb c = true ∧ bit (s.eng c).gqPub.toNat 31 = true ∧ s.performWrite (s.residentAt c) c 0 (fld (s.eng c).gqPub.toNat 0 26) (leBytes 4 (s.eng c).gq.length) (s.epLow (s.residentAt c)) = (t, none)))) = true := by decide +kernel

theorem witness_ClausesRunByTiles : (
  (let c : Nat := 0; let sl : Nat := 0; let s : State := base.setEng 0 { cqSize := [(0, 4#32)], cqTail := [(0, 1#32)] }; let e := s.eng c; decide (isComb c = true ∧ sl < 4 ∧ e.active = none ∧ e.halted = false ∧ (∀ i ∈ List.range 4, tget false e.frozen i = false) ∧ s.dead c = false ∧ s.engGated c = false ∧ s.ctxRuns c = true ∧ (s.area c).turn = some sl))
  && (let c : Nat := 0; let sl : Nat := 0; let s : State := base; decide (isComb c = true ∧ sl < 4 ∧ (s.area c).turn ≠ some sl))
  && (let c : Nat := 0; let sl : Nat := 0; let s : State := base.setEng 0 { active := some 1 }; let e := s.eng c; let i : Nat := 1; decide (isComb c = true ∧ sl < 4 ∧ e.active = some i))
  && (let c : Nat := 0; let sl : Nat := 0; let s : State := base.setEng 0 { active := some 0, runs := [(0, { cl := [1#32], segment := 1 })] }; let e := s.eng c; let r := e.run sl; let ge := r.geo e.pairEn; let m := (s.area c).mem; decide (isComb c = true ∧ sl < 4 ∧ s.engOn c = true ∧ e.active = some sl ∧ r.phase = .nextTile ∧ e.mustDrain r = false ∧ (r.settled m ge).unitOpen = false ∧ e.nextUnit (r.settled m ge) m ge = .done))
  && (let c : Nat := 0; let sl : Nat := 0; let s : State := base.setEng 0 { active := some 0, runs := [(0, { cl := [1#32], phase := .stream, rows := 1 })] }; let e := s.eng c; let r := e.run sl; let ge := r.geo e.pairEn; let m := (s.area c).mem; let g := if clOpcode r.v ≥ 2 then r.group else 0; let nd := r.need m ge; let s1 : State := (s.wideRead c sl (r.tileRanges ge (if nd.2 then r.dblo else r.db) r.nt nd.1)).2; decide (isComb c = true ∧ sl < 4 ∧ s.engOn c = true ∧ e.active = some sl ∧ r.phase = .stream ∧ tileIs e.weights g r.nt nd.1 nd.2 = false ∧ tileIs e.shadow g r.nt nd.1 nd.2 = false ∧ mSparse r.db = 0 ∧ s.wideRead c sl (r.tileRanges ge (if nd.2 then r.dblo else r.db) r.nt nd.1) = (none, s1)))
  && (let c : Nat := 0; let sl : Nat := 0; let s : State := base.setEng 0 { active := some 0, runs := [(0, { cl := [1#32], phase := .stream, rows := 1 })], shadow := some ⟨0, 0, 0, false, []⟩ }; let e := s.eng c; let r := e.run sl; let ge := r.geo e.pairEn; let m := (s.area c).mem; let g := if clOpcode r.v ≥ 2 then r.group else 0; let nd := r.need m ge; decide (isComb c = true ∧ sl < 4 ∧ s.engOn c = true ∧ e.active = some sl ∧ r.phase = .stream ∧ r.pos = 0 ∧ tileIs e.weights g r.nt nd.1 nd.2 = false ∧ tileIs e.shadow g r.nt nd.1 nd.2 = true))
  && (let c : Nat := 0; let sl : Nat := 0; let s : State := base.setEng 0 { active := some 0, runs := [(0, { cl := [1#32], phase := .stream, rows := 1 })], weights := some ⟨0, 0, 0, false, [⟨0, 0, 1, 127⟩]⟩ }; let e := s.eng c; let r := e.run sl; let ge := r.geo e.pairEn; let m := (s.area c).mem; let g := if clOpcode r.v ≥ 2 then r.group else 0; let nd := r.need m ge; let w : WTile := ⟨0, 0, 0, false, [⟨0, 0, 1, 127⟩]⟩; decide (isComb c = true ∧ sl < 4 ∧ s.engOn c = true ∧ e.active = some sl ∧ e.weights = some w ∧ r.phase = .stream ∧ tileIs e.weights g r.nt nd.1 nd.2 = true))
  && (let c : Nat := 0; let sl : Nat := 0; let s : State := base.setEng 0 { active := some 0, runs := [(0, { cl := List.replicate 13 0 ++ [0x1000#32, 2#32, 0], phase := .kWait })] } |> fun s => s.setArea 0 { s.area 0 with ctr := [(0, 2#64)] }; let e := s.eng c; let r := e.run sl; decide (isComb c = true ∧ sl < 4 ∧ s.engOn c = true ∧ e.active = some sl ∧ r.phase = .kWait ∧ clWaitEn r.v = true ∧ clWaitVal r.v + r.kseg ≤ (s.area c).counter (clWaitCtr r.v)))
  && (let c : Nat := 0; let sl : Nat := 0; let s : State := base.setEng 0 { active := some 0, runs := [(0, { cl := List.replicate 13 0 ++ [0x1000#32, 2#32, 0], phase := .kWait })] } |> fun s => s.setArea 0 { s.area 0 with ctr := [(0, 1#64)] }; let e := s.eng c; let r := e.run sl; decide (isComb c = true ∧ sl < 4 ∧ s.engOn c = true ∧ e.active = some sl ∧ r.phase = .kWait ∧ clWaitEn r.v = true ∧ (s.area c).counter (clWaitCtr r.v) < clWaitVal r.v + r.kseg))
  && (let c : Nat := 0; let sl : Nat := 0; let s : State := base.setEng 0 { active := some 0, runs := [(0, { cl := [1#32], phase := .drain, rows := 1, computed := [(0, 0)] })] }; let e := s.eng c; let r := e.run sl; let ge := r.geo e.pairEn; decide (isComb c = true ∧ sl < 4 ∧ s.engOn c = true ∧ e.active = some sl ∧ r.phase = .drain ∧ e.outQ = [] ∧ r.nseg ge ≤ r.kseg + 1))
  && (let c : Nat := 0; let sl : Nat := 0; let s : State := base; decide (isComb c = true ∧ sl < 4 ∧ s.engOn c = false))) = true := by decide +kernel

theorem witness_ClausesEmitAndEnd : (
  (let c : Nat := 0; let sl : Nat := 0; let s : State := base.setEng 0 { active := some 0, runs := [(0, { cl := [0x40001#32, 0, 0], phase := .nextTile })], outQ := [{ row := 0, six := 0, vals := [1#32, 2#32], idx := [], form := 0, trailer := [3#32, 0, 0, 0], tag := 7#16, crc := crc32c (bytes32 [1#32, 2#32]), first := true, mt := 0, nt := 0 }] }; let e := s.eng c; let r := e.run sl; let g := ({ row := 0, six := 0, vals := [1#32, 2#32], idx := [], form := 0, trailer := [3#32, 0, 0, 0], tag := 7#16, crc := crc32c (bytes32 [1#32, 2#32]), first := true, mt := 0, nt := 0 } : Seg); let l : List Seg := []; let c' : Nat := 1; decide (isComb c = true ∧ e.active = some sl ∧ s.dead c = false ∧ s.engGated c = false ∧ s.pairedIn c = false ∧ e.outQ = g :: l ∧ clRoute r.v = 2 ∧ slNeighbour c (clRouteArg r.v % 4) = some c' ∧ s.linkCut c' = false ∧ tget none (s.area c).slOut (clRouteArg r.v % 4) = none))
  && (let c : Nat := 0; let sl : Nat := 0; let s : State := (base.setEng 0 { active := some 0, runs := [(0, { cl := [0x40001#32, 0, 0], phase := .nextTile })], outQ := [{ row := 0, six := 0, vals := [1#32, 2#32], idx := [], form := 0, trailer := [3#32, 0, 0, 0], tag := 7#16, crc := crc32c (bytes32 [1#32, 2#32]), first := true, mt := 0, nt := 0 }] }).setComb 1 { lost := true }; let e := s.eng c; let r := e.run sl; let g := ({ row := 0, six := 0, vals := [1#32, 2#32], idx := [], form := 0, trailer := [3#32, 0, 0, 0], tag := 7#16, crc := crc32c (bytes32 [1#32, 2#32]), first := true, mt := 0, nt := 0 } : Seg); let l : List Seg := []; let c' : Nat := 1; decide (isComb c = true ∧ e.active = some sl ∧ s.dead c = false ∧ s.engGated c = false ∧ s.pairedIn c = false ∧ e.outQ = g :: l ∧ clRoute r.v = 2 ∧ slNeighbour c (clRouteArg r.v % 4) = some c' ∧ s.linkCut c' = true))
  && (let c : Nat := 0; let sl : Nat := 0; let s : State := base.setEng 0 { active := some 0, runs := [(0, { cl := [0x40001#32, 0, 0], phase := .nextTile })], pairCtl := 1, outQ := [{ row := 0, six := 0, vals := [1#32, 2#32], idx := [], form := 0, trailer := [3#32, 0, 0, 0], tag := 7#16, crc := crc32c (bytes32 [1#32, 2#32]), first := true, mt := 0, nt := 0 }] }; let e := s.eng c; let g := ({ row := 0, six := 0, vals := [1#32, 2#32], idx := [], form := 0, trailer := [3#32, 0, 0, 0], tag := 7#16, crc := crc32c (bytes32 [1#32, 2#32]), first := true, mt := 0, nt := 0 } : Seg); let l : List Seg := []; let crc : W32 := crc32c (bytes32 [1#32, 2#32]); decide (isComb c = true ∧ s.pairedIn c = true ∧ e.active = some sl ∧ e.outQ = g :: l ∧ e.pairCrc = [] ∧ g.crc = crc))
  && (let c : Nat := 0; let sl : Nat := 0; let s : State := base.setEng 0 { active := some 0, runs := [(0, { cl := [0x40001#32, 0, 0], phase := .nextTile })], pairCtl := 1, outQ := [{ row := 0, six := 0, vals := [1#32, 2#32], idx := [], form := 0, trailer := [3#32, 0, 0, 0], tag := 7#16, crc := crc32c (bytes32 [1#32, 2#32]), first := true, mt := 0, nt := 0 }] }; let e := s.eng c; let g := ({ row := 0, six := 0, vals := [1#32, 2#32], idx := [], form := 0, trailer := [3#32, 0, 0, 0], tag := 7#16, crc := crc32c (bytes32 [1#32, 2#32]), first := true, mt := 0, nt := 0 } : Seg); let l : List Seg := []; let crc : W32 := 0#32; decide (isComb c = true ∧ s.pairedIn c = true ∧ e.active = some sl ∧ e.outQ = g :: l ∧ e.pairCrc = [] ∧ g.crc ≠ crc))
  && (let c : Nat := 0; let sl : Nat := 0; let s : State := base.setEng 0 { active := some 0, runs := [(0, { cl := [0], phase := .ending })] }; let e := s.eng c; let r := e.run sl; decide (isComb c = true ∧ s.dead c = false ∧ s.engGated c = false ∧ e.active = some sl ∧ e.outQ = [] ∧ r.phase = .ending ∧ clOpcode r.v = 0 ∧ clDoneEn r.v = false ∧ clCrecEn r.v = false))
  && (let c : Nat := 0; let sl : Nat := 0; let s : State := base.setEng 0 { active := some 0, runs := [(0, { cl := [3#32, 0x22000#32] })], gq := List.replicate 8191 ⟨1, []⟩ ++ [⟨0, []⟩] }; let e := s.eng c; let r := e.run sl; let g := (1 : Nat); decide (isComb c = true ∧ e.active = some sl ∧ clOpcode r.v = 3 ∧ r.phase = .nextTile ∧ r.unitOpen = false ∧ r.forced = none ∧ e.fullStuck r.v = true ∧ e.fullest r.v = some g))
  && (let c : Nat := 0; let s : State := base.setEng 0 { active := some 0, runs := [(0, { cl := [1#32] })] }; let e := s.eng c; decide (isComb c = true ∧ e.fallback = false))
  && (let c : Nat := 0; let s : State := base.setEng 0 { fallback := true }; let e := s.eng c; decide (isComb c = true ∧ e.fallback = true))
  && (let c : Nat := 0; let s : State := base.setEng 0 { active := some 0, runs := [(0, { cl := [1#32] })] }; let e := s.eng c; decide (isComb c = true ∧ e.busy = true ∧ e.fallback = false))
  && (let c : Nat := 0; let s : State := base; let e := s.eng c; decide (isComb c = true ∧ e.busy = false))
  && (let c : Nat := 0; let s : State := base.setEng 0 { active := some 0, runs := [(0, { cl := [1#32] })], fallback := true }; let e := s.eng c; let k := 0; decide (isComb c = true ∧ isWorkerCell c k = true ∧ e.fallback = true ∧ e.steps = true ∧ s.dead c = false ∧ (s.worker c k).ctxReady = false ∧ (s.worker c k).svcHalt = false ∧ s.engStays c = true))
  && (let c : Nat := 0; let s : State := cellAt 0; let k := 0; decide (isComb c = true ∧ isWorkerCell c k = true ∧ (s.worker c k).ctxReady = true))) = true := by decide +kernel

theorem witness_FreezesAndReleases : (
  (let m : Master := .worker 0 1 3; let code : W16 := 0x8001#16; let s : State := base.setCtx 0 { base.ctx 0 with frz := [(1, { code := 1, st := 1, comb := 0, master := some (.host 1024) }), (3, { code := 1, st := 1, comb := 0, master := some (.host 1024) })] }; let n := s.masterCtx m; decide (isMaster m = true ∧ (code = 0x8001#16 ∨ code = 0x8002#16) ∧ m ≠ .keeper ∧ (match m with | .service _ => false | _ => true) = true ∧ s.isFrozen n m = false))
  && (let m : Master := .worker 0 1 3; let code : W16 := 0x8001#16; let s : State := base.setSlot ⟨0, 1, 3⟩ { frozen := true }; let n := s.masterCtx m; decide (isMaster m = true ∧ (code = 0x8001#16 ∨ code = 0x8002#16) ∧ m ≠ .keeper ∧ (match m with | .service _ => false | _ => true) = true ∧ s.isFrozen n m = true))
  && (let m : Master := .worker 0 1 3; let code : W16 := 0x8002#16; decide (isMaster m = true ∧ (code = 0x8001#16 ∨ code = 0x8002#16) ∧ m ≠ .keeper ∧ (match m with | .service _ => false | _ => true) = true))
  && (let p : Path := .mgmt; let v : W64 := 17#64; let s : State := up; let i := v.toNat; decide (isPath p = true ∧ writable p 0x2830 18 v s ∧ (i = 0 ∨ 16 < i)))
  && (let p : Path := .mgmt; let v : W64 := 16#64; let s : State := up; let i := v.toNat; decide (isPath p = true ∧ writable p 0x2830 18 v s ∧ 1 ≤ i ∧ i ≤ 16 ∧ (tget {} s.opFrz i).st = 0))
  && (let p : Path := .mgmt; let v : W64 := 16#64; let s : State := { up with opFrz := [(16, { code := 1, st := 1, comb := 0, master := some (.host 1024) })] }; let i := v.toNat; let f := 1024; decide (isPath p = true ∧ writable p 0x2830 18 v s ∧ 1 ≤ i ∧ i ≤ 16 ∧ (tget {} s.opFrz i).st ≠ 0 ∧ (tget {} s.opFrz i).master = some (.host f)))) = true := by decide +kernel

theorem witness_AccessesEndInErrors : (
  (let s : State := base.setSlot u0 { running := true, outst := [3, 4], outPc := [(4, 0x80)] }; let id : Nat := 4; let u : SlotRef := u0; decide (isSlot u = true ∧ (s.slot u).outst.contains id = true))
  && (let s : State := base.setForager 0 3 { slots := [(63, { unitIx := 5, outst := [3, 4] })] }; let id : Nat := 4; let c := 0; let f := 3; let k := 63; decide (isComb c = true ∧ f < 4 ∧ (s.area c).waitsFor (.forager c f) id = true ∧ (s.forager c f).slotOf id = some k ∧ (tget {} (s.forager c f).slots k).fault = none ∧ (tget {} (s.forager c f).slots k).units = []))
  && (let f := 1087; decide (isHostFn f = true))) = true := by decide +kernel

theorem witness_KeysChallengesReports : (
  let n : Nat := 0
  let s : State := up
  let p := Path.tenant n
  decide (isCtx n = true)
  && (let key : List Byte := List.replicate 97 4; decide (domWritable p 0x2801 (n + 1) s ∧ key.length = 97))
  && (let key : List Byte := []; decide (domWritable p 0x2801 (n + 1) s ∧ key.length ≠ 97))
  && (decide (readable p 0x2802 (n + 1) s))
  && (let b : List Byte := List.replicate 32 4; decide (domWritable p 0x2804 (n + 1) s ∧ b.length = 32))
  && (let b : List Byte := List.replicate 33 4; decide (domWritable p 0x2804 (n + 1) s ∧ b.length ≠ 32))) = true := by decide +kernel

theorem witness_TokensAndInspection : (
  (let n : Nat := 0; let tok : List Byte := (1 : Byte) :: 0 :: 16 :: List.replicate 141 0; let s : State := (up.setCtx 0 { up.ctx 0 with frz := [(16, { code := 1, st := 1, comb := 0, master := some (.host 1024) })], tkey := [4], chal := some (List.replicate 32 0) }); decide (isCtx n = true ∧ domWritable (.tenant n) 0x2803 (n + 1) s ∧ tok.length = 144 ∧ lget 0 tok 0 = 1))
  && (let n : Nat := 0; let tok : List Byte := (2 : Byte) :: 0 :: 16 :: List.replicate 141 0; let s : State := (up.setCtx 0 { up.ctx 0 with frz := [(16, { code := 1, st := 1, comb := 0, master := some (.host 1024) })], tkey := [4], chal := some (List.replicate 32 0) }); decide (isCtx n = true ∧ domWritable (.tenant n) 0x2803 (n + 1) s ∧ tok.length = 144 ∧ lget 0 tok 0 = 2))
  && (let n : Nat := 0; let tok : List Byte := (3 : Byte) :: 0 :: 16 :: List.replicate 141 0; let s : State := (up.setCtx 0 { up.ctx 0 with frz := [(16, { code := 1, st := 1, comb := 0, master := some (.host 1024) })], tkey := [4], chal := some (List.replicate 32 0) }); decide (isCtx n = true ∧ domWritable (.tenant n) 0x2803 (n + 1) s ∧ tok.length = 144 ∧ lget 0 tok 0 = 3))
  && (let n : Nat := 0; let tok : List Byte := (4 : Byte) :: 0 :: 16 :: List.replicate 141 0; let s : State := (up.setCtx 0 { up.ctx 0 with frz := [(16, { code := 1, st := 1, comb := 0, master := some (.host 1024) })], tkey := [4], chal := some (List.replicate 32 0) }); decide (isCtx n = true ∧ domWritable (.tenant n) 0x2803 (n + 1) s ∧ tok.length = 144 ∧ lget 0 tok 0 = 4))
  && (let n : Nat := 0; let tok : List Byte := (5 : Byte) :: 0 :: 16 :: List.replicate 141 0; let s : State := (up.setCtx 0 { up.ctx 0 with frz := [(16, { code := 1, st := 1, comb := 0, master := some (.host 1024) })], tkey := [4], chal := some (List.replicate 32 0) }); decide (isCtx n = true ∧ domWritable (.tenant n) 0x2803 (n + 1) s ∧ tok.length = 144 ∧ lget 0 tok 0 = 5))
  && (let n : Nat := 0; let tok : List Byte := (0 : Byte) :: 0 :: 16 :: List.replicate 141 0; let s : State := (up.setCtx 0 { up.ctx 0 with frz := [(16, { code := 1, st := 2, master := some (.worker 0 0 0) })] }).setObj 0 0x2806 1 0xF; let p := Path.tenant n; let x := s.ctx n; let v := s.obj 0 0x2806 (n + 1) 0; let z := tget {} x.frz (v % 16 + 1); let c := 0; let k := 0; let sl := 0; decide (isCtx n = true ∧ domWritable (.tenant n) 0x2803 (n + 1) s ∧ tok.length = 144 ∧ readable p 0x2807 (n + 1) s ∧ z.st = 2 ∧ z.master = some (.worker c k sl)))
  && (let n : Nat := 0; let tok : List Byte := (0 : Byte) :: 0 :: 16 :: List.replicate 141 0; let s : State := (up.setCtx 0 { up.ctx 0 with frz := [(16, { code := 1, st := 1, comb := 0, master := some (.host 1024) })] }).setObj 0 0x2806 1 0xF; let p := Path.tenant n; let x := s.ctx n; let v := s.obj 0 0x2806 (n + 1) 0; let z := tget {} x.frz (v % 16 + 1); decide (isCtx n = true ∧ domWritable (.tenant n) 0x2803 (n + 1) s ∧ tok.length = 144 ∧ readable p 0x2807 (n + 1) s ∧ z.st ≠ 2))) = true := by decide +kernel

theorem witness_DebugGrants : (
  let p : Path := .mgmt
  let s : State := up
  decide (isPath p = true)
  && (decide (readable p 0x2840 1 s))
  && (decide (domWritable p 0x2840 2 s ∧ s.grant = none ∧ s.dbgEnding = false))
  && (let s : State := { up with dbgEnding := true }; decide (domWritable p 0x2840 2 s ∧ s.dbgEnding = true))
  && (let s : State := { up with grant := some (⟨0, 5, true⟩ : Grant) }; let q := (⟨0, 5, true⟩ : Grant); decide (s.grant = some q ∧ q.pending = true))
  && (let s : State := { up with grant := some (⟨0, 5, false⟩ : Grant) }; let q := (⟨0, 5, false⟩ : Grant); decide (s.grant = some q))
  && (let s : State := { up with grant := some (⟨0, 5, false⟩ : Grant) }; let q := (⟨0, 5, false⟩ : Grant); let v := 0#64; decide (s.grant = some q ∧ writable p 0x2840 3 v s))
  && (let s : State := { up with dbgEnding := true }; decide (s.dbgEnding = true))
  && (decide (s.grant = none))) = true := by decide +kernel

theorem witness_EpochsCommitAndFail : (
  (let n : Nat := 0; let s : State := (up.setCtx 0 { up.ctx 0 with fences := [(⟨1#64, 0, 7, false⟩ : Fence)] }); let x := s.ctx n; let f : Fence := (⟨1#64, 0, 7, false⟩ : Fence); let l : List Fence := []; decide (isCtx n = true ∧ x.fences = f :: l ∧ f.accepted = false ∧ x.cstat = 0 ∧ f.epoch = x.epOpen))
  && (let n : Nat := 0; let s : State := (up.setCtx 0 { up.ctx 0 with fences := [(⟨2#64, 0, 7, false⟩ : Fence)] }); let x := s.ctx n; let f : Fence := (⟨2#64, 0, 7, false⟩ : Fence); let l : List Fence := []; decide (isCtx n = true ∧ x.fences = f :: l ∧ f.accepted = false ∧ x.cstat = 0 ∧ f.epoch ≠ x.epOpen))
  && (let n : Nat := 0; let s : State := (up.setCtx 0 { up.ctx 0 with fences := [(⟨1#64, 0, 7, false⟩ : Fence)], cstat := 0x4302#32 }); let x := s.ctx n; let f : Fence := (⟨1#64, 0, 7, false⟩ : Fence); let l : List Fence := []; decide (isCtx n = true ∧ x.fences = f :: l ∧ f.accepted = false ∧ x.cstat ≠ 0))
  && (let n : Nat := 0; let s : State := (up.setCtx 0 { up.ctx 0 with fences := [(⟨1#64, 0, 7, true⟩ : Fence)] }); let x := s.ctx n; let f : Fence := (⟨1#64, 0, 7, true⟩ : Fence); let l : List Fence := []; decide (isCtx n = true ∧ x.fences = f :: l ∧ f.accepted = true ∧ tget 0 x.outst (b2n (f.epoch.getLsbD 0)) = 0 ∧ tget 0 x.failed f.epoch.toNat = 0))
  && (let n : Nat := 0; let s : State := (up.setCtx 0 { up.ctx 0 with fences := [(⟨1#64, 0, 7, true⟩ : Fence)], outst := [(1, 1)] }); let x := s.ctx n; let f : Fence := (⟨1#64, 0, 7, true⟩ : Fence); let l : List Fence := []; decide (isCtx n = true ∧ x.fences = f :: l ∧ tget 0 x.outst (b2n (f.epoch.getLsbD 0)) ≠ 0))
  && (let n : Nat := 0; let s : State := (up.setCtx 0 { up.ctx 0 with fences := [(⟨1#64, 0, 7, true⟩ : Fence)], failed := [(1, 0x3002#16)] }); let x := s.ctx n; let f : Fence := (⟨1#64, 0, 7, true⟩ : Fence); let l : List Fence := []; let code : W16 := 0x3002#16; decide (isCtx n = true ∧ x.fences = f :: l ∧ f.accepted = true ∧ code ≠ 0 ∧ tget 0 x.failed f.epoch.toNat = code))
  && (let n : Nat := 0; let s : State := up; let x := s.ctx n; decide (isCtx n = true ∧ x.fences = []))
  && (let n : Nat := 0; let s : State := up; let x := s.ctx n; decide (isCtx n = true ∧ x.fences = []))
  && (let n : Nat := 0; let s : State := (up.setCtx 0 { up.ctx 0 with st := 2, cstat := 5#32, epOpen := 9 }); let x := s.ctx n; let p : Path := .mgmt; let v : W64 := 1#64; decide (isCtx n = true ∧ isPath p = true ∧ writable p 0x2720 (n + 1) v s ∧ x.st ≠ 0 ∧ v = x.epDone + 1 ∧ s.anyRunning n = false))
  && (let n : Nat := 0; let s : State := up; let x := s.ctx n; let p : Path := .mgmt; let v : W64 := 2#64; decide (isCtx n = true ∧ isPath p = true ∧ writable p 0x2720 (n + 1) v s ∧ x.st ≠ 0 ∧ v ≠ x.epDone + 1))
  && (let n : Nat := 0; let s : State := cellAt 0 {} {} up; let x := s.ctx n; let p : Path := .mgmt; let v : W64 := 1#64; decide (isCtx n = true ∧ isPath p = true ∧ writable p 0x2720 (n + 1) v s ∧ x.st ≠ 0 ∧ v = x.epDone + 1 ∧ s.anyRunning n = true))) = true := by decide +kernel

theorem witness_MessagesAndAddsLand : (
  (let c : Nat := 0; let s : State := base.setComb 0 { base.comb 0 with landing := [⟨2, {}, false⟩, ⟨3, { ptype := 5, payload := leBytes 8 (638 * 2^28 + 0xABCD * 2^12) ++ [1, 2, 3, 4] }, false⟩] }; let m := s.comb c; let k := 3; let i := 1; let l := (⟨3, { ptype := 5, payload := leBytes 8 (638 * 2^28 + 0xABCD * 2^12) ++ [1, 2, 3, 4] }, false⟩ : Land); decide (isComb c = true ∧ s.dead c = false ∧ k < 4 ∧ s.landNext c k m.landing 0 = some (i, l, false) ∧ l.loc = false ∧ l.pkt.msgKind = 0 ∧ fld l.pkt.msgHead 28 10 ≤ 639 ∧ isStore (fld l.pkt.msgHead 28 10) = false))
  && (let c : Nat := 0; let s : State := ({ base with ctxs := [(0, { st := 3, wM1 := 1 })] } : State).setComb 0 { landing := [⟨3, { ptype := 5, payload := leBytes 8 (638 * 2^28 + 0xABCD * 2^12) ++ [1, 2, 3, 4] }, false⟩], saved := [(0, some { workers := [(638, { wq := List.replicate 32 ⟨0, [], 0⟩ })] })] }; let m := s.comb c; let k := 3; let i := 0; let l := (⟨3, { ptype := 5, payload := leBytes 8 (638 * 2^28 + 0xABCD * 2^12) ++ [1, 2, 3, 4] }, false⟩ : Land); decide (isComb c = true ∧ s.dead c = false ∧ k < 4 ∧ s.landNext c k m.landing 0 = some (i, l, true)))
  && (let c : Nat := 0; let s : State := base; let m := s.comb c; let k := 0; decide (isComb c = true ∧ s.dead c = false ∧ k < 4 ∧ s.landNext c k m.landing 0 = none))
  && (let c : Nat := 0; let s : State := base.setComb 0 { base.comb 0 with live := { spill := [{ ptype := 5, payload := leBytes 8 (638 * 2^28 + 0xABCD * 2^12) ++ [1, 2, 3, 4] }, {}] } }; let p := ({ ptype := 5, payload := leBytes 8 (638 * 2^28 + 0xABCD * 2^12) ++ [1, 2, 3, 4] } : Pkt); let l := ([{}] : List Pkt); decide (isComb c = true ∧ s.dead c = false ∧ s.settled c = true ∧ (s.area c).spill = p :: l ∧ s.turn c p = true ∧ (s.area c).credit p = true))
  && (let c : Nat := 0; let s : State := base; decide (isComb c = true ∧ s.dead c = false ∧ (s.area c).spill = []))
  && (let c : Nat := 0; let s : State := base.setComb 0 { base.comb 0 with ctrOps := [({ ctx := 0, ix := 4095, amt := 5 } : CtrOp)], live := { ctr := [(4095, 0xFFFFFFFFFFFFFFFA#64)] } }; let m := s.comb c; let o := ({ ctx := 0, ix := 4095, amt := 5 } : CtrOp); let l := []; let v := (tget 0 (s.area c).ctr o.ix).toNat; decide (isComb c = true ∧ s.dead c = false ∧ m.ctrOps = o :: l ∧ (16 ≤ o.ctx ∨ (s.ctx o.ctx).resident = true) ∧ v + o.amt < 2 ^ 64))
  && (let c : Nat := 0; let s : State := base.setComb 0 { base.comb 0 with ctrOps := [({ ctx := 0, ix := 4095, amt := 5 } : CtrOp)], live := { ctr := [(4095, 0xFFFFFFFFFFFFFFFB#64)] } }; let m := s.comb c; let o := ({ ctx := 0, ix := 4095, amt := 5 } : CtrOp); let l := []; let v := (tget 0 (s.area c).ctr o.ix).toNat; decide (isComb c = true ∧ s.dead c = false ∧ m.ctrOps = o :: l ∧ (16 ≤ o.ctx ∨ (s.ctx o.ctx).resident = true) ∧ 2 ^ 64 ≤ v + o.amt))
  && (let c : Nat := 0; let s : State := ({ base with ctxs := [(0, { st := 3, wM1 := 1 })] } : State).setComb 0 { ctrOps := [({ ctx := 0, ix := 4095, amt := 5 } : CtrOp)] }; let m := s.comb c; let o := ({ ctx := 0, ix := 4095, amt := 5 } : CtrOp); let l := []; decide (isComb c = true ∧ s.dead c = false ∧ m.ctrOps = o :: l ∧ o.ctx < 16 ∧ (s.ctx o.ctx).resident = false ∧ (s.ctx o.ctx).moving = 0))
  && (let c : Nat := 0; let s : State := base; let m := s.comb c; decide (isComb c = true ∧ s.dead c = false ∧ m.ctrOps = []))) = true := by decide +kernel

theorem witness_WatchesWake : (
  (let c : Nat := 0; let s : State := base.setComb 0 { base.comb 0 with landing := [⟨0, { ptype := 7, off := 8, clNext := 1, clWords := 2, clitics := [[16, 5]] }, false⟩] }; let m := s.comb c; let registers (l : Land) : Bool := l.pkt.ptype = 7 && (s.turn c l.pkt) && (s.ctx l.pkt.ctx).moving = 0 && decide ((m.watches.filter (fun w => w.ctx = l.pkt.ctx)).length < 64); let i := 0; let l := (⟨0, { ptype := 7, off := 8, clNext := 1, clWords := 2, clitics := [[16, 5]] }, false⟩ : Land); decide (isComb c = true ∧ s.dead c = false ∧ m.landing[i]? = some l ∧ registers l = true ∧ ((m.landing.take i).all (fun e => !registers e)) = true))
  && (let c : Nat := 0; let s : State := base.setComb 0 { base.comb 0 with watches := [({ ctx := 0, ctr := 1, val := 5, pkt := { ptype := 7, reqId := 9, src := 17 } } : Watch)], live := { ctr := [(1, 5#64)] } }; let m := s.comb c; let k := 0; let w := ({ ctx := 0, ctr := 1, val := 5, pkt := { ptype := 7, reqId := 9, src := 17 } } : Watch); decide (isComb c = true ∧ m.watches[k]? = some w ∧ w.sent = false ∧ w.woken = none ∧ w.val.toNat ≤ (s.areaOf w.ctx c).counter w.ctr))
  && (let c : Nat := 0; let s : State := base.setComb 0 { base.comb 0 with watches := [({ ctx := 0, ctr := 1, val := 5, pkt := { ptype := 7, reqId := 9, src := 17 } } : Watch)], live := { ctr := [(1, 4#64)] } }; let m := s.comb c; let k := 0; let w := ({ ctx := 0, ctr := 1, val := 5, pkt := { ptype := 7, reqId := 9, src := 17 } } : Watch); decide (isComb c = true ∧ m.watches[k]? = some w ∧ w.sent = false ∧ w.woken = none ∧ (s.areaOf w.ctx c).counter w.ctr < w.val.toNat))
  && (let c : Nat := 0; let s : State := base.setComb 0 { base.comb 0 with watches := [({ ctx := 0, ctr := 1, val := 5, pkt := { ptype := 7, reqId := 9, src := 17 }, woken := some 0x4402#16 } : Watch)] }; let m := s.comb c; let k := 0; let w := ({ ctx := 0, ctr := 1, val := 5, pkt := { ptype := 7, reqId := 9, src := 17 }, woken := some 0x4402#16 } : Watch); let st := 0x4402#16; decide (isComb c = true ∧ m.watches[k]? = some w ∧ w.sent = false ∧ w.woken = some st))
  && (let c : Nat := 0; let s : State := base.setComb 0 { base.comb 0 with watches := [({ ctx := 0, ctr := 1, val := 5, pkt := { ptype := 7, reqId := 9, src := 17 }, woken := some 0, sent := true } : Watch)] }; let m := s.comb c; let k := 0; let w := ({ ctx := 0, ctr := 1, val := 5, pkt := { ptype := 7, reqId := 9, src := 17 }, woken := some 0, sent := true } : Watch); let st := 0#16; decide (isComb c = true ∧ m.watches[k]? = some w ∧ w.sent = true ∧ w.woken = some st))
  && (let c : Nat := 0; let s : State := base.setComb 0 { base.comb 0 with watches := [({ ctx := 0, ctr := 1, val := 5, pkt := { ptype := 7, reqId := 9, src := 17 }, woken := some 0, sent := true } : Watch)], landing := [⟨0, {}, false⟩, ⟨0, { ptype := 9, src := 17, reqId := 9 }, false⟩] }; let m := s.comb c; let k := 0; let w := ({ ctx := 0, ctr := 1, val := 5, pkt := { ptype := 7, reqId := 9, src := 17 }, woken := some 0, sent := true } : Watch); let i := 1; let l := (⟨0, { ptype := 9, src := 17, reqId := 9 }, false⟩ : Land); decide (isComb c = true ∧ m.watches[k]? = some w ∧ w.sent = true ∧ m.landing[i]? = some l ∧ l.pkt.ptype = 9 ∧ l.pkt.src = w.pkt.src ∧ l.pkt.reqId = w.pkt.reqId ∧ (m.landing.take i).all (fun e => e.pkt.ptype != 9) = true))
  && (let c : Nat := 0; let s : State := ({ base with net := [⟨({ ptype := 0x14, dst := 1023, master := 8192 + 64, reqId := 9, src := 17, status := 0x4402, e2e := ({ ptype := 0x14, dst := 1023, master := 8192 + 64, reqId := 9, src := 17, status := 0x4402 } : Pkt).crc } : Pkt), .arrived, none⟩] }).setRing 64 { cmds := [{ words := [1], watch := some 9, outst := [9] }] }; let i := 0; let p := ({ ptype := 0x14, dst := 1023, master := 8192 + 64, reqId := 9, src := 17, status := 0x4402, e2e := ({ ptype := 0x14, dst := 1023, master := 8192 + 64, reqId := 9, src := 17, status := 0x4402 } : Pkt).crc } : Pkt); let f := 64; decide (isComb c = true ∧ s.replyAt i 0x14 = some p ∧ p.crc = p.e2e ∧ masterOf p.dstComb p.master = .host f))
  && (let c : Nat := 0; let s : State := base; let i := 0; decide (isComb c = true ∧ s.replyAt i 0x14 = none))) = true := by decide +kernel

theorem witness_OperationUnit : (
  (let c : Nat := 0; let s : State := base.setArea 0 { ops := [{ kind := .fill 0x2FFFFFC 4 0x44332211#32 }], mem := { bytes := cellsWrite [] 0x2FFFFF0 (List.replicate 16 9) } }; let a := s.area c; let o := ({ kind := .fill 0x2FFFFFC 4 0x44332211#32 } : Op); let l := []; let d := 0x2FFFFFC; let n := 4; let pat := 0x44332211#32; let k := 0; decide (isComb c = true ∧ s.settled c = true ∧ s.dead c = false ∧ a.ops = o :: l ∧ o.fin = false ∧ o.kind = .fill d n pat ∧ o.ctx = k ∧ k < 16 ∧ s.residentAt c = some k ∧ (s.ctx k).resident = true ∧ opForm d d n = true ∧ a.mem.poison = [] ∧ a.mem.ecc = [] ∧ a.eng.runs = []))
  && (let c : Nat := 0; let s : State := base.setArea 0 { ops := [{ kind := .fill 0x2FFFFFC 8 0x44332211#32 }] }; let a := s.area c; let o := ({ kind := .fill 0x2FFFFFC 8 0x44332211#32 } : Op); let l := []; let d := 0x2FFFFFC; let n := 8; let pat := 0x44332211#32; decide (isComb c = true ∧ s.settled c = true ∧ s.dead c = false ∧ a.ops = o :: l ∧ o.fin = false ∧ o.kind = .fill d n pat ∧ opForm d d n = false))
  && (let c : Nat := 0; let s : State := base.setArea 0 { ops := [{ kind := .copy 0 0x80 0x44 }], mem := { bytes := cellsWrite [] 0 [1,2,3,4,5] } }; let a := s.area c; let o := ({ kind := .copy 0 0x80 0x44 } : Op); let l := []; let x := 0; let d := 0x80; let n := 0x44; let k := some 0; let t := (s.opCopy k c x d n).1; let st := (s.opCopy k c x d n).2; decide (isComb c = true ∧ s.settled c = true ∧ s.dead c = false ∧ a.ops = o :: l ∧ o.fin = false ∧ o.kind = .copy x d n ∧ (if o.ctx < 16 then some o.ctx else none) = k ∧ s.opCopy k c x d n = (t, st)))
  && (let c : Nat := 0; let s : State := base.setArea 0 { ops := [{ kind := .copy 0 0x80 2 }] }; let a := s.area c; let o := ({ kind := .copy 0 0x80 2 } : Op); let l := []; let x := 0; let d := 0x80; let n := 2; decide (isComb c = true ∧ s.settled c = true ∧ s.dead c = false ∧ a.ops = o :: l ∧ o.fin = false ∧ o.kind = .copy x d n ∧ opForm x d n = false))
  && (let c : Nat := 0; let s : State := base.setArea 0 { ops := [{ kind := .copy 0 0x40 0x44 }] }; let a := s.area c; let o := ({ kind := .copy 0 0x40 0x44 } : Op); let l := []; let x := 0; let d := 0x40; let n := 0x44; decide (isComb c = true ∧ s.settled c = true ∧ s.dead c = false ∧ a.ops = o :: l ∧ o.fin = false ∧ o.kind = .copy x d n ∧ opForm x d n = true ∧ x < d + n ∧ d < x + n))
  && (let c : Nat := 0; let s : State := base.setArea 0 { ops := [{ kind := .reduce { ptype := 2, off := 0x40, payload := [0, 0, 0x80, 0x3F] } }], mem := { bytes := cellsWrite [] 0x40 [0, 0, 0x80, 0x3F] } }; let a := s.area c; let o := ({ kind := .reduce { ptype := 2, off := 0x40, payload := [0, 0, 0x80, 0x3F] } } : Op); let l := []; let p := ({ ptype := 2, off := 0x40, payload := [0, 0, 0x80, 0x3F] } : Pkt); let adr := 0x40; let bs := [0, 0, 0x80, 0x3F]; let t := (s.reduceLine (if o.ctx < 16 then some o.ctx else none) c (p.ptype = 2) p.epochLo adr bs).1; decide (isComb c = true ∧ s.settled c = true ∧ s.dead c = false ∧ a.ops = o :: l ∧ o.fin = false ∧ o.kind = .reduce p ∧ (lineParts p.off p.payload)[o.pos]? = some (adr, bs) ∧ s.reduceLine (if o.ctx < 16 then some o.ctx else none) c (p.ptype = 2) p.epochLo adr bs = (t, none)))
  && (let c : Nat := 0; let s : State := base.setArea 0 { ops := [{ kind := .fill 0 4 0x44332211#32, fin := true }] }; let a := s.area c; let o := ({ kind := .fill 0 4 0x44332211#32, fin := true } : Op); let l := []; let d := 0; let n := 4; let pat := 0x44332211#32; decide (isComb c = true ∧ s.settled c = true ∧ a.ops = o :: l ∧ o.fin = true ∧ o.kind = .fill d n pat ∧ o.who = none))
  && (let c : Nat := 0; let s : State := base.setArea 0 { ops := [{ kind := .fill 0 4 0x44332211#32, fin := true, who := some (3, 63) }], fg := [(3, { slots := [(63, {})] })] }; let a := s.area c; let o := ({ kind := .fill 0 4 0x44332211#32, fin := true, who := some (3, 63) } : Op); let l := []; let d := 0; let n := 4; let pat := 0x44332211#32; let f := 3; let k := 63; decide (isComb c = true ∧ s.settled c = true ∧ a.ops = o :: l ∧ o.fin = true ∧ o.fault = 0 ∧ o.kind = .fill d n pat ∧ o.who = some (f, k) ∧ ((a.forager f).slots.find? (fun e => e.1 = k)).isSome = true))
  && (let c : Nat := 0; let s : State := base; let a := s.area c; decide (isComb c = true ∧ s.settled c = true ∧ a.ops = []))
  && (let c : Nat := 0; let s : State := base.setArea 0 { mem := { ecc := [(0x5FFFFF, 1)] } }; let a := s.area c; let w := 0x5FFFFF; decide (isComb c = true ∧ s.settled c = true ∧ w < 0x600000 ∧ tget 0 a.mem.ecc w = 1))
  && (let c : Nat := 0; let s : State := base; let a := s.area c; let w := 0x5FFFFF; decide (isComb c = true ∧ s.settled c = true ∧ w < 0x600000 ∧ tget 0 a.mem.ecc w ≠ 1))) = true := by decide +kernel

theorem witness_OwnerChangeWindowsDigests : (
  (let c : Nat := 0; let s : State := ({} : State); decide (isComb c = true ∧ s.residentAt c = none ∧ s.ownedByAny c = false))
  && (let c : Nat := 0; let n : Nat := 0; let s : State := up; decide (isComb c = true ∧ s.residentAt c = some n ∧ (s.ctx n).st = 3))
  && (let p : Path := .tenant 0; let n : Nat := 7; let v : W64 := 2152727552#64; let s : State := up.setCtx 0 { up.ctx 0 with resident := false }; let i := s.instOf p 0x2710 (n + 1); decide (isPath p = true ∧ n < 8 ∧ writable p 0x2710 (n + 1) v s ∧ dwOk v.toNat = true ∧ (∀ k ∈ List.range 8, k ≠ n → dwMeet v.toNat (s.obj i 0x2710 (k + 1) 0) = false) ∧ (s.ctx (i - 1)).resident = false))
  && (let p : Path := .tenant 0; let n : Nat := 7; let v : W64 := 2152727552#64; let s : State := up; let i := s.instOf p 0x2710 (n + 1); decide (isPath p = true ∧ n < 8 ∧ writable p 0x2710 (n + 1) v s ∧ dwOk v.toNat = true ∧ (∀ k ∈ List.range 8, k ≠ n → dwMeet v.toNat (s.obj i 0x2710 (k + 1) 0) = false) ∧ (s.ctx (i - 1)).resident = true))
  && (let p : Path := .tenant 0; let n : Nat := 7; let v : W64 := 2152726528#64; let s : State := up; decide (isPath p = true ∧ n < 8 ∧ writable p 0x2710 (n + 1) v s ∧ dwOk v.toNat = false))
  && (let p : Path := .tenant 0; let n : Nat := 7; let v : W64 := 2152727552#64; let s : State := up.setObj 1 0x2710 1 2152728576; let i := s.instOf p 0x2710 (n + 1); let k := 0; decide (isPath p = true ∧ n < 8 ∧ writable p 0x2710 (n + 1) v s ∧ k < 8 ∧ k ≠ n ∧ dwMeet v.toNat (s.obj i 0x2710 (k + 1) 0) = true))
  && (let c : Nat := 0; let s : State := base.setArea 0 { trailers := [{ ptype := 8, clNext := 2, clWords := 4, src := 5, clitics := [[48, 1, 0, 0]] }] }; let p : Pkt := ({ ptype := 8, clNext := 2, clWords := 4, src := 5, clitics := [[48, 1, 0, 0]] } : Pkt); let l : List Pkt := []; let a := s.area c; decide (isComb c = true ∧ s.settled c = true ∧ s.dead c = false ∧ (s.area c).trailers = p :: l ∧ a.claims.find? (claimOf p) = none))
  && (let c : Nat := 0; let s : State := base.setArea 0 { trailers := [{ ptype := 8, clNext := 2, clWords := 4, src := 5, clitics := [[48, 1, (4 : W64), crc64From 7 (digestTail 1 5 0x0)]] }], claims := [{ src := 5, master := 0, cls := 0, id := 0, stage := 0x0, red := 1, len := 4, crc := 7 }], mem := { bytes := cellsWrite [] 0 [0,0,0,0] } }; let p : Pkt := ({ ptype := 8, clNext := 2, clWords := 4, src := 5, clitics := [[48, 1, (4 : W64), crc64From 7 (digestTail 1 5 0x0)]] } : Pkt); let l : List Pkt := []; let a := s.area c; let k := ({ src := 5, master := 0, cls := 0, id := 0, stage := 0x0, red := 1, len := 4, crc := 7 } : Claim); let w : List W64 := [48, 1, 4, crc64From 7 (digestTail 1 5 0x0)]; let s0 := s.setArea c { a with trailers := l, claims := a.claims.filter (fun e => !(claimOf p e)) }; let n := s.residentAt c; let bs : List Byte := List.replicate 4 0; let t := (s0.performRead n c 0 (k.stage + 1024) k.len []).2; let t2 := (t.applyPayload n c k p bs).1; decide (isComb c = true ∧ s.settled c = true ∧ s.dead c = false ∧ (s.area c).trailers = p :: l ∧ a.claims.find? (claimOf p) = some k ∧ p.clitic 2 = some w ∧ crc64From k.crc (digestTail (lget 0 w 1) p.src (leNat (cellsRead a.mem.bytes k.stage 4))) = lget 0 w 3 ∧ k.len = (lget 0 w 2).toNat % 2 ^ 32 ∧ (match s0.performRead n c 0 (k.stage + 1024) k.len [] with | (.ok x_, _) => decide (x_ = bs) | _ => false) = true ∧ t.applyPayload n c k p bs = (t2, none)))
  && (let c : Nat := 0; let s : State := base.setArea 0 { trailers := [{ ptype := 8, clNext := 2, clWords := 4, src := 5, clitics := [[48, 1, (4 : W64), crc64From 7 (digestTail 1 5 0x0)]] }], claims := [{ src := 5, master := 0, cls := 0, id := 0, stage := 0x0, red := 1, len := 4, crc := 7 }], mem := { bytes := cellsWrite [] 0 [0,0,0,0], poison := [(16, 0x7001#16)] } }; let p : Pkt := ({ ptype := 8, clNext := 2, clWords := 4, src := 5, clitics := [[48, 1, (4 : W64), crc64From 7 (digestTail 1 5 0x0)]] } : Pkt); let l : List Pkt := []; let a := s.area c; let k := ({ src := 5, master := 0, cls := 0, id := 0, stage := 0x0, red := 1, len := 4, crc := 7 } : Claim); let w : List W64 := [48, 1, 4, crc64From 7 (digestTail 1 5 0x0)]; let s0 := s.setArea c { a with trailers := l, claims := a.claims.filter (fun e => !(claimOf p e)) }; let n := s.residentAt c; let code : W16 := 0x7001#16; decide (isComb c = true ∧ s.settled c = true ∧ s.dead c = false ∧ (s.area c).trailers = p :: l ∧ a.claims.find? (claimOf p) = some k ∧ p.clitic 2 = some w ∧ crc64From k.crc (digestTail (lget 0 w 1) p.src (leNat (cellsRead a.mem.bytes k.stage 4))) = lget 0 w 3 ∧ k.len = (lget 0 w 2).toNat % 2 ^ 32 ∧ (match s0.performRead n c 0 (k.stage + 1024) k.len [] with | (.error x_, _) => decide (x_ = code) | _ => false) = true))
  && (let c : Nat := 0; let s : State := up; decide (isComb c = true ∧ (s.area c).trailers = []))) = true := by decide +kernel

theorem witness_MemoryWaferCommands : (
  let c : Nat := 0
  let s : State := up
  let m := s.comb c
  decide (isComb c = true)
  && (let s : State := up.setComb 0 { mw := { scrub := [(15, 5242879)] } }; let m := s.comb c; let ch := 15; let r := 16; decide (ch < 16 ∧ m.lost = false ∧ r ≤ 16 ∧ (r < 16 → (s.ctx r).unitsNow ≤ 125) ∧ (r < 16 → (s.ctx r).unitsNow ≤ 125) ∧ s.floorLevel = false ∧ s.power.memThr = false))
  && (let s : State := up.setComb 0 { lost := true }; let m := s.comb c; let ch := 15; decide (ch < 16 ∧ m.lost = true))
  && (let p := .mgmt; let n := 0; let v := 2152726653#64; let b := 0; decide (isPath p = true ∧ isCtx n = true ∧ writable p 0x2610 (n + 1) v s ∧ (s.ctx n).st ≠ 0 ∧ (s.ctx n).st ≠ 5 ∧ (match s.admitRes n (resUnits v.toNat) (resSize v.toNat) with | .ok x_ => decide (x_ = b) | _ => false) = true))
  && (let s : State := (up.setObj 0 0x2610 2 2147549185).setCtx 1 { st := 2, wM1 := 0 }; let p := .mgmt; let n := 0; let v := 2152726653#64; let d := 0; decide (isPath p = true ∧ isCtx n = true ∧ writable p 0x2610 (n + 1) v s ∧ (s.ctx n).st ≠ 0 ∧ (s.ctx n).st ≠ 5 ∧ (match s.admitRes n (resUnits v.toNat) (resSize v.toNat) with | .error x_ => decide (x_ = d) | _ => false) = true))
  && (let n := 15; decide (isCtx n = true))
  && (let s : State := ({ up with maint := [{ ticket := 1, cls := 5, deferred := false, scope := 0, ctx := some 0 }] }).setObj 0 0x2610 1 2147549185; let n := 0; let e := ({ ticket := 1, cls := 5, deferred := false, scope := 0, ctx := some 0 } : Maint); decide (isCtx n = true ∧ s.maint.find? (fun e => e.cls = 5 && e.ctx = some n) = some e ∧ e.deferred = false ∧ bit (s.res n) 31 = true))
  && (let s : State := up.setComb 0 { mw := { spareRows := [(511, 15)] } }; let m := s.comb c; let ch := 15; let bank := 31; let row := 5119; decide (ch < 16 ∧ bank < 32 ∧ row < 5120 ∧ tget 0 m.mw.spareRows (ch * 32 + bank) < 16))
  && (let s : State := up.setComb 0 { mw := { spareRows := [(511, 16)] } }; let m := s.comb c; let ch := 15; let bank := 31; let row := 5119; decide (ch < 16 ∧ bank < 32 ∧ row < 5120 ∧ 16 ≤ tget 0 m.mw.spareRows (ch * 32 + bank)))
  && (let s : State := up.setComb 0 { mw := { laneSpare := [(15, [3])] } }; let m := s.comb c; let ch := 15; let lane := 145; decide (ch < 16 ∧ lane < 146 ∧ (tget [] m.mw.laneSpare ch).contains lane = false ∧ (tget [] m.mw.laneSpare ch).length < 2))
  && (let s : State := up.setObj 0 0x2610 1 2152726529; let line := 0x4FFFFFF; let n := 0; decide (line < 0x5000000 ∧ s.holder c (line / 0x100000) = some n ∧ n < 16 ∧ (s.ctx n).st = 3))
  && (let s : State := (up.setCtx 0 { up.ctx 0 with st := 5, refuse := true }); let n := 0; decide (isCtx n = true ∧ (s.ctx n).st = 5))
  && (let n := 15; decide (isCtx n = true ∧ (s.ctx n).st ≠ 5))) = true := by decide +kernel

theorem witness_ForagerRingsTakesStarts : (
  let c : Nat := 0
  let f : Nat := 3
  let s : State := up
  let fg := s.forager c f
  decide (isComb c = true ∧ f < 4)
  && (let p : Path := .mgmt; let v : W64 := 0x800FFF0C02FC0000#64; let i := s.instOf p 0x2730 (f + 1); let r := fgRing v.toNat; decide (isPath p = true ∧ writable p 0x2730 (f + 1) v s ∧ fld v.toNat 26 6 = 0 ∧ fld v.toNat 36 4 = 0 ∧ fld v.toNat 52 11 = 0 ∧ r.1 % 64 = 0 ∧ r.2.2.2 = true ∧ 1 ≤ r.2.1 ∧ r.2.1 ≤ 12 ∧ r.1 + 64 * 2 ^ r.2.1 ≤ 0x3000000 ∧ bit (s.obj i 0x2730 (f + 1) 0) 63 = false))
  && (let p : Path := .mgmt; let v : W64 := 0x8000000100000020#64; let r := fgRing v.toNat; decide (isPath p = true ∧ writable p 0x2730 (f + 1) v s ∧ (fld v.toNat 26 6 ≠ 0 ∨ r.1 % 64 ≠ 0 ∨ (r.2.2.2 = true ∧ r.2.1 = 0))))
  && (let s : State := (up.setForager 0 3 { slots := [(0, {})] }).setObj 1 0x2730 4 (2^63); let p : Path := .mgmt; let v : W64 := 0#64; let i := s.instOf p 0x2730 (f + 1); decide (isPath p = true ∧ writable p 0x2730 (f + 1) v s ∧ v = 0 ∧ bit (s.obj i 0x2730 (f + 1) 0) 63 = true ∧ (s.ctx (i - 1)).combs.any (fun c => !((s.areaOf (i - 1) c).forager f).slots.isEmpty) = true))
  && (let s : State := up.setObj 1 0x2730 4 0x8000070C00000000; let fg := s.forager c f; let n := 0; let r := fgRing (s.fgRingOf n f); let ctr := (s.area c).counter r.2.2.1; let h := fg.taken.toNat; decide (s.fgOn c f = true ∧ s.residentAt c = some n ∧ r.2.2.2 = true ∧ fg.stuck = false ∧ ctr ≤ h))
  && (let s : State := (up.setObj 1 0x2730 4 0x8000070C00000000).setArea 0 { ctr := [(7, 4097#64)] }; let fg := s.forager c f; let n := 0; let r := fgRing (s.fgRingOf n f); let ctr := (s.area c).counter r.2.2.1; let h := fg.taken.toNat; decide (s.fgOn c f = true ∧ s.residentAt c = some n ∧ r.2.2.2 = true ∧ fg.stuck = false ∧ h < ctr ∧ 2 ^ r.2.1 < ctr - h))
  && (let s : State := (up.setObj 1 0x2730 4 0x8000070C00000000).setArea 0 { ctr := [(7, 4096#64)], mem := { bytes := cellsWrite [] 0 [9] } }; let fg := s.forager c f; let n := 0; let r := fgRing (s.fgRingOf n f); let ctr := (s.area c).counter r.2.2.1; let h := fg.taken.toNat; let bs := 9 :: List.replicate 63 0; decide (s.fgOn c f = true ∧ s.residentAt c = some n ∧ r.2.2.2 = true ∧ fg.stuck = false ∧ h < ctr ∧ ctr - h ≤ 2 ^ r.2.1 ∧ fg.slots = [] ∧ (match s.performRead (some n) c 0 (r.1 + 64 * (h % 2 ^ r.2.1)) 64 [] with | (.ok x_, _) => decide (x_ = bs) | _ => false) = true))
  && (let s : State := up.setForager 0 3 { slots := [(63, ({ desc := [0x0#32, 0x0#32, 0x0#32, 0x0#32, 0x0#32, 0x0#32, 0x0#32, 0x0#32, 0x0#32, 0x0#32, 0x0#32, 0x0#32, 0x0#32, 0x0#32, 0x0#32, 0x0#32] } : FgCmd))] }; let fg := s.forager c f; let k := 63; let m : FgCmd := ({ desc := [0x0#32, 0x0#32, 0x0#32, 0x0#32, 0x0#32, 0x0#32, 0x0#32, 0x0#32, 0x0#32, 0x0#32, 0x0#32, 0x0#32, 0x0#32, 0x0#32, 0x0#32, 0x0#32] } : FgCmd); decide (k < 64 ∧ s.fgOn c f = true ∧ fg.slots.find? (fun e => e.1 = k) = some (k, m) ∧ m.fault = none ∧ m.phase = .waiting ∧ bit (fgV m) 10 = false ∧ bit (fgV m) 11 = false))
  && (let s : State := (up.setForager 0 3 { slots := [(63, ({ desc := [0x800#32, 0x0#32, 0x0#32, 0x0#32, 0x0#32, 0x0#32, 0x0#32, 0x0#32, 0x0#32, 0x0#32, 0x0#32, 0x0#32, 0x7000#32, 0x10000#32, 0x5#32, 0x0#32] } : FgCmd))] }) |> fun s => s.setArea 0 { s.area 0 with ctr := [(7, 5#64)] }; let fg := s.forager c f; let k := 63; let m : FgCmd := ({ desc := [0x800#32, 0x0#32, 0x0#32, 0x0#32, 0x0#32, 0x0#32, 0x0#32, 0x0#32, 0x0#32, 0x0#32, 0x0#32, 0x0#32, 0x7000#32, 0x10000#32, 0x5#32, 0x0#32] } : FgCmd); decide (k < 64 ∧ s.fgOn c f = true ∧ fg.slots.find? (fun e => e.1 = k) = some (k, m) ∧ m.fault = none ∧ m.phase = .waiting ∧ bit (fgV m) 10 = false ∧ bit (fgV m) 11 = true ∧ bit (fgV m) 432 = true ∧ fld (fgV m) 448 64 ≤ (s.area c).counter (fld (fgV m) 396 12)))
  && (let s : State := (up.setForager 0 3 { slots := [(63, ({ desc := [0x800#32, 0x0#32, 0x0#32, 0x0#32, 0x0#32, 0x0#32, 0x0#32, 0x0#32, 0x0#32, 0x0#32, 0x0#32, 0x0#32, 0x7000#32, 0x10000#32, 0x5#32, 0x0#32] } : FgCmd))] }) |> fun s => s.setArea 0 { s.area 0 with ctr := [(7, 4#64)] }; let fg := s.forager c f; let k := 63; let m : FgCmd := ({ desc := [0x800#32, 0x0#32, 0x0#32, 0x0#32, 0x0#32, 0x0#32, 0x0#32, 0x0#32, 0x0#32, 0x0#32, 0x0#32, 0x0#32, 0x7000#32, 0x10000#32, 0x5#32, 0x0#32] } : FgCmd); decide (k < 64 ∧ s.fgOn c f = true ∧ fg.slots.find? (fun e => e.1 = k) = some (k, m) ∧ m.fault = none ∧ m.phase = .waiting ∧ bit (fgV m) 10 = false ∧ bit (fgV m) 11 = true ∧ bit (fgV m) 432 = true ∧ (s.area c).counter (fld (fgV m) 396 12) < fld (fgV m) 448 64))
  && (let s : State := up.setForager 0 3 { slots := [(2, { seqNo := 4 }), (63, ({ desc := [0x400#32, 0x0#32, 0x0#32, 0x0#32, 0x0#32, 0x0#32, 0x0#32, 0x0#32, 0x0#32, 0x0#32, 0x0#32, 0x0#32, 0x0#32, 0x0#32, 0x0#32, 0x0#32], seqNo := 5 } : FgCmd))] }; let fg := s.forager c f; let k := 63; let m : FgCmd := ({ desc := [0x400#32, 0x0#32, 0x0#32, 0x0#32, 0x0#32, 0x0#32, 0x0#32, 0x0#32, 0x0#32, 0x0#32, 0x0#32, 0x0#32, 0x0#32, 0x0#32, 0x0#32, 0x0#32], seqNo := 5 } : FgCmd); decide (k < 64 ∧ s.fgOn c f = true ∧ fg.slots.find? (fun e => e.1 = k) = some (k, m) ∧ m.fault = none ∧ m.phase = .waiting ∧ bit (fgV m) 10 = true ∧ fg.slots.any (fun e => e.2.seqNo + 1 = m.seqNo) = true))
  && (let s : State := up.setForager 0 3 { frozen := true }; decide (s.fgOn c f = false))
  && (let s : State := up.setForager 0 3 { halted := true }; let k := 63; decide (s.fgOn c f = false ∧ k < 64))) = true := by decide +kernel

theorem witness_ForagerIssueAndCompletion : (
  (let c : Nat := 0; let f : Nat := 3; let k : Nat := 63; let m : FgCmd := ({ desc := [0x1#32, 0x0#32, 0x0#32, 0x80000000#32, 0x80#32, 0x80000800#32, 0x4#32, 0x0#32, 0x0#32, 0x0#32, 0x0#32, 0x0#32, 0x0#32, 0x0#32, 0x0#32, 0x0#32], phase := .started } : FgCmd); let s : State := up.setForager 0 3 { slots := [(63, ({ desc := [0x1#32, 0x0#32, 0x0#32, 0x80000000#32, 0x80#32, 0x80000800#32, 0x4#32, 0x0#32, 0x0#32, 0x0#32, 0x0#32, 0x0#32, 0x0#32, 0x0#32, 0x0#32, 0x0#32], phase := .started } : FgCmd))] }; let t : State := (s.fgNext c f k m).getD s; decide (isComb c = true ∧ f < 4 ∧ k < 64 ∧ s.fgOn c f = true ∧ (s.forager c f).slots = [(k, m)] ∧ s.fgNext c f k m = some t))
  && (let c : Nat := 0; let f : Nat := 3; let k : Nat := 63; let m : FgCmd := ({ desc := [0x0#32, 0x0#32, 0x0#32, 0x0#32, 0x0#32, 0x0#32, 0x0#32, 0x0#32, 0x0#32, 0x0#32, 0x0#32, 0x0#32, 0x0#32, 0x0#32, 0x0#32, 0x0#32], phase := .issued } : FgCmd); let s : State := up.setForager 0 3 { slots := [(63, ({ desc := [0x0#32, 0x0#32, 0x0#32, 0x0#32, 0x0#32, 0x0#32, 0x0#32, 0x0#32, 0x0#32, 0x0#32, 0x0#32, 0x0#32, 0x0#32, 0x0#32, 0x0#32, 0x0#32], phase := .issued } : FgCmd))] }; decide (isComb c = true ∧ f < 4 ∧ k < 64 ∧ s.fgOn c f = true ∧ (s.forager c f).slots = [(k, m)] ∧ s.fgNext c f k m = none))
  && (let c : Nat := 0; let f : Nat := 3; let k : Nat := 63; let m : FgCmd := ({ desc := [0x120#32, 0xFFFF0000#32, 0x0#32, 0x0#32, 0x0#32, 0x80000800#32, 0x0#32, 0x0#32, 0x0#32, 0x0#32, 0x0#32, 0x0#32, 0x7#32, 0x0#32, 0x0#32, 0x0#32], phase := .started } : FgCmd); let s : State := up.setForager 0 3 { slots := [(63, ({ desc := [0x120#32, 0xFFFF0000#32, 0x0#32, 0x0#32, 0x0#32, 0x80000800#32, 0x0#32, 0x0#32, 0x0#32, 0x0#32, 0x0#32, 0x0#32, 0x7#32, 0x0#32, 0x0#32, 0x0#32], phase := .started } : FgCmd))] }; let v := fgV m; let n := s.residentAt c; let tg : Tgt := ⟨none, 0, 1, 3, 56⟩; decide (isComb c = true ∧ f < 4 ∧ k < 64 ∧ s.fgOn c f = true ∧ (s.forager c f).slots = [(k, m)] ∧ m.phase = .started ∧ m.fault = none ∧ fgOp v = 0 ∧ fgSig v = 1 ∧ fgDig v = false ∧ m.step ≠ 1 ∧ (match s.translate n (ctrAddr (fgDst v) (fgSigCtr v)) 4 with | .ok x_ => decide (x_ = tg) | _ => false) = true ∧ s.canSend (.forager c f) (s.dstOf tg) (fgCls v) = true))
  && (let c : Nat := 0; let f : Nat := 3; let k : Nat := 63; let m : FgCmd := ({ desc := [0xFFF1000#32, 0x0#32, 0x0#32, 0x0#32, 0x0#32, 0x0#32, 0x0#32, 0x0#32, 0x0#32, 0x0#32, 0x0#32, 0x0#32, 0x0#32, 0x0#32, 0x0#32, 0x0#32], phase := .issued } : FgCmd); let s : State := up.setForager 0 3 { slots := [(63, ({ desc := [0xFFF1000#32, 0x0#32, 0x0#32, 0x0#32, 0x0#32, 0x0#32, 0x0#32, 0x0#32, 0x0#32, 0x0#32, 0x0#32, 0x0#32, 0x0#32, 0x0#32, 0x0#32, 0x0#32], phase := .issued } : FgCmd))] }; let v := fgV m; decide (isComb c = true ∧ f < 4 ∧ k < 64 ∧ s.fgOn c f = true ∧ (s.forager c f).slots = [(k, m)] ∧ m.fault = none ∧ m.phase = .issued ∧ m.outst = [] ∧ (fgOp v = 6 ∨ m.step ≠ 1) ∧ bit v 13 = false))
  && (let c : Nat := 0; let f : Nat := 3; let k : Nat := 63; let m : FgCmd := ({ desc := [0x1000#32, 0x0#32, 0x0#32, 0x0#32, 0x0#32, 0x0#32, 0x0#32, 0x0#32, 0x0#32, 0x0#32, 0x0#32, 0x0#32, 0x0#32, 0x0#32, 0x0#32, 0x0#32], phase := .issued, fault := some (0x3002#16, 2, 0x40) } : FgCmd); let s : State := up.setForager 0 3 { slots := [(63, ({ desc := [0x1000#32, 0x0#32, 0x0#32, 0x0#32, 0x0#32, 0x0#32, 0x0#32, 0x0#32, 0x0#32, 0x0#32, 0x0#32, 0x0#32, 0x0#32, 0x0#32, 0x0#32, 0x0#32], phase := .issued, fault := some (0x3002#16, 2, 0x40) } : FgCmd))] }; let v := fgV m; let code : W16 := 0x3002#16; let u : Nat := 2; let a : W64 := 0x40#64; decide (isComb c = true ∧ f < 4 ∧ k < 64 ∧ s.fgOn c f = true ∧ (s.forager c f).slots = [(k, m)] ∧ m.fault = some (code, u, a) ∧ m.phase = .issued ∧ m.outst = [] ∧ (fgOp v = 6 ∨ m.step ≠ 1) ∧ bit v 13 = false))
  && (let c : Nat := 0; let f : Nat := 3; let k : Nat := 63; let m : FgCmd := ({ desc := [0x0#32, 0x0#32, 0x0#32, 0x0#32, 0x0#32, 0x0#32, 0x0#32, 0x0#32, 0x0#32, 0x0#32, 0x0#32, 0x0#32, 0x0#32, 0x0#32, 0x0#32, 0x0#32], phase := .issued, outst := [1] } : FgCmd); let s : State := up.setForager 0 3 { slots := [(63, ({ desc := [0x0#32, 0x0#32, 0x0#32, 0x0#32, 0x0#32, 0x0#32, 0x0#32, 0x0#32, 0x0#32, 0x0#32, 0x0#32, 0x0#32, 0x0#32, 0x0#32, 0x0#32, 0x0#32], phase := .issued, outst := [1] } : FgCmd))] }; decide (isComb c = true ∧ f < 4 ∧ k < 64 ∧ s.fgOn c f = true ∧ (s.forager c f).slots = [(k, m)] ∧ m.outst ≠ []))
  && (let c : Nat := 0; let f : Nat := 3; let k : Nat := 63; let m : FgCmd := ({ desc := [0x0#32, 0x0#32, 0x0#32, 0x0#32, 0x0#32, 0x0#32, 0x0#32, 0x0#32, 0x0#32, 0x0#32, 0x0#32, 0x0#32, 0x0#32, 0x0#32, 0x0#32, 0x0#32] } : FgCmd); let s : State := up.setForager 0 3 { slots := [(63, ({ desc := [0x0#32, 0x0#32, 0x0#32, 0x0#32, 0x0#32, 0x0#32, 0x0#32, 0x0#32, 0x0#32, 0x0#32, 0x0#32, 0x0#32, 0x0#32, 0x0#32, 0x0#32, 0x0#32] } : FgCmd))], est := [⟨5, none, 2, 7⟩] }; let key : Nat := 5; let e := (⟨5, none, 2, 7⟩ : Est); decide (isComb c = true ∧ f < 4 ∧ k < 64 ∧ s.fgOn c f = true ∧ (s.forager c f).slots = [(k, m)] ∧ (s.forager c f).estOf key = some e ∧ e.val = none))
  && (let c : Nat := 0; let f : Nat := 3; let k : Nat := 63; let m : FgCmd := ({ desc := [0x0#32, 0x0#32, 0x0#32, 0x0#32, 0x0#32, 0x0#32, 0x0#32, 0x0#32, 0x0#32, 0x0#32, 0x0#32, 0x0#32, 0x0#32, 0x0#32, 0x0#32, 0x0#32] } : FgCmd); let s : State := up.setForager 0 3 { slots := [(63, ({ desc := [0x0#32, 0x0#32, 0x0#32, 0x0#32, 0x0#32, 0x0#32, 0x0#32, 0x0#32, 0x0#32, 0x0#32, 0x0#32, 0x0#32, 0x0#32, 0x0#32, 0x0#32, 0x0#32] } : FgCmd))], est := [⟨5, some 3, 2, 7⟩] }; let key : Nat := 5; let e := (⟨5, some 3, 2, 7⟩ : Est); decide (isComb c = true ∧ f < 4 ∧ k < 64 ∧ s.fgOn c f = true ∧ (s.forager c f).slots = [(k, m)] ∧ (s.forager c f).estOf key = some e ∧ e.val ≠ none))
  && (let c : Nat := 0; let f : Nat := 3; let k : Nat := 63; let m : FgCmd := ({ desc := [0x0#32, 0x0#32, 0x0#32, 0x0#32, 0x0#32, 0x0#32, 0x0#32, 0x0#32, 0x0#32, 0x0#32, 0x0#32, 0x0#32, 0x0#32, 0x0#32, 0x0#32, 0x0#32] } : FgCmd); let s : State := up.setForager 0 3 { slots := [(63, ({ desc := [0x0#32, 0x0#32, 0x0#32, 0x0#32, 0x0#32, 0x0#32, 0x0#32, 0x0#32, 0x0#32, 0x0#32, 0x0#32, 0x0#32, 0x0#32, 0x0#32, 0x0#32, 0x0#32] } : FgCmd))] }; let p : Path := .mgmt; let d : Nat := 3; let w := (4#64 : W64); decide (isComb c = true ∧ f < 4 ∧ k < 64 ∧ s.fgOn c f = true ∧ (s.forager c f).slots = [(k, m)] ∧ isPath p = true ∧ d < 4 ∧ writable p 0x2740 (d + 1) w s))) = true := by decide +kernel

theorem witness_ErrorLogAndRecords : (
  let s : State := up
  (let s : State := { up with intake := List.replicate 1023 (⟨0x1#16, 2, none, 7, 0, 0, 0, 0, 0⟩ : Report) }; let r : Report := (⟨0x7001#16, 2, none, 7, 479, 0, 0, 0, 0⟩ : Report); decide (r.comb < 480 ∧ s.intake.length < 1024))
  && (let s : State := { up with intake := List.replicate 1024 (⟨0x1#16, 2, none, 7, 0, 0, 0, 0, 0⟩ : Report) }; let r : Report := (⟨0x7001#16, 2, none, 7, 479, 0, 0, 0, 0⟩ : Report); decide (r.comb < 480 ∧ 1024 ≤ s.intake.length))
  && (let s : State := { up with intake := [(⟨0x2#16, 2, none, 7, 0, 0, 0, 0, 0⟩ : Report)], elog := [⟨(⟨0x1#16, 2, none, 7, 0, 0, 0, 0, 0⟩ : Report), 1, 0, 0⟩, ⟨(⟨0x2#16, 2, none, 7, 0, 0, 0, 0, 0⟩ : Report), 0xFFFFFFFF#32, 0, 0⟩] }; let r := (⟨0x2#16, 2, none, 7, 0, 0, 0, 0, 0⟩ : Report); let l := []; let i := 1; let e := (⟨(⟨0x2#16, 2, none, 7, 0, 0, 0, 0, 0⟩ : Report), 0xFFFFFFFF#32, 0, 0⟩ : ELog); decide (s.intake = r :: l ∧ s.elog[i]? = some e ∧ sameSource e.rep r = true ∧ (s.elog.take i).all (fun d => !sameSource d.rep r) = true))
  && (let s : State := { up with intake := [(⟨0x2#16, 2, none, 7, 0, 0, 0, 0, 0⟩ : Report)], elog := List.replicate 4095 ⟨(⟨0x1#16, 2, none, 7, 0, 0, 0, 0, 0⟩ : Report), 1, 0, 0⟩ }; let r := (⟨0x2#16, 2, none, 7, 0, 0, 0, 0, 0⟩ : Report); let l := []; decide (s.intake = r :: l ∧ s.elog.length < 4096 ∧ (∀ e, e ∈ s.elog → sameSource e.rep r = false)))
  && (let s : State := { up with intake := [(⟨0x2#16, 2, none, 7, 0, 0, 0, 0, 0⟩ : Report)], elog := List.replicate 4096 ⟨(⟨0x1#16, 2, none, 7, 0, 0, 0, 0, 0⟩ : Report), 1, 0, 0⟩ }; let r := (⟨0x2#16, 2, none, 7, 0, 0, 0, 0, 0⟩ : Report); let l := []; decide (s.intake = r :: l ∧ 4096 ≤ s.elog.length ∧ (∀ e, e ∈ s.elog → sameSource e.rep r = false)))
  && (decide (s.intake = []))
  && (let s : State := { up with elog := List.replicate 9 ⟨(⟨0x1#16, 2, none, 7, 0, 0, 0, 0, 0⟩ : Report), 1, 0, 0⟩ }; let p : Path := .mgmt; let v : W64 := 1#64; decide (isPath p = true ∧ writable p 0x2900 6 v s))
  && (let s : State := { up with cper := [⟨7, ⟨(⟨0x1#16, 2, none, 7, 0, 0, 0, 0, 0⟩ : Report), 1, 0, 0⟩, 0, 0, 0, 0, 0, false, 0⟩] }; let p : Path := .mgmt; let r := (⟨7, ⟨(⟨0x1#16, 2, none, 7, 0, 0, 0, 0, 0⟩ : Report), 1, 0, 0⟩, 0, 0, 0, 0, 0, false, 0⟩ : Cper); let l := []; decide (isPath p = true ∧ readable p 0x2920 2 s ∧ s.cper = r :: l))
  && (let p : Path := .mgmt; decide (isPath p = true ∧ readable p 0x2920 2 s ∧ s.cper = []))) = true := by decide +kernel

theorem witness_BundlesAndCombFailures : (
  (let p : Path := .mgmt; let s : State := up; let img : List Byte := [1]; decide (isPath p = true ∧ domWritable p 0x2910 1 s ∧ img.length ≤ 16777216))
  && (let p : Path := .mgmt; let s : State := up; let v : W64 := 40960#64; let w := v.toNat; decide (isPath p = true ∧ writable p 0x2910 3 v s ∧ (40 ≤ fld w 0 6 + fld w 10 6 ∨ 12 ≤ fld w 6 4 + fld w 16 4)))
  && (let p : Path := .mgmt; let s : State := ({ up with ctxs := [] } : State); let v : W64 := 760832#64; let w := v.toNat; decide (isPath p = true ∧ writable p 0x2910 3 v s ∧ fld w 0 6 + fld w 10 6 < 40 ∧ fld w 6 4 + fld w 16 4 < 12 ∧ (∀ n ∈ List.range 16, (s.ctx n).st = 0) ∧ s.maint = []))
  && (let p : Path := .mgmt; let s : State := up; let v : W64 := 39936#64; let w := v.toNat; let c := 1; decide (isPath p = true ∧ writable p 0x2910 3 v s ∧ fld w 0 6 + fld w 10 6 < 40 ∧ fld w 6 4 + fld w 16 4 < 12 ∧ c ∈ rectCombs w ∧ s.ownedByAny c = true))
  && (let p : Path := .mgmt; let s : State := { up with maint := [({ ticket := 1, cls := 2, deferred := false, scope := 66560 } : Maint)] }; let e := ({ ticket := 1, cls := 2, deferred := false, scope := 66560 } : Maint); decide (isPath p = true ∧ s.maint = [e] ∧ e.cls = 2 ∧ e.deferred = false ∧ bit e.scope 20 = false))
  && (let p : Path := .mgmt; let s : State := { up with maint := [({ ticket := 1, cls := 2, deferred := false, scope := 66560 } : Maint)] }; let e := ({ ticket := 1, cls := 2, deferred := false, scope := 66560 } : Maint); let c := 41; decide (isPath p = true ∧ s.maint = [e] ∧ e.cls = 2 ∧ e.deferred = false ∧ bit e.scope 20 = false ∧ isComb c = true ∧ e.combs.contains c = true))
  && (let p : Path := .mgmt; let s : State := up; decide (isPath p = true ∧ s.maint = []))
  && (let c : Nat := 0; decide (isComb c = true))
  && (let c : Nat := 0; let s : State := up.setComb 0 { misses := 3 }; let m := s.comb c; decide (isComb c = true ∧ m.misses < 4))
  && (let c : Nat := 0; decide (isComb c = true))
  && (let c : Nat := 0; let s : State := up.setComb 0 { misses := 3 }; let m := s.comb c; decide (isComb c = true ∧ m.misses < 4))
  && (let c : Nat := 0; let s : State := ((up.setConv 8 { st := 2 }).setConv 56 { st := 2 }).setComb 0 { misses := 4 }; let m := s.comb c; let n := 0; decide (isComb c = true ∧ 4 ≤ m.misses ∧ m.lost = false ∧ m.failing = false ∧ s.maint = [] ∧ s.failedOwners c = [n]))
  && (let c : Nat := 0; let s : State := ((up.setConv 8 { st := 2 }).setConv 56 { st := 2 }).setComb 0 { misses := 4, failing := true }; let m := s.comb c; decide (isComb c = true ∧ m.failing = true ∧ m.lost = false ∧ s.spareFree (frameOf c) = true ∧ s.frameOn (frameOf c) = true))
  && (let c : Nat := 0; let s : State := (up.setFrame 0 { spareBad := true }).setComb 0 { failing := true }; let m := s.comb c; decide (isComb c = true ∧ m.failing = true ∧ s.spareFree (frameOf c) = false))
  && (let c : Nat := 0; let s : State := up; let m := s.comb c; decide (isComb c = true ∧ m.failing = false))) = true := by decide +kernel

theorem witness_PacketBytesReadBack : (
  (let p : Pkt := ({ ptype := 5, len := 12, payload := leBytes 8 0 ++ [1, 2, 3, 4], opn := true, clNext := 3, clWords := 2, clitics := [[0x10#64, 5#64]] } : Pkt); decide (p.dst < 2 ^ 24 ∧ p.src < 2 ^ 24 ∧ p.master < 2 ^ 14 ∧ p.cls < 4 ∧ p.ptype < 32 ∧ p.vc < 4 ∧ p.ctx < 16 ∧ p.space < 8 ∧ p.off < 2 ^ 36 ∧ p.len < 1024 ∧ p.seq < 65536 ∧ p.inc < 256 ∧ p.clNext < 16 ∧ p.clWords < 16 ∧ p.arrCtr < 4096 ∧ p.arrAmt < 65536 ∧ p.reqId < 65536 ∧ (p.clNext = 0 ↔ p.clitics = []) ∧ (p.clitics.map List.length).foldl (· + ·) 0 = p.clWords ∧ true))) = true := by decide +kernel

theorem witness_PacketsParseAndHop : (
  (let i : Nat := 0; let p : Pkt := (ok { ptype := 5, len := 12, payload := leBytes 8 0 ++ [1, 2, 3, 4], src := 0, dst := 16, opn := true } : Pkt); let s : State := { up with net := [⟨(ok { ptype := 5, len := 12, payload := leBytes 8 0 ++ [1, 2, 3, 4], src := 0, dst := 16, opn := true } : Pkt), .source, none⟩] }; decide (s.net[i]? = some ⟨p, .source, none⟩ ∧ p.formFault = none ∧ s.atComb p = true))
  && (let i : Nat := 0; let p : Pkt := (ok { ptype := 1, len := 4, payload := [1, 2, 3, 4], master := 8192, src := 1023, dst := 16, opn := true } : Pkt); let s : State := { up with net := [⟨(ok { ptype := 1, len := 4, payload := [1, 2, 3, 4], master := 8192, src := 1023, dst := 16, opn := true } : Pkt), .source, none⟩] }; decide (s.net[i]? = some ⟨p, .source, none⟩ ∧ p.formFault = none ∧ s.atComb p = false))
  && (let i : Nat := 0; let p : Pkt := ({ rsvd := true } : Pkt); let s : State := { up with net := [⟨({ rsvd := true } : Pkt), .source, none⟩] }; let code := (match p.formFault with | some c => c | none => 0); decide (s.net[i]? = some ⟨p, .source, none⟩ ∧ p.formFault = some code ∧ p.isReply = false))
  && (let i : Nat := 0; let p : Pkt := (ok { ptype := 5, len := 12, payload := leBytes 8 0 ++ [1, 2, 3, 4], src := 0, dst := 16, opn := true } : Pkt); let s : State := { up with net := [⟨(ok { ptype := 5, len := 12, payload := leBytes 8 0 ++ [1, 2, 3, 4], src := 0, dst := 16, opn := true } : Pkt), .mesh 0 0, none⟩] }; let x : Nat := 0; let y : Nat := 0; let bad : Bool := true; decide (s.net[i]? = some ⟨p, .mesh x y, none⟩ ∧ s.fabricOff = false ∧ bad = true))
  && (let i : Nat := 0; let p : Pkt := (ok { ptype := 5, len := 12, payload := leBytes 8 0 ++ [1, 2, 3, 4], src := 0, dst := 16, opn := true } : Pkt); let s : State := { up with net := [⟨(ok { ptype := 5, len := 12, payload := leBytes 8 0 ++ [1, 2, 3, 4], src := 0, dst := 16, opn := true } : Pkt), .mesh 1 0, none⟩] }; let x : Nat := 1; let y : Nat := 0; let bad : Bool := false; decide (s.net[i]? = some ⟨p, .mesh x y, none⟩ ∧ s.fabricOff = false ∧ bad = false ∧ p.vc = 0 ∧ (x, y) = (cxOf p.dstComb, cyOf p.dstComb)))
  && (let i : Nat := 0; let p : Pkt := (ok { ptype := 5, len := 12, payload := leBytes 8 0 ++ [1, 2, 3, 4], src := 0, dst := 16, opn := true } : Pkt); let s : State := { up with net := [⟨(ok { ptype := 5, len := 12, payload := leBytes 8 0 ++ [1, 2, 3, 4], src := 0, dst := 16, opn := true } : Pkt), .mesh 0 0, none⟩] }; let x : Nat := 0; let y : Nat := 0; let bad : Bool := false; decide (s.net[i]? = some ⟨p, .mesh x y, none⟩ ∧ s.fabricOff = false ∧ bad = false ∧ p.vc = 0 ∧ (x, y) ≠ (cxOf p.dstComb, cyOf p.dstComb)))
  && (let i : Nat := 0; let p : Pkt := (ok { ptype := 5, len := 12, payload := leBytes 8 0 ++ [1, 2, 3, 4], src := 0, dst := 1024, opn := true, vc := 1 } : Pkt); let s : State := { up with net := [⟨(ok { ptype := 5, len := 12, payload := leBytes 8 0 ++ [1, 2, 3, 4], src := 0, dst := 1024, opn := true, vc := 1 } : Pkt), .mesh 0 0, none⟩] }; let x : Nat := 0; let y : Nat := 0; let bad : Bool := false; decide (s.net[i]? = some ⟨p, .mesh x y, none⟩ ∧ s.fabricOff = false ∧ bad = false ∧ p.vc ≠ 0 ∧ (x, y) = gatewayAt x y))
  && (let i : Nat := 0; let p : Pkt := (ok { ptype := 5, len := 12, payload := leBytes 8 0 ++ [1, 2, 3, 4], src := 0, dst := 1024, opn := true, vc := 1 } : Pkt); let s : State := { (({ up with boot := { up.boot with rolled := true } }.setObj 0 0x2500 4 0xC00).setPort 4 { st := 3, txKey := some ⟨[], []⟩ }) with net := [⟨(ok { ptype := 5, len := 12, payload := leBytes 8 0 ++ [1, 2, 3, 4], src := 0, dst := 1024, opn := true, vc := 1 } : Pkt), .rim, none⟩] }; let port := 4; let vc := 2; decide (s.net[i]? = some ⟨p, .rim, none⟩ ∧ s.fabricOff = false ∧ p.dstModule ≠ s.ownModule ∧ s.torusHop p = some (port, vc) ∧ s.portOpen port { p with vc := vc } = true ∧ tget 0 (s.port port).paused ({ p with vc := vc } : Pkt).chan = 0))
  && (let i : Nat := 0; let p : Pkt := (ok { ptype := 5, len := 12, payload := leBytes 8 0 ++ [1, 2, 3, 4], src := 0, dst := 1024, opn := true, vc := 1 } : Pkt); let s : State := { ((up.setObj 0 0x2500 4 0xC00).setPort 4 { st := 4 }) with net := [⟨(ok { ptype := 5, len := 12, payload := leBytes 8 0 ++ [1, 2, 3, 4], src := 0, dst := 1024, opn := true, vc := 1 } : Pkt), .rim, none⟩] }; let port := 4; let vc := 2; decide (s.net[i]? = some ⟨p, .rim, none⟩ ∧ s.fabricOff = false ∧ p.dstModule ≠ s.ownModule ∧ s.torusHop p = some (port, vc) ∧ s.portOpen port { p with vc := vc } = false))
  && (let i : Nat := 0; let s : State := up; decide (s.net[i]? = none))
  && (let i : Nat := 0; let s : State := up; decide (s.net[i]? = none))
  && (let i : Nat := 0; let s : State := up; decide (s.net[i]? = none))
  && (let s : State := { up with refs := { stopped := true }, net := [⟨(ok { ptype := 5, len := 12, payload := leBytes 8 0 ++ [1, 2, 3, 4], src := 0, dst := 16, opn := true } : Pkt), .arrived, none⟩] }; decide (s.fabricOff = true))) = true := by decide +kernel

theorem witness_PacketsAccepted : (
  (let k : Nat := 0; let p : Pkt := ({ ptype := 5 } : Pkt); let s : State := { up with net := [⟨({ ptype := 5 } : Pkt), .arrived, none⟩] }; decide (s.net[k]? = some ⟨p, .arrived, none⟩ ∧ p.isReply = false ∧ s.fabricOff = false ∧ p.crc ≠ p.e2e))
  && (let k : Nat := 0; let p : Pkt := (ok { ptype := 5, len := 12, payload := leBytes 8 0 ++ [1, 2, 3, 4], src := 0, dst := 0, opn := true, seq := 0 } : Pkt); let s : State := { up with net := [⟨(ok { ptype := 5, len := 12, payload := leBytes 8 0 ++ [1, 2, 3, 4], src := 0, dst := 0, opn := true, seq := 0 } : Pkt), .arrived, none⟩] }; let c := p.dstComb; let n := 0; decide (s.net[k]? = some ⟨p, .arrived, none⟩ ∧ p.isReply = false ∧ s.fabricOff = false ∧ p.crc = p.e2e ∧ c < 480 ∧ lfind (rxOf c p) s.rx = none ∧ p.opn = true ∧ p.seq = 0 ∧ s.rx.length < 4096 ∧ p.ptype = 5 ∧ p.clitics = [] ∧ (match s.pktOwner c p with | .ok x_ => decide (x_ = (some n)) | _ => false) = true ∧ (s.ctx n).resident = true ∧ (s.ctx n).moving = 0 ∧ (s.ctx n).refuse = false ∧ (s.comb c).lost = false ∧ (s.comb c).failing = false ∧ (s.comb c).refusing = false ∧ (s.comb c).swBuf = [] ∧ ((s.comb c).landing.filter (fun l => l.cls = p.cls)).length < 64))
  && (let k : Nat := 0; let p : Pkt := (ok { ptype := 5, len := 12, payload := leBytes 8 0 ++ [1, 2, 3, 4], src := 0, dst := 0, opn := false, seq := 65535 } : Pkt); let s : State := { up with net := [⟨(ok { ptype := 5, len := 12, payload := leBytes 8 0 ++ [1, 2, 3, 4], src := 0, dst := 0, opn := false, seq := 65535 } : Pkt), .arrived, none⟩] }; let c := p.dstComb; decide (s.net[k]? = some ⟨p, .arrived, none⟩ ∧ p.isReply = false ∧ s.fabricOff = false ∧ p.crc = p.e2e ∧ c < 480 ∧ lfind (rxOf c p) s.rx = none ∧ p.opn = false))
  && (let k : Nat := 0; let p : Pkt := (ok { ptype := 5, len := 12, payload := leBytes 8 0 ++ [1, 2, 3, 4], src := 0, dst := 0, opn := true, seq := 3 } : Pkt); let s : State := { up with net := [⟨(ok { ptype := 5, len := 12, payload := leBytes 8 0 ++ [1, 2, 3, 4], src := 0, dst := 0, opn := true, seq := 3 } : Pkt), .arrived, none⟩], rx := [({ comb := 0, src := 0, master := 0, cls := 0, inc := 0, halt := some (2, 0x3002#16) } : RxStream)] }; let c := p.dstComb; let i := 0; let r := ({ comb := 0, src := 0, master := 0, cls := 0, inc := 0, halt := some (2, 0x3002#16) } : RxStream); decide (s.net[k]? = some ⟨p, .arrived, none⟩ ∧ p.isReply = false ∧ s.fabricOff = false ∧ p.crc = p.e2e ∧ c < 480 ∧ lfind (rxOf c p) s.rx = some i ∧ s.rx[i]? = some r ∧ r.inc = p.inc ∧ r.halt.isSome = true))
  && (let k : Nat := 0; let p : Pkt := (ok { ptype := 5, len := 12, payload := leBytes 8 0 ++ [1, 2, 3, 4], src := 0, dst := 0, opn := true, seq := 65535 } : Pkt); let s : State := { up with net := [⟨(ok { ptype := 5, len := 12, payload := leBytes 8 0 ++ [1, 2, 3, 4], src := 0, dst := 0, opn := true, seq := 65535 } : Pkt), .arrived, none⟩], rx := [({ comb := 0, src := 0, master := 0, cls := 0, inc := 0, expect := 0 } : RxStream)] }; let c := p.dstComb; let i := 0; let r := ({ comb := 0, src := 0, master := 0, cls := 0, inc := 0, expect := 0 } : RxStream); decide (s.net[k]? = some ⟨p, .arrived, none⟩ ∧ p.isReply = false ∧ s.fabricOff = false ∧ p.crc = p.e2e ∧ c < 480 ∧ lfind (rxOf c p) s.rx = some i ∧ s.rx[i]? = some r ∧ r.inc = p.inc ∧ r.halt = none ∧ p.seq ≠ r.expect ∧ seqLe p.seq r.expect = true ∧ p.ptype ≠ 4))
  && (let k : Nat := 0; let p : Pkt := (ok { ptype := 5, len := 12, payload := leBytes 8 0 ++ [1, 2, 3, 4], src := 0, dst := 0, opn := true, seq := 15 } : Pkt); let s : State := { up with net := [⟨(ok { ptype := 5, len := 12, payload := leBytes 8 0 ++ [1, 2, 3, 4], src := 0, dst := 0, opn := true, seq := 15 } : Pkt), .arrived, none⟩], rx := [({ comb := 0, src := 0, master := 0, cls := 0, inc := 0, expect := 0, held := [{ seq := 14 }] } : RxStream)] }; let c := p.dstComb; let i := 0; let r := ({ comb := 0, src := 0, master := 0, cls := 0, inc := 0, expect := 0, held := [{ seq := 14 }] } : RxStream); decide (s.net[k]? = some ⟨p, .arrived, none⟩ ∧ p.isReply = false ∧ s.fabricOff = false ∧ p.crc = p.e2e ∧ c < 480 ∧ lfind (rxOf c p) s.rx = some i ∧ s.rx[i]? = some r ∧ r.inc = p.inc ∧ r.halt = none ∧ p.seq ≠ r.expect ∧ seqLe p.seq r.expect = false ∧ r.held.length < 16 ∧ s.heldBytes c + p.wireLen ≤ 32768 ∧ (∀ q, q ∈ r.held → q.seq ≠ p.seq)))) = true := by decide +kernel

theorem witness_ReceiptAndReplies : (
  let s : State := up
  (let s : State := { up with rx := [({ comb := 0, src := 0, master := 0, cls := 0, inc := 0, performed := some 65535 } : RxStream)] }; let k := 0; let r : RxStream := ({ comb := 0, src := 0, master := 0, cls := 0, inc := 0, performed := some 65535 } : RxStream); decide (s.rx[k]? = some r ∧ r.held = [] ∧ r.pending = false))
  && (let s : State := { up with rx := [({ comb := 0, src := 0, master := 0, cls := 0, inc := 0, expect := 1 } : RxStream)] }; let k := 0; let r : RxStream := ({ comb := 0, src := 0, master := 0, cls := 0, inc := 0, expect := 1 } : RxStream); decide (s.rx[k]? = some r ∧ (r.held ≠ [] ∨ r.pending = true)))
  && (let s : State := { up with rx := [({ comb := 0, src := 0, master := 0, cls := 0, inc := 0 } : RxStream)] }; let k := 0; let r : RxStream := ({ comb := 0, src := 0, master := 0, cls := 0, inc := 0 } : RxStream); decide (s.rx[k]? = some r ∧ r.sinceAck = 0))
  && (let s : State := { up with rx := [({ comb := 0, src := 0, master := 0, cls := 0, inc := 0, sinceAck := 1, expect := 1 } : RxStream)] }; let k := 0; let r : RxStream := ({ comb := 0, src := 0, master := 0, cls := 0, inc := 0, sinceAck := 1, expect := 1 } : RxStream); decide (s.rx[k]? = some r ∧ r.sinceAck ≠ 0))
  && (let s : State := up.setComb 0 { swBuf := [(ok { ptype := 5, len := 12, payload := leBytes 8 0 ++ [1, 2, 3, 4], opn := true } : Pkt)] }; let c := 0; let p := (ok { ptype := 5, len := 12, payload := leBytes 8 0 ++ [1, 2, 3, 4], opn := true } : Pkt); let l : List Pkt := []; let s0 := s.setComb c { s.comb c with swBuf := l }; decide (isComb c = true ∧ (s.comb c).swBuf = p :: l ∧ (s.ctx p.ctx).moving = 0 ∧ (match s0.takePkt c p true with | .pend _ => true | _ => false) = true))
  && (let s : State := up.setComb 0 { swBuf := [{ ptype := 1, payload := [1, 2, 3, 4] }] }; let c := 0; let p := { ptype := 1, payload := [1, 2, 3, 4] }; let l : List Pkt := []; let s0 := s.setComb c { s.comb c with swBuf := l }; decide (isComb c = true ∧ (s.comb c).swBuf = p :: l ∧ (s.ctx p.ctx).moving = 0 ∧ (match s0.takePkt c p true with | .done _ => true | _ => false) = true))
  && (let s : State := up.setComb 0 { swBuf := [{ ptype := 1, ctx := 3 }] }; let c := 0; let p := { ptype := 1, ctx := 3 }; let l : List Pkt := []; let s0 := s.setComb c { s.comb c with swBuf := l }; let code := 0x4503#16; decide (isComb c = true ∧ (s.comb c).swBuf = p :: l ∧ (s.ctx p.ctx).moving = 0 ∧ (match s0.takePkt c p true with | .refuse x _ => decide (x = code) | _ => false) = true))
  && (let s : State := (up.setComb 0 { swBuf := [{ ptype := 1, space := 1, payload := [1, 2, 3, 4] }] }).setSlot ⟨0, 0, 1⟩ { lock := some {} }; let c := 0; let p := { ptype := 1, space := 1, payload := [1, 2, 3, 4] }; let l : List Pkt := []; let s0 := s.setComb c { s.comb c with swBuf := l }; decide (isComb c = true ∧ (s.comb c).swBuf = p :: l ∧ (s.ctx p.ctx).moving = 0 ∧ (match s0.takePkt c p true with | .wait => true | _ => false) = true))
  && (let c := 0; decide (isComb c = true ∧ (s.comb c).swBuf = []))
  && (let s : State := { up with net := [⟨({ ptype := 0x10, src := 16, dst := 0, master := 0, seq := 3, status := 0, off := 0, reqId := 9 } : Pkt), .arrived, none⟩] }; let i : Nat := 0; let p : Pkt := ({ ptype := 0x10, src := 16, dst := 0, master := 0, seq := 3, status := 0, off := 0, reqId := 9 } : Pkt); let s1 : State := { s with net := ldel s.net i }; decide (s.replyAt i p.ptype = some p ∧ (p.crc ≠ p.e2e ∨ s1.txFor p = none) ∧ p.ptype = 0x10))
  && (let s : State := { up with net := [⟨(ok { ptype := 0x11, src := 16, dst := 0, master := 0, seq := 3, status := 0, off := 0, reqId := 9 } : Pkt), .arrived, none⟩] }; let i : Nat := 0; let p : Pkt := (ok { ptype := 0x11, src := 16, dst := 0, master := 0, seq := 3, status := 0, off := 0, reqId := 9 } : Pkt); let s1 : State := { s with net := ldel s.net i }; decide (s.replyAt i p.ptype = some p ∧ (p.crc ≠ p.e2e ∨ s1.txFor p = none) ∧ p.ptype = 0x11))
  && (let s : State := { up with net := [⟨({ ptype := 0x12, src := 16, dst := 0, master := 0, seq := 3, status := 0, off := 0, reqId := 9 } : Pkt), .arrived, none⟩] }; let i : Nat := 0; let p : Pkt := ({ ptype := 0x12, src := 16, dst := 0, master := 0, seq := 3, status := 0, off := 0, reqId := 9 } : Pkt); let s1 : State := { s with net := ldel s.net i }; decide (s.replyAt i p.ptype = some p ∧ (p.crc ≠ p.e2e ∨ s1.txFor p = none) ∧ p.ptype = 0x12))
  && (let s : State := { up with net := [⟨(ok { ptype := 0x13, src := 16, dst := 0, master := 0, seq := 3, status := 0, off := 0, reqId := 9 } : Pkt), .arrived, none⟩] }; let i : Nat := 0; let p : Pkt := (ok { ptype := 0x13, src := 16, dst := 0, master := 0, seq := 3, status := 0, off := 0, reqId := 9 } : Pkt); let s1 : State := { s with net := ldel s.net i }; decide (s.replyAt i p.ptype = some p ∧ (p.crc ≠ p.e2e ∨ s1.txFor p = none) ∧ p.ptype = 0x13))
  && (let s : State := { up with net := [⟨(ok { ptype := 0x10, src := 16, dst := 0, master := 0, seq := 3, status := 0, off := 2, reqId := 9 } : Pkt), .arrived, none⟩], tx := [({ src := 0, master := 0, dst := 16, cls := 0, next := 5, unacc := [{ seq := 3 }, { seq := 4 }], unperf := [{ ptype := 1, seq := 2 }, { seq := 3 }, { seq := 4 }] } : TxStream)] }; let i : Nat := 0; let p : Pkt := (ok { ptype := 0x10, src := 16, dst := 0, master := 0, seq := 3, status := 0, off := 2, reqId := 9 } : Pkt); let s1 : State := { s with net := ldel s.net i }; let k := 0; let t := ({ src := 0, master := 0, dst := 16, cls := 0, next := 5, unacc := [{ seq := 3 }, { seq := 4 }], unperf := [{ ptype := 1, seq := 2 }, { seq := 3 }, { seq := 4 }] } : TxStream); decide (s.replyAt i p.ptype = some p ∧ p.crc = p.e2e ∧ s1.txFor p = some k ∧ s.tx[k]? = some t ∧ p.ptype = 0x10 ∧ p.status = 0))
  && (let s : State := { up with net := [⟨(ok { ptype := 0x10, src := 16, dst := 0, master := 0, seq := 3, status := 0x4503, off := 2, reqId := 9 } : Pkt), .arrived, none⟩], tx := [({ src := 0, master := 0, dst := 16, cls := 0, next := 5, unacc := [{ seq := 3 }, { seq := 4 }], unperf := [{ ptype := 1, seq := 2 }, { seq := 3 }, { seq := 4 }] } : TxStream)] }; let i : Nat := 0; let p : Pkt := (ok { ptype := 0x10, src := 16, dst := 0, master := 0, seq := 3, status := 0x4503, off := 2, reqId := 9 } : Pkt); let s1 : State := { s with net := ldel s.net i }; let k := 0; let t := ({ src := 0, master := 0, dst := 16, cls := 0, next := 5, unacc := [{ seq := 3 }, { seq := 4 }], unperf := [{ ptype := 1, seq := 2 }, { seq := 3 }, { seq := 4 }] } : TxStream); decide (s.replyAt i p.ptype = some p ∧ p.crc = p.e2e ∧ s1.txFor p = some k ∧ s.tx[k]? = some t ∧ p.ptype = 0x10 ∧ p.status ≠ 0))
  && (let s : State := { up with net := [⟨(ok { ptype := 0x11, src := 16, dst := 0, master := 0, seq := 3, status := 0, off := 0, reqId := 9 } : Pkt), .arrived, none⟩], tx := [({ src := 0, master := 0, dst := 16, cls := 0, next := 5, unacc := [{ seq := 3 }, { seq := 4 }], unperf := [{ ptype := 1, seq := 2 }, { seq := 3 }, { seq := 4 }] } : TxStream)] }; let i : Nat := 0; let p : Pkt := (ok { ptype := 0x11, src := 16, dst := 0, master := 0, seq := 3, status := 0, off := 0, reqId := 9 } : Pkt); let s1 : State := { s with net := ldel s.net i }; let k := 0; let t := ({ src := 0, master := 0, dst := 16, cls := 0, next := 5, unacc := [{ seq := 3 }, { seq := 4 }], unperf := [{ ptype := 1, seq := 2 }, { seq := 3 }, { seq := 4 }] } : TxStream); let q := ({ seq := 3 } : Pkt); decide (s.replyAt i p.ptype = some p ∧ p.crc = p.e2e ∧ s1.txFor p = some k ∧ s.tx[k]? = some t ∧ p.ptype = 0x11 ∧ p.status = 0 ∧ t.unacc.find? (fun q => q.seq = p.seq) = some q))
  && (let s : State := { up with net := [⟨(ok { ptype := 0x11, src := 16, dst := 0, master := 0, seq := 3, status := 0x3002, off := 0, reqId := 9 } : Pkt), .arrived, none⟩], tx := [({ src := 0, master := 0, dst := 16, cls := 0, next := 5, unacc := [{ seq := 3 }, { seq := 4 }], unperf := [{ ptype := 1, seq := 2 }, { seq := 3 }, { seq := 4 }] } : TxStream)] }; let i : Nat := 0; let p : Pkt := (ok { ptype := 0x11, src := 16, dst := 0, master := 0, seq := 3, status := 0x3002, off := 0, reqId := 9 } : Pkt); let s1 : State := { s with net := ldel s.net i }; let k := 0; let t := ({ src := 0, master := 0, dst := 16, cls := 0, next := 5, unacc := [{ seq := 3 }, { seq := 4 }], unperf := [{ ptype := 1, seq := 2 }, { seq := 3 }, { seq := 4 }] } : TxStream); decide (s.replyAt i p.ptype = some p ∧ p.crc = p.e2e ∧ s1.txFor p = some k ∧ s.tx[k]? = some t ∧ p.ptype = 0x11 ∧ p.status ≠ 0))
  && (let s : State := { up with net := [⟨(ok { ptype := 0x12, src := 16, dst := 0, master := 0, seq := 3, status := 0, off := 0, reqId := 9 } : Pkt), .arrived, none⟩], tx := [({ src := 0, master := 0, dst := 16, cls := 0, next := 5, unacc := [{ seq := 3 }, { seq := 4 }], unperf := [{ ptype := 1, seq := 2 }, { seq := 3 }, { seq := 4 }] } : TxStream)] }; let i : Nat := 0; let p : Pkt := (ok { ptype := 0x12, src := 16, dst := 0, master := 0, seq := 3, status := 0, off := 0, reqId := 9 } : Pkt); let s1 : State := { s with net := ldel s.net i }; let k := 0; let t := ({ src := 0, master := 0, dst := 16, cls := 0, next := 5, unacc := [{ seq := 3 }, { seq := 4 }], unperf := [{ ptype := 1, seq := 2 }, { seq := 3 }, { seq := 4 }] } : TxStream); decide (s.replyAt i p.ptype = some p ∧ p.crc = p.e2e ∧ s1.txFor p = some k ∧ s.tx[k]? = some t ∧ p.ptype = 0x12))
  && (let s : State := { (up.setRing 64 { cfg := 0x80000#64, cmds := [({ words := [2, 0x1000, 0, 4], outst := [9], offs := [(9, 64)], done := 4 } : HCmd)] }) with net := [⟨(ok { ptype := 0x13, src := 16, dst := 1023, master := 8192 + 64, seq := 3, reqId := 9, payload := [1, 2, 3, 4] } : Pkt), .arrived, none⟩], tx := [({ src := 480, master := 8192 + 64, dst := 16, cls := 0, next := 5, unperf := [{ ptype := 4, seq := 3, reqId := 9 }] } : TxStream)] }; let i : Nat := 0; let p : Pkt := (ok { ptype := 0x13, src := 16, dst := 1023, master := 8192 + 64, seq := 3, reqId := 9, payload := [1, 2, 3, 4] } : Pkt); let s1 : State := { s with net := ldel s.net i }; let k := 0; let t := ({ src := 480, master := 8192 + 64, dst := 16, cls := 0, next := 5, unperf := [{ ptype := 4, seq := 3, reqId := 9 }] } : TxStream); let f := 64; let h := ({ words := [2, 0x1000, 0, 4], outst := [9], offs := [(9, 64)], done := 4 } : HCmd); decide (s.replyAt i p.ptype = some p ∧ p.crc = p.e2e ∧ s1.txFor p = some k ∧ s.tx[k]? = some t ∧ p.ptype = 0x13 ∧ t.who = .host f ∧ t.unperf.any (fun q => q.ptype = 4 && q.seq = p.seq && q.reqId = p.reqId) = true ∧ (s.ring f).cmds = [h] ∧ h.outst.contains p.reqId = true))
  && (let s : State := { up with net := [⟨(ok { ptype := 0x13, src := 16, dst := 0, master := 0, seq := 3, status := 0, off := 0, reqId := 9 } : Pkt), .arrived, none⟩], tx := [({ src := 0, master := 0, dst := 16, cls := 0, next := 5, unacc := [{ seq := 3 }, { seq := 4 }], unperf := [{ ptype := 1, seq := 2 }, { seq := 3 }, { seq := 4 }] } : TxStream)] }; let i : Nat := 0; let p : Pkt := (ok { ptype := 0x13, src := 16, dst := 0, master := 0, seq := 3, status := 0, off := 0, reqId := 9 } : Pkt); let s1 : State := { s with net := ldel s.net i }; let k := 0; let t := ({ src := 0, master := 0, dst := 16, cls := 0, next := 5, unacc := [{ seq := 3 }, { seq := 4 }], unperf := [{ ptype := 1, seq := 2 }, { seq := 3 }, { seq := 4 }] } : TxStream); decide (s.replyAt i p.ptype = some p ∧ p.crc = p.e2e ∧ s1.txFor p = some k ∧ s.tx[k]? = some t ∧ p.ptype = 0x13 ∧ t.unperf.any (fun q => q.ptype = 4 && q.seq = p.seq && q.reqId = p.reqId) = false))
  && (let s : State := { up with tx := [({ src := 0, master := 0, dst := 16, cls := 0, next := 5, unacc := [{ seq := 3 }, { seq := 4 }], unperf := [{ ptype := 1, seq := 2 }, { seq := 3 }, { seq := 4 }], resends := 7 } : TxStream)] }; let k : Nat := 0; let t : TxStream := ({ src := 0, master := 0, dst := 16, cls := 0, next := 5, unacc := [{ seq := 3 }, { seq := 4 }], unperf := [{ ptype := 1, seq := 2 }, { seq := 3 }, { seq := 4 }], resends := 7 } : TxStream); let q : Pkt := ({ seq := 3 } : Pkt); let l : List Pkt := ([{ seq := 4 }] : List Pkt); decide (s.tx[k]? = some t ∧ t.unacc = q :: l ∧ t.busy = false ∧ t.resends < 8))
  && (let s : State := { up with tx := [({ src := 0, master := 0, dst := 16, cls := 0, next := 5, unacc := [{ seq := 3 }, { seq := 4 }], unperf := [{ ptype := 1, seq := 2 }, { seq := 3 }, { seq := 4 }], busy := true } : TxStream)] }; let k : Nat := 0; let t : TxStream := ({ src := 0, master := 0, dst := 16, cls := 0, next := 5, unacc := [{ seq := 3 }, { seq := 4 }], unperf := [{ ptype := 1, seq := 2 }, { seq := 3 }, { seq := 4 }], busy := true } : TxStream); let q : Pkt := ({ seq := 3 } : Pkt); let l : List Pkt := ([{ seq := 4 }] : List Pkt); decide (s.tx[k]? = some t ∧ t.unacc = q :: l ∧ t.busy = true))
  && (let s : State := { up with tx := [({ src := 0, master := 0, dst := 16, cls := 0, next := 5, unacc := [{ seq := 3 }, { seq := 4 }], unperf := [], resends := 8 } : TxStream)] }; let k : Nat := 0; let t : TxStream := ({ src := 0, master := 0, dst := 16, cls := 0, next := 5, unacc := [{ seq := 3 }, { seq := 4 }], unperf := [], resends := 8 } : TxStream); let q : Pkt := ({ seq := 3 } : Pkt); let l : List Pkt := ([{ seq := 4 }] : List Pkt); decide (s.tx[k]? = some t ∧ t.unacc = q :: l ∧ t.busy = false ∧ 8 ≤ t.resends ∧ t.unperf = []))
  && (let k := 0; decide (s.tx[k]? = none))) = true := by decide +kernel

theorem witness_FlowControlAndLanes : (
  (let s : State := up.setObj 0 0x2500 3 3; let l := 1; decide (l < 2 ∧ s.meshBusy (l = 1) = false))
  && (let s : State := { up with net := [⟨{ ptype := 5 }, .mesh 0 0, none⟩] }; let l := 0; decide (l < 2 ∧ s.meshBusy (l = 1) = true))
  && (let l := 7; decide (2 ≤ l ∧ l < 8))
  && (let p := 5; let ch := 17; decide (isTyPort p = true ∧ ch < 18))
  && (let s : State := up; let p := 5; let ch := 17; decide (isTyPort p = true ∧ ch < 18 ∧ tget false (s.port p).pausing ch = false))
  && (let s : State := { (up.setPort 5 { st := 3, onOff := true, pausing := [(16, true)] }) with net := [⟨{ ptype := 0x10, cls := 3, vc := 3, clWords := 392600 }, .rim, some (5, 16)⟩] }; let p := 5; let ch := 16; decide (isTyPort p = true ∧ ch < 18 ∧ tget false (s.port p).pausing ch = true ∧ (s.port p).onOff = true ∧ s.chanRoom p ch < 8 * 544))
  && (let s : State := up; let p := 5; let ch := 17; decide (isTyPort p = true ∧ ch < 18 ∧ 8 * 544 ≤ s.chanRoom p ch))
  && (let s : State := up; let q := .mgmt; let p := 5; let v := 0x4000#64; decide (isPath q = true ∧ isTyPort p = true ∧ writable q 0x2501 (p + 1) v s))
  && (let p : Nat := 5; let lane : Nat := 95; let s : State := up.setPort 5 { st := 3, width := 95, lanes := (List.range 96).map (fun l => (l, 2)) }; let t := s.port p; let k := 3; decide (isTyPort p = true ∧ lane < 96 ∧ t.st = 3 ∧ t.req = none ∧ t.laneWant lane = some k ∧ k ≠ 2))
  && (let p : Nat := 5; let lane : Nat := 95; let s : State := up.setPort 5 { st := 3, width := 96, lanes := (List.range 96).map (fun l => (l, 2)) }; let t := s.port p; decide (isTyPort p = true ∧ lane < 96 ∧ t.st = 3 ∧ t.req = none ∧ t.laneWant lane = some 2 ∧ t.training = none ∧ s.maint = []))
  && (let p : Nat := 5; let lane : Nat := 95; let s : State := up.setPort 5 { st := 4 }; let t := s.port p; decide (isTyPort p = true ∧ lane < 96 ∧ (t.st ≠ 3 ∨ t.req ≠ none)))
  && (let p : Nat := 5; let lane : Nat := 95; let s : State := up; let t := s.port p; decide (isTyPort p = true ∧ lane < 96 ∧ t.training = none))
  && (let p : Nat := 5; let lane : Nat := 95; let s : State := up.setPort 5 { st := 3, training := some (95, true), lanes := (List.range 95).map (fun l => (l, 2)) }; let t := s.port p; decide (isTyPort p = true ∧ lane < 96 ∧ t.training = some (lane, true)))
  && (let p : Nat := 5; let lane : Nat := 95; let s : State := up.setPort 5 { st := 3, training := some (95, false) }; let t := s.port p; decide (isTyPort p = true ∧ lane < 96 ∧ t.training = some (lane, false)))
  && (let p : Nat := 5; let lane : Nat := 95; let s : State := up.setPort 5 { st := 3, training := some (95, true), lanes := (List.range 8).map (fun l => (l, 2)) }; let t := s.port p; let lead : Bool := true; decide (isTyPort p = true ∧ lane < 96 ∧ t.training = some (lane, lead) ∧ t.again = none ∧ 8 ≤ ({ t with lanes := tset 0 t.lanes lane 0 } : TyPort).active))
  && (let p : Nat := 5; let lane : Nat := 95; let s : State := up; let t := s.port p; decide (isTyPort p = true ∧ lane < 96 ∧ t.again = none))
  && (let p : Nat := 5; let lane : Nat := 95; let s : State := up.setPort 5 { st := 3, again := some (95, 2) }; let t := s.port p; let r := (95, 2); decide (isTyPort p = true ∧ lane < 96 ∧ t.again = some r ∧ t.req = none ∧ t.training = none ∧ t.st = 3))) = true := by decide +kernel

theorem witness_FramesAndLinkKeys : (
  let p : Nat := 5
  let s : State := up
  let t := s.port p
  decide (isTyPort p = true)
  && (let s : State := up.setPort 5 { st := 3, rxKey := some (⟨List.replicate 32 1, List.replicate 4 2⟩ : LinkKey) }; let t := s.port p; let bs : List Byte := leBytes 8 0x800 ++ List.replicate 17 0; decide (t.st = 3 ∧ t.badAt = [] ∧ bs.length ≠ fld (leNat (bs.take 8)) 8 10 + 24))
  && (let s : State := up.setPort 5 { st := 3, rxKey := some (⟨List.replicate 32 1, List.replicate 4 2⟩ : LinkKey), rxKph := true, rxCtr := 0xFFFFFFFF#64 }; let t := s.port p; let bs : List Byte := leBytes 8 0xFFFFFFFF00000860 ++ List.replicate 24 0; let k : LinkKey := (⟨List.replicate 32 1, List.replicate 4 2⟩ : LinkKey); let h := leNat (bs.take 8); decide (t.st = 3 ∧ t.rxKey = some k ∧ bs.length = fld h 8 10 + 24 ∧ bit h 7 = false ∧ fld h 18 14 = 0 ∧ fld h 2 4 ≤ 8 ∧ bit h 0 = false ∧ bit h 6 = t.rxKph ∧ fld h 32 32 = t.rxCtr.toNat % 2 ^ 32))
  && (let s : State := up.setPort 5 { st := 4 }; let t := s.port p; decide (t.st ≠ 2 ∧ t.st ≠ 3))
  && (let s : State := up.setPort 5 { st := 3, nextTx := some (⟨List.replicate 32 1, List.replicate 4 2⟩ : LinkKey), txCtr := 5 }; let t := s.port p; let k := (⟨List.replicate 32 1, List.replicate 4 2⟩ : LinkKey); decide (t.st = 3 ∧ t.nextTx = some k))
  && (let s : State := up.setPort 5 { st := 3, txCtr := 0x10000000000#64, txKey := some (⟨List.replicate 32 1, List.replicate 4 2⟩ : LinkKey) }; let t := s.port p; decide (t.st = 3 ∧ t.nextTx = none ∧ 2 ^ 40 ≤ t.txCtr.toNat))
  && (decide (t.st ≠ 3))
  && (let s : State := up.setPort 5 { st := 2, kx := { running := true, await := 1 } }; let t := s.port p; decide (t.kx.running = true))
  && (decide (t.kx.running = false))
  && (let s : State := up.setPort 5 { st := 2, kx := { waiting := true } }; let t := s.port p; decide (t.kx.waiting = true ∧ (t.st = 2 ∨ t.st = 3) ∧ s.leadsPort p = false))
  && (let p : Nat := 4; let s : State := up.setPort 4 { st := 3, kx := { waiting := true } }; let t := s.port p; decide (isTyPort p = true ∧ t.kx.waiting = true ∧ (t.st = 2 ∨ t.st = 3) ∧ s.leadsPort p = true))
  && (decide (t.kx.waiting = false))) = true := by decide +kernel

theorem witness_RingsDoorbellsEvents : (
  let f : Nat := 0
  let s : State := up
  let r := s.ring f
  decide (f < 1088)
  && (let v : W64 := 0x1000#64; decide (s.boot.fw = true ∧ (r.en = false ∨ v = r.sqBase)))
  && (let s : State := up.setRing 0 { cfg := 0x200011#64 }; let r := s.ring f; let v : W64 := 0x1000#64; decide (s.boot.fw = true ∧ r.en = true ∧ v ≠ r.sqBase))
  && (let v : W64 := 0x1000#64; decide (s.boot.fw = true ∧ (r.en = false ∨ v = r.cqBase)))
  && (let v : W64 := 0x207711#64; decide (s.boot.fw = true ∧ r.en = false ∧ v.toNat / 2 ^ 23 = 0 ∧ fld v.toNat 0 4 ≠ 0 ∧ fld v.toNat 4 4 ≠ 0 ∧ vectorOk f (fld v.toNat 8 11) = true ∧ (match fnCtx f with | some n => decide ((s.ctx n).st ≠ 0) | none => true) = true ∧ (∀ n, fnCtx f = some n → (s.ctx n).st ≠ 0)))
  && (let v : W64 := 0x800011#64; decide (s.boot.fw = true ∧ (v.toNat / 2 ^ 23 ≠ 0 ∨ fld v.toNat 0 4 = 0 ∨ fld v.toNat 4 4 = 0)))
  && (let f : Nat := 1087; decide (f < 1088))
  && (let s : State := up.setRing 0 { cfg := 0x200011#64, sqHead := 0xFFFFFFFF#32, sqTail := 0xFFFFFFFF#32 }; let r := s.ring f; let v : W32 := 1#32; decide (r.en = true ∧ r.frozen = false ∧ (v - r.sqHead).toNat ≤ r.sqSize ∧ (v - r.sqTail).toNat < 2 ^ 31))
  && (let s : State := up.setRing 0 { cfg := 0x200011#64, sqHead := 0xFFFFFFFF#32, sqTail := 0xFFFFFFFF#32 }; let r := s.ring f; let v : W32 := 2#32; decide (r.en = true ∧ r.frozen = false ∧ r.sqSize < (v - r.sqHead).toNat))
  && (let s : State := up.setRing 0 { cfg := 0x200011#64 }; let r := s.ring f; decide (r.en = true ∧ r.frozen = false))
  && (let s : State := up.setRing 0 { cfg := 0x200011#64, frozen := true }; let r := s.ring f; decide ((r.en = false ∨ r.frozen = true)))
  && (let s : State := { ((up.setHlp 0 { st := 2 }).setRing 1024 { cfg := 0x200011#64, cqTail := 3#32, cqHead := 2#32, lost := 65535 }) with events := [(⟨none, 0x7001#16, 5, 9, 3, 2⟩ : Event)] }; let e := (⟨none, 0x7001#16, 5, 9, 3, 2⟩ : Event); let l := []; decide (s.events = e :: l ∧ e.ctx = none ∧ (s.ring 1024).en = true ∧ (s.ring 1024).cqRoom = true ∧ s.hlCarries (s.ring 1024).port = true))
  && (let s : State := { ((up.setHlp 0 { st := 2 }).setRing 1024 { cfg := 0x200011#64, cqTail := 3#32, cqHead := 1#32, lost := 65535 }) with events := [(⟨none, 0x7001#16, 5, 9, 3, 2⟩ : Event)] }; let e := (⟨none, 0x7001#16, 5, 9, 3, 2⟩ : Event); let l := []; decide (s.events = e :: l ∧ e.ctx = none ∧ (s.ring 1024).en = true ∧ (s.ring 1024).cqRoom = false))
  && (decide (s.events = []))) = true := by decide +kernel

theorem witness_HostCommandsRun : (
  let f : Nat := 0
  let s : State := ((up.setRing 0 { cfg := 0x200011#64, sqTail := 1#32 }).setHlp 0 { st := 2 })
  let r := s.ring f
  decide (isHostFn f = true)
  && (let s : State := up; let e : List W64 := [0x0#64, 0#64, 0#64, 0#64, 0#64, 0#64, 0#64, 0#64]; let ext : List Byte := []; let h : HCmd := { words := e, ext := ext, comb := 480 }; decide (e.length = 8 ∧ s.canTake f h = false))
  && (let e : List W64 := [0xFF#64, 0#64, 0#64, 0#64, 0#64, 0#64, 0#64, 0#64]; let ext : List Byte := []; let h : HCmd := { words := e, ext := ext, comb := 480 }; let code := 0xC007#16; decide (e.length = 8 ∧ s.canTake f h = true ∧ r.cmds = [] ∧ hostFormFault f h = some code))
  && (let s : State := (((up.setRing 0 { cfg := 0x200011#64, sqTail := 1#32 }).setHlp 0 { st := 2 }).setCtx 0 { up.ctx 0 with st := 4, wasReset := true }); let r := s.ring f; let e : List W64 := [0x7#64, 0#64, 0#64, 0#64, 0#64, 0#64, 0#64, 0#64]; let ext : List Byte := []; let h : HCmd := { words := e, ext := ext, comb := 480 }; let n := 0; decide (e.length = 8 ∧ s.canTake f h = true ∧ r.cmds = [] ∧ hostFormFault f h = none ∧ fnCtx f = some n ∧ h.op = 7 ∧ ((s.ctx n).st = 2 ∨ (s.ctx n).st = 4)))
  && (let e : List W64 := [0x7#64, 0#64, 0#64, 0#64, 0#64, 0#64, 0#64, 0#64]; let ext : List Byte := []; let h : HCmd := { words := e, ext := ext, comb := 480 }; let n := 0; decide (e.length = 8 ∧ s.canTake f h = true ∧ r.cmds = [] ∧ hostFormFault f h = none ∧ fnCtx f = some n ∧ h.op = 7 ∧ (s.ctx n).st = 3))
  && (let e : List W64 := [0x6#64, 0x0#64, 0x5#64, 0#64, 0#64, 0#64, 0#64, 0#64]; let ext : List Byte := []; let h : HCmd := { words := e, ext := ext, comb := 480 }; let n := 0; decide (e.length = 8 ∧ s.canTake f h = true ∧ r.cmds = [] ∧ hostFormFault f h = none ∧ fnCtx f = some n ∧ h.op = 6))
  && (let s : State := ((up.setRing 0 { cfg := 0x200011#64, sqTail := 1#32, cmds := [({ words := [1, 0x1000, 0, 64, 0, 0, 0, 0], got := 60, done := 60, buf := [] } : HCmd)] }).setHlp 0 { st := 2 }); let r := s.ring f; let h := ({ words := [1, 0x1000, 0, 64, 0, 0, 0, 0], got := 60, done := 60, buf := [] } : HCmd); let ok := false; decide (r.cmds = [h] ∧ h.op = 1 ∧ h.status = none ∧ h.got < h.len ∧ ok = false))
  && (let s : State := ((up.setRing 0 { cfg := 0x200011#64, sqTail := 1#32, cmds := [({ words := [1, 0x1000, 0, 64, 0, 0, 0, 0], got := 60, done := 60, buf := [] } : HCmd)] }).setHlp 0 { st := 2 }); let r := s.ring f; let h := ({ words := [1, 0x1000, 0, 64, 0, 0, 0, 0], got := 60, done := 60, buf := [] } : HCmd); let ok := true; decide (r.cmds = [h] ∧ h.op = 1 ∧ h.status = none ∧ h.got < h.len ∧ ok = true))
  && (decide (r.cmds = []))
  && (let s : State := ((up.setRing 0 { cfg := 0x200011#64, sqTail := 1#32, cmds := [{ words := [0x206] }] }).setHlp 0 { st := 2 }); let r := s.ring f; let h := ({ words := [0x206] } : HCmd); decide (r.en = true ∧ r.frozen = false ∧ s.hlCarries r.port = true ∧ r.cmds = [h] ∧ h.hold = false ∧ h.finished = true ∧ r.cqRoom = true ∧ h.status = none ∧ h.noCqe = true))
  && (let s : State := ((up.setRing 0 { cfg := 0x200011#64, sqTail := 1#32, cmds := [{ words := [0x206], status := some (1, 0xC007#16) }] }).setHlp 0 { st := 2 }); let r := s.ring f; let h := ({ words := [0x206], status := some (1, 0xC007#16) } : HCmd); decide (r.en = true ∧ r.frozen = false ∧ s.hlCarries r.port = true ∧ r.cmds = [h] ∧ h.hold = false ∧ h.finished = true ∧ r.cqRoom = true ∧ ((match h.status with | some (st, _) => decide (st ≠ 0) | none => false) = true ∨ h.noCqe = false)))
  && (let s : State := up; let r := s.ring f; decide ((r.en = false ∨ r.frozen = true)))) = true := by decide +kernel

theorem witness_ContextsSwitchAndEnd : (
  let n : Nat := 0
  let m : Nat := 1
  let s : State := up
  decide (isCtx n = true ∧ isCtx m = true)
  && (let s : State := (up.setCtx 0 { up.ctx 0 with st := 1 }).setCtx 1 { st := 3, wM1 := 1 }; decide ((s.ctx n).st = 1))
  && (decide ((s.ctx n).st ≠ 1))
  && (let s : State := (up.setCtx 0 { up.ctx 0 with st := 3 }).setCtx 1 { st := 3, wM1 := 1 }; decide ((s.ctx n).st ≠ 0 ∧ (s.ctx n).resident = true ∧ s.groupMoves n = false ∧ (s.group n).any (fun k => bit (s.obj 0 0x2701 2 0) k) = false ∧ s.nextMember n = some m))
  && (decide ((s.ctx n).st ≠ 0 ∧ (s.ctx n).resident = true ∧ s.groupMoves n = false ∧ (s.group n).any (fun k => bit (s.obj 0 0x2701 2 0) k) = false ∧ s.nextMember n = none))
  && (let n : Nat := 1; let m : Nat := 0; decide (isCtx n = true ∧ isCtx m = true ∧ (s.ctx n).resident = false))
  && (let s : State := (up.setCtx 0 { up.ctx 0 with st := 3 }).setCtx 1 { st := 3, wM1 := 1, sliceAt := some 5#64 }; let v := 5#64; let s1 := s.setCtx m { s.ctx m with sliceAt := none }; decide ((s.ctx m).sliceAt = some v ∧ (s.ctx m).st = 3 ∧ n ≠ m ∧ s1.residentOf m = some n ∧ s1.groupMoves m = false))
  && (decide ((s.ctx m).sliceAt = none))
  && (let s : State := (up.setCtx 0 { up.ctx 0 with switchTo := some 1 }).setCtx 1 { st := 3, wM1 := 1 }; decide ((s.ctx n).switchTo = some m ∧ (s.ctx n).resident = true ∧ (s.ctx m).resident = false ∧ s.groupMoves n = false ∧ (s.group n).contains m = true ∧ (s.ctx n).st = 3))
  && (decide ((s.ctx n).switchTo ≠ some m))
  && (let s : State := (up.setCtx 0 { up.ctx 0 with moving := 1 }).setCtx 1 { st := 3, wM1 := 1, moving := 2 }; decide (s.residentOf m = some n ∧ (s.ctx n).moving = 1 ∧ (s.ctx m).moving = 2 ∧ s.addsDone n = true))
  && (let s : State := (up.setCtx 0 { up.ctx 0 with moving := 0 }).setCtx 1 { st := 3, wM1 := 1 }; decide (s.residentOf m = some n ∧ (s.ctx n).moving ≠ 1))
  && (let s : State := ((up.setCtx 0 { up.ctx 0 with st := 6 }).setCtx 1 { st := 3, wM1 := 1 }).setRing 63 { cfg := 0x200011#64, cmds := [{ words := [] }] }; decide ((s.ctx n).st = 6))
  && (decide ((s.ctx n).st ≠ 6))) = true := by decide +kernel

theorem witness_HostLinkPorts : (
  (let p : Nat := 1; decide (isHl p = true))
  && (let p : Nat := 1; let s : State := up.setHlp 1 { perst := true }; let h := s.hlp p; decide (isHl p = true ∧ h.perst = true))
  && (let p : Nat := 1; let s : State := up; let h := s.hlp p; decide (isHl p = true ∧ h.perst = false))
  && (let p : Nat := 1; let s : State := up.setHlp 1 { st := 1 }; let h := s.hlp p; let rate := 5; let lanes := 16; decide (isHl p = true ∧ rate < 6 ∧ (lanes = 1 ∨ lanes = 2 ∨ lanes = 4 ∨ lanes = 8 ∨ lanes = 16) ∧ h.perst = false))
  && (let p : Nat := 1; let s : State := { up with spdm := [(1, { session := true })] }; let ks := 1; let sub := 2; decide (isHl p = true ∧ ks < 2 ∧ sub < 3 ∧ (s.spdmOf p).session = true))
  && (let p : Nat := 1; let s : State := up; let ks := 1; let sub := 2; decide (isHl p = true ∧ ks < 2 ∧ sub < 3 ∧ (s.spdmOf p).session = false))
  && (let p : Nat := 1; let s : State := up.setHlp 1 { st := 2 }; let h := s.hlp p; decide (isHl p = true ∧ s.boot.fw = true ∧ (h.st = 2 ∨ h.st = 3)))
  && (let p : Nat := 1; let s : State := base; decide (isHl p = true ∧ s.boot.fw = false))
  && (let p : Nat := 1; let s : State := up; let req : List Byte := List.replicate 4097 0; decide (isHl p = true ∧ domWritable .mgmt 0x2850 1 s ∧ 4096 < req.length))) = true := by decide +kernel

theorem witness_InputsConvertersTrip : (
  let k : Nat := 0
  let s : State := up
  let v := s.conv k
  decide (isConv k = true)
  && (let dv : Nat := 3299; let ms : Nat := 10; decide (dv < 3300 ∧ 10 ≤ ms ∧ s.pwrState ≠ 0 ∧ s.pwrState ≠ 4))
  && (let dv : Nat := 3300; let ms : Nat := 1; decide (3300 ≤ dv ∧ dv < 3550 ∧ 1 ≤ ms ∧ s.pwrState = 2 ∧ bit s.power.causes 4 = false))
  && (let dv : Nat := 3550; decide (3550 ≤ dv))
  && (let dv : Nat := 4301; let us : Nat := 100; decide (4300 < dv ∧ 100 ≤ us ∧ s.pwrState ≠ 0 ∧ s.pwrState ≠ 4))
  && (let dv : Nat := 4301; let us : Nat := 99; decide ((dv ≤ 4300 ∨ us < 100)))
  && (let dv : Nat := 4300; let ms : Nat := 10; decide (3600 ≤ dv ∧ dv ≤ 4300 ∧ 10 ≤ ms))
  && (let dv : Nat := 4301; let ms : Nat := 9; decide (4300 < dv ∧ ms < 10))
  && (let k : Nat := 111; let s : State := up.setConv 111 { st := 1, retries := 2 }; let v := s.conv k; decide (isConv k = true ∧ (v.st = 1 ∨ v.st = 2) ∧ k < 112 ∧ v.retries < 3))
  && (let k : Nat := 8; let s : State := (up.setObj 0 0x2100 8 0).setConv 8 { st := 2, retries := 3 }; let v := s.conv k; decide (isConv k = true ∧ (v.st = 1 ∨ v.st = 2) ∧ k < 112 ∧ 3 ≤ v.retries))
  && (let k : Nat := 112; let s : State := up.setConv 112 { st := 2 }; let v := s.conv k; decide (isConv k = true ∧ (v.st = 1 ∨ v.st = 2) ∧ k = 112 ∧ v.retries < 3))
  && (decide (v.st ≠ 1 ∧ v.st ≠ 2))
  && (let k : Nat := 7; let s : State := up.setConv 7 { latched := true }; let v := s.conv k; decide (isConv k = true ∧ v.st = 0 ∧ v.latched = true))
  && (decide ((v.st ≠ 0 ∨ v.latched = false)))
  && (let k : Nat := 103; let s : State := up.setConv 103 { st := 2, retries := 3 }; let v := s.conv k; decide (isConv k = true ∧ v.st = 2))
  && (decide (v.st ≠ 2))
  && (let k : Nat := 111; let s : State := up.setConv 111 { st := 1 }; let v := s.conv k; let pct : Nat := 50; decide (isConv k = true ∧ v.st = 1 ∧ 50 ≤ pct))
  && (let k : Nat := 8; let s : State := up.setConv 8 { st := 1 }; let v := s.conv k; let pct : Nat := 49; decide (isConv k = true ∧ v.st = 1 ∧ pct < 50))
  && (decide (v.st ≠ 1))
  && (let k : Nat := 103; let s : State := base.setConv 103 { st := 3 }; decide (isConv k = true ∧ s.boot.powerGood = false))
  && (decide (s.boot.powerGood = true))
  && (let code : W16 := tripCodes[0]!; decide (code ∈ tripCodes ∧ s.pwrState ≠ 0 ∧ s.pwrState ≠ 4))
  && (let code : W16 := 0x9008#16; decide (code ∉ tripCodes))
  && (let s : State := up.setObj 0 0x2100 8 4; let p : Path := .mgmt; let w : W64 := 1#64; decide (isPath p = true ∧ writable p 0x2100 11 w s ∧ s.pwrState = 4 ∧ s.power.tripCauses = []))
  && (let p : Path := .mgmt; let w : W64 := 1#64; decide (isPath p = true ∧ writable p 0x2100 11 w s ∧ (s.pwrState ≠ 4 ∨ s.power.tripCauses ≠ [])))
  && (let k : Nat := 111; decide (isConv k = true))) = true := by decide +kernel

theorem witness_GovernorAndSensors : (
  let s : State := up
  (let s : State := up.setObj 0 0x2100 8 1; decide (s.pwrState ≠ 2 ∧ s.pwrState ≠ 3))
  && (let s : State := ((List.range 8).foldl (fun (s : State) j => s.setConv j { st := 2 }) (up.setObj 0 0x2100 4 30000)).setObj 0 0x2100 7 0x24; let base : Nat := 10000; let links : Nat := 5000; let mem : Nat := 5000; let comp : Nat := 10000; decide (s.pwrState = 2 ∧ s.pwrCap ≤ 30000 ∧ prioOk (s.obj 0 0x2100 7 0x24) = true ∧ base + links + mem + comp ≤ s.pwrCap ∧ s.pwrCap ≤ s.power.pcool ∧ s.pwrCap ≤ 3750 * s.ibcOn))
  && (let ns : Nat := 1000; decide (1000 ≤ ns ∧ s.pwrState = 2 ∧ bit s.power.causes 0 = false))
  && (let ns : Nat := 999; decide (ns < 1000 ∧ (∀ k ∈ List.range 8, (s.conv k).alert = false)))
  && (let k : Nat := 7; decide (k < 8 ∧ s.pwrState = 2 ∧ bit s.power.causes 0 = false))
  && (let s : State := up.setConv 7 { st := 2, alert := true }; let k : Nat := 7; decide (k < 8 ∧ s.power.alertPin = false ∧ (∀ j ∈ List.range 8, j ≠ k → (s.conv j).alert = false)))
  && (let s : State := ({ up with power := { floorCode := 0x9008#16 } }).setObj 0 0x2100 8 3; decide (s.pwrState = 3 ∧ s.power.causes = 0))
  && (decide ((s.pwrState ≠ 3 ∨ s.power.causes ≠ 0)))
  && (let s : State := up.setComb 479 { duty := 3 }; let c : Nat := 479; decide (isComb c = true ∧ s.floorLevel = false ∧ (s.comb c).duty < s.dutyMax c))
  && (let s : State := up.setComb 479 { duty := 16 }; let c : Nat := 479; decide (isComb c = true ∧ s.floorLevel = false ∧ (s.comb c).duty ≥ s.dutyMax c))
  && (let s : State := up.setComb 479 { duty := 1 }; let c : Nat := 479; decide (isComb c = true ∧ s.floorLevel = false ∧ 0 < (s.comb c).duty))
  && (let s : State := ({ up with power := { causes := 1 } }).setObj 0 0x2100 8 3; let reqs : List (Nat × Bool) := [(0, true), (479, false)]; decide (reqs.all (fun r : Nat × Bool => isComb r.1) = true ∧ s.floorLevel = true))
  && (let tj : List Int := List.replicate 47 300 ++ [1050]; decide (tj.length = 48 ∧ (∃ x ∈ tj, 1050 ≤ x) ∧ s.pwrState ≠ 0 ∧ s.pwrState ≠ 4))
  && (let s : State := up.setObj 0 0x2100 8 1; let tj : List Int := List.replicate 47 300 ++ [900]; decide (tj.length = 48 ∧ (∀ x ∈ tj, x ≤ 900) ∧ s.power.hot = [] ∧ s.pwrState ≠ 2 ∧ s.pwrState ≠ 3))
  && (let s : State := up.setFrame 47 { tj := 300, duty := 3 }; let f : Nat := 47; decide (isFrame f = true ∧ (s.frame f).tj < (s.frameThr f * 10 : Nat) - 20))
  && (let s : State := up.setFrame 47 { tj := 885, duty := 3 }; let f : Nat := 47; decide (isFrame f = true ∧ ((s.frameThr f * 10 : Nat) : Int) - 20 ≤ (s.frame f).tj ∧ (s.frame f).tj < (s.frameThr f * 10 : Nat)))
  && (let s : State := up.setFrame 47 { tj := 951, duty := 3 }; let f : Nat := 47; decide (isFrame f = true ∧ ((s.frameThr f * 10 : Nat) : Int) ≤ (s.frame f).tj))
  && (let f : Nat := 47; let need : Nat := 700; decide (isFrame f = true ∧ vcoreFor (s.frame f) need ≤ 750))
  && (let s : State := up.setFrame 47 { tj := 851 }; let f : Nat := 47; let need : Nat := 800; decide (isFrame f = true ∧ 750 < vcoreFor (s.frame f) need ∧ tget 0 s.power.wearMs f + 1 < 1000))
  && (let s : State := { (up.setFrame 47 { tj := 851 }) with power := { wearMs := [(47, 999)] } }; let f : Nat := 47; let need : Nat := 800; decide (isFrame f = true ∧ 750 < vcoreFor (s.frame f) need ∧ tget 0 s.power.wearMs f = 999 ∧ (s.frame f).wear + 1 ≠ 36000000))
  && (let tin : Int := 350; let tout : Int := 601; let flow : Nat := 160; decide ((pCool tin flow < 4000 ∨ flow < 150 ∨ 600 < tout) ∧ s.pwrState = 2 ∧ bit s.power.causes 3 = false))
  && (let tin : Int := 200; let tout : Int := 600; let flow : Nat := 250; decide (4000 ≤ pCool tin flow ∧ 150 ≤ flow ∧ tout ≤ 600))
  && (let n : Nat := 15; let a : Activity := ⟨some 15, 1000000000, 0, 0, 0, 0, 0, 3⟩; decide (isCtx n = true ∧ a.ctx = some n))) = true := by decide +kernel

theorem witness_ReferencesQualifyAndSwitch : (
  let s : State := up
  let r := s.refs
  (let s : State := { up with refs := { arb := true } }; let r := s.refs; decide (r.arb = true))
  && (let s : State := { up with refs := { goodWins := 1, wins := 98 } }; let r := s.refs; let diff : Int := -5000; decide (r.arb = false ∧ r.stA = 0 ∧ r.stB = 0 ∧ diff.natAbs ≤ 5000 ∧ r.goodWins < 2))
  && (let s : State := { (up.setObj 0 0x2300 3 2) with refs := { goodWins := 2 } }; let r := s.refs; let diff : Int := 5000; decide (r.arb = false ∧ r.stA = 0 ∧ r.stB = 0 ∧ diff.natAbs ≤ 5000 ∧ 2 ≤ r.goodWins))
  && (let s : State := { up with refs := { stA := 1, stB := 1, wins := 7 } }; let r := s.refs; let diff : Int := -5001; decide (r.arb = false ∧ r.stA = 1 ∧ r.stB = 1 ∧ 5000 < diff.natAbs))
  && (let s : State := { up with refs := { arb := true } }; let r := s.refs; let a : Int := -4000; let b : Int := 10001; decide (r.arb = true ∧ r.stA = 0 ∧ r.stB = 0 ∧ a.natAbs < b.natAbs ∧ a.natAbs ≤ 10000))
  && (let s : State := { up with refs := { arb := true } }; let r := s.refs; let a : Int := -14000; let b : Int := 10000; decide (r.arb = true ∧ r.stA = 0 ∧ r.stB = 0 ∧ b.natAbs < a.natAbs ∧ b.natAbs ≤ 10000))
  && (let s : State := { up with refs := { arb := true } }; let r := s.refs; let a : Int := -14000; let b : Int := 10001; decide (r.arb = true ∧ r.stA = 0 ∧ r.stB = 0 ∧ 10000 < a.natAbs ∧ 10000 < b.natAbs))
  && (decide (r.arb = false))
  && (let s : State := { up with refs := { stA := 1, stB := 1 } }; let r := s.refs; decide (r.inUse = false ∧ r.stA = 1 ∧ r.stB = 1 ∧ r.switching = 0))
  && (let s : State := { up with refs := { stA := 1, stB := 2 } }; let r := s.refs; decide (r.inUse = false ∧ r.stA = 1 ∧ r.stB ≠ 1 ∧ r.switching = 0 ∧ s.pwrState ≠ 0 ∧ s.pwrState ≠ 4))
  && (let s : State := { up with refs := { stA := 2, stB := 1 } }; let r := s.refs; decide (r.used ≠ 1))
  && (let s : State := { up with refs := { stA := 2, stB := 1, switching := 1 } }; let r := s.refs; decide (r.switching = 1))
  && (decide (r.switching ≠ 1))
  && (let s : State := { up with refs := { stA := 2, stB := 1, switching := 2 } }; let r := s.refs; decide (r.switching = 2))
  && (decide (r.switching ≠ 2))
  && (let s : State := { (up.setObj 0 0x2300 6 0xFFFFFFFF) with refs := { stA := 2, stB := 1, switching := 3, stopped := true } }; let r := s.refs; decide (r.switching = 3))
  && (decide (r.switching ≠ 3))
  && (let s : State := { up with refs := { stA := 1, stB := 2 } }; let r := s.refs; let p : Path := .mgmt; let v : W64 := 2#64; decide (isPath p = true ∧ writable p 0x2300 3 v s ∧ ((v = 1 ∧ r.stA ≠ 1) ∨ (v = 2 ∧ r.stB ≠ 1))))
  && (let s : State := { up with refs := { stA := 1, stB := 2 } }; let r := s.refs; let p : Path := .mgmt; let v : W64 := 1#64; decide (isPath p = true ∧ writable p 0x2300 3 v s ∧ v = 1 ∧ r.stA = 1 ∧ r.inUse = false))
  && (let s : State := { up with refs := { stA := 1, stB := 1 } }; let r := s.refs; let p : Path := .mgmt; let v : W64 := 2#64; decide (isPath p = true ∧ writable p 0x2300 3 v s ∧ v = 2 ∧ r.stB = 1 ∧ r.inUse = false ∧ r.stA ≠ 0 ∧ r.switching = 0))
  && (let p : Path := .mgmt; let v : W64 := 1#64; decide (isPath p = true ∧ writable p 0x2300 8 v s ∧ (∀ n ∈ List.range 2, (s.pinOf n).func ≠ 2 ∧ (s.pinOf n).next ≠ some 2)))
  && (let s : State := up.setPin 0 { func := 2 }; let p : Path := .mgmt; let v : W64 := 2#64; decide (isPath p = true ∧ writable p 0x2300 8 v s ∧ (s.pinOf 0).func = 2))) = true := by decide +kernel

theorem witness_StartUpReachesRun : (
  let s : State := up
  (let s : State := base; decide (s.boot.powerGood = false))
  && (decide (s.boot.powerGood = true))
  && (let us : Nat := 1000; decide (1000 ≤ us ∧ s.boot.powerGood = true))
  && (let us : Nat := 999; decide ((us < 1000 ∨ s.boot.powerGood = false)))
  && (let s : State := ({ up with boot := { powerGood := true, fw := false } }).setObj 0 0x2C00 1 0; decide (s.boot.powerGood = true ∧ s.boot.fw = false ∧ s.stage ≠ 6))
  && (decide ((s.boot.powerGood = false ∨ s.boot.fw = true ∨ s.stage = 6)))
  && (let s : State := ({ up with boot := { powerGood := true, fw := true, framesUp := 47 } }).setObj 0 0x2C00 1 1|>.setObj 0 0x2100 8 1; decide (s.stage = 1 ∧ s.pwrState = 1 ∧ s.boot.framesUp < 48))
  && (decide ((s.stage ≠ 1 ∨ s.pwrState ≠ 1 ∨ 48 ≤ s.boot.framesUp)))
  && (let s : State := ({ up with boot := { powerGood := true, fw := true, framesUp := 48 } }).setObj 0 0x2C00 1 2; let rs : List SlotRating := [⟨47, 10, .comb⟩, ⟨3, 4, .engine⟩]; decide (rs.all (fun r => isFrame r.frame && decide (r.slot < 11)) = true ∧ s.stage = 2))
  && (let rs : List SlotRating := []; decide (rs.all (fun r => isFrame r.frame && decide (r.slot < 11)) = true ∧ s.stage ≠ 2))
  && (let s : State := ({ up with boot := { powerGood := true, fw := true, framesUp := 48 } }).setObj 0 0x2C00 1 3; let bad : List (Nat × Nat) := [(47, 10)]; decide (bad.all (fun r => isFrame r.1 && decide (r.2 < 11)) = true ∧ s.stage = 3))
  && (let bad : List (Nat × Nat) := []; decide (bad.all (fun r => isFrame r.1 && decide (r.2 < 11)) = true ∧ s.stage ≠ 3))
  && (let s : State := ({ up with boot := { powerGood := true, fw := true, framesUp := 48 } }).setObj 0 0x2C00 1 4; let fw : List Byte := [1, 2]; decide (s.stage = 4 ∧ fw.length ≤ 0x100000))
  && (decide (s.stage ≠ 4 ∧ s.dbgEnding = false))
  && (let s : State := ({ up with boot := { powerGood := true, fw := true, retried := [(47, 10)] } }).setObj 0 0x2C00 1 4; let f : Nat := 47; let slot : Nat := 10; decide (isFrame f = true ∧ slot < 11 ∧ s.stage = 4 ∧ (f, slot) ∉ s.boot.dead ∧ (f, slot) ∉ s.boot.answered))
  && (let s : State := ({ up with boot := { powerGood := true, fw := true, answered := [(47, 10)] } }).setObj 0 0x2C00 1 4; let f : Nat := 47; let slot : Nat := 10; decide (isFrame f = true ∧ slot < 11 ∧ s.stage = 4 ∧ (f, slot) ∉ s.boot.dead ∧ (f, slot) ∉ s.boot.retried))
  && (let s : State := ({ up with boot := { powerGood := true, fw := true, retried := [(47, 10)] } }).setObj 0 0x2C00 1 4; let f : Nat := 47; let slot : Nat := 10; decide (isFrame f = true ∧ slot < 11 ∧ s.stage = 4 ∧ (f, slot) ∉ s.boot.dead ∧ (f, slot) ∈ s.boot.retried))
  && (let s : State := ({ up with boot := { powerGood := true, fw := true, framesUp := 48 } }).setObj 0 0x2C00 1 4|>.setObj 0 0x2100 8 1; decide (s.stage = 4 ∧ s.pwrState = 1))
  && (decide ((s.stage ≠ 4 ∨ s.pwrState ≠ 1)))
  && (let p : Path := .mgmt; decide (isPath p = true ∧ domWritable p 0x2C30 1 s))
  && (let p : Path := .mgmt; let v : W64 := 1#64; decide (isPath p = true ∧ writable p 0x2C30 3 v s))) = true := by decide +kernel

theorem witness_PortsTrainAndRollCall : (
  let q : Nat := 5
  let s : State := up
  let t0 := s.port q
  decide (isTyPort q = true)
  && (let s : State := (up.setConv 111 { st := 2 }); let t0 := s.port q; let lanes : List Nat := List.range 7; let ok := (List.range 96).filter (fun l => lanes.contains l); decide (s.optOn q = true ∧ (t0.st = 0 ∨ t0.st = 1) ∧ ok.length < 8))
  && (let s : State := (up.setConv 111 { st := 2 }); let t0 := s.port q; let lanes : List Nat := [95, 94, 93, 92, 91, 90, 89, 88, 200]; let ok := (List.range 96).filter (fun l => lanes.contains l); decide (s.optOn q = true ∧ (t0.st = 0 ∨ t0.st = 1) ∧ 8 ≤ ok.length))
  && (decide ((s.optOn q = false ∨ (t0.st ≠ 0 ∧ t0.st ≠ 1))))
  && (let s : State := up.setPort 5 { st := 1 }; let t0 := s.port q; decide (t0.st = 1 ∧ t0.light = false))
  && (decide ((t0.st ≠ 1 ∨ t0.light = true)))
  && (let s : State := (up.setConv 111 { st := 2 }).setPort 5 { st := 4 }; let t0 := s.port q; decide (t0.st = 4 ∧ s.optOn q = true))
  && (decide ((t0.st ≠ 4 ∨ s.optOn q = false)))
  && (let p : Path := .mgmt; let v : W64 := 0x820C8621#64; decide (isPath p = true ∧ writable p 0x2C10 1 v s ∧ (∀ k ∈ List.range 6, (s.port k).st ≠ 3) ∧ (bit v.toNat 31 = false ∨ v.toNat % 2 ^ 14 ≠ 0)))
  && (let s : State := up.setPort 0 { st := 3 }; let p : Path := .mgmt; let v : W64 := 0x820C8000#64; decide (isPath p = true ∧ writable p 0x2C10 1 v s ∧ bit v.toNat 31 = true ∧ v.toNat % 2 ^ 14 = 0))
  && (decide (t0.st ≠ 3))
  && (let s : State := up.setPort 5 { st := 3 }; let t0 := s.port q; decide (t0.st = 3 ∧ s.hasPlan = false))
  && (let s : State := (up.setObj 0 0x2C10 1 0x820C8621).setPort 5 { st := 3 }; let t0 := s.port q; let x : Neighbour := (⟨true, 0, 0, 0, 0⟩ : Neighbour); decide (t0.st = 3 ∧ s.hasPlan = true ∧ x.noPlan = true))
  && (let s : State := ((up.setObj 0 0x2C10 3 0x1000000).setObj 0 0x2C10 1 0x820C8621).setPort 5 { st := 3, failed := true }; let t0 := s.port q; let x : Neighbour := (⟨false, s.peerModule 5, fld s.plan 14 14, s.refs.rclkNow, 4⟩ : Neighbour); decide (t0.st = 3 ∧ s.hasPlan = true ∧ x.noPlan = false ∧ s.neighbourOk q x = true))
  && (let s : State := (up.setObj 0 0x2C10 1 0x820C8621).setPort 5 { st := 3 }; let t0 := s.port q; let x : Neighbour := (⟨false, s.peerModule 5, fld s.plan 14 14, s.refs.rclkNow, 5⟩ : Neighbour); decide (t0.st = 3 ∧ s.hasPlan = true ∧ x.noPlan = false ∧ s.neighbourOk q x = false))
  && (decide (s.portPasses q = false))
  && (let s : State := { up.setPort 5 { st := 3, checked := true } with boot := { powerGood := true, fw := true, running := true } }; decide (s.portPasses q = true ∧ s.boot.running = true))
  && (let s : State := (up.setPort 5 { st := 3, checked := true }).setPort 0 { st := 3, checked := true }; decide (s.portPasses q = true ∧ s.boot.running = false))
  && (let s : State := { up with boot := { powerGood := true, fw := true, running := true, asked := [5, 2] } }; let k := 2; decide (s.boot.running = true ∧ s.boot.reported = false ∧ k ≠ q ∧ s.boot.asked = [q, k]))
  && (let s : State := { up with boot := { powerGood := true, fw := true, running := true, asked := [5], parent := some 3, counted := 2 } }; let k := 3; decide (s.boot.running = true ∧ s.boot.reported = false ∧ s.boot.asked = [q] ∧ s.boot.parent = some k))
  && (let s : State := { (up.setObj 0 0x2C10 1 0x820C8000) with boot := { powerGood := true, fw := true, running := true, asked := [5], isRoot := true, counted := 52 } }; decide (s.boot.running = true ∧ s.boot.reported = false ∧ s.boot.asked = [q] ∧ s.boot.parent = none ∧ s.boot.isRoot = true))
  && (decide ((s.boot.running = false ∨ s.boot.reported = true ∨ q ∉ s.boot.asked)))
  && (let s : State := { up with boot := { powerGood := true, fw := true, running := true, asked := [5], parent := some 3, counted := 2 } }; let k := 3; decide (s.boot.running = true ∧ s.boot.reported = false ∧ s.boot.parent = some k))
  && (decide ((s.boot.running = false ∨ s.boot.reported = true)))
  && (let s : State := { (up.setObj 0 0x2C10 1 0x820C8621) with boot := { powerGood := true, fw := true, running := true, parent := some 3 } }; decide (s.boot.running = true ∧ s.boot.parent ≠ none))
  && (decide ((s.boot.running = false ∨ s.boot.parent = none)))
  && (let p : Path := .mgmt; let v : W64 := 1#64; decide (isPath p = true ∧ writable p 0x2C10 4 v s ∧ s.isOrigin = false))
  && (let s : State := (up.setObj 0 0x2C10 1 0x820C8000); let p : Path := .mgmt; let v : W64 := 1#64; decide (isPath p = true ∧ writable p 0x2C10 4 v s ∧ s.isOrigin = true))
  && (let s : State := { up with boot := { powerGood := true, fw := true, rolled := true, parent := some 3 } }; let pts : W64 := 1#64; decide (s.boot.rolled = true ∧ s.boot.parent ≠ none ∧ s.boot.slewAt = none ∧ s.ts < pts))
  && (let s : State := { { up with ts := 5 } with boot := { powerGood := true, fw := true, rolled := true, parent := some 3 } }; let pts : W64 := 1#64; decide (s.boot.rolled = true ∧ s.boot.parent ≠ none ∧ s.boot.slewAt = none ∧ pts < s.ts))
  && (let s : State := { { up with ts := 2504 } with boot := { powerGood := true, fw := true, rolled := true, parent := some 3, slewAt := some 5 } }; let x : W64 := 5#64; decide (s.boot.slewAt = some x ∧ (s.ts - x).toNat < 2500))
  && (decide ((s.boot.rolled = false ∨ s.boot.parent = none)))) = true := by decide +kernel

theorem witness_MaintenanceRuns : (
  let s : State := up
  (let p : Path := .mgmt; let v : W64 := 2#64; decide (isPath p = true ∧ writable p 0x2C20 1 v s ∧ maintReqOk v.toNat = false))
  && (let p : Path := .mgmt; let v : W64 := 0x4#64; decide (isPath p = true ∧ writable p 0x2C20 1 v s ∧ maintReqOk v.toNat = true))
  && (let s : State := { up with maint := [{ ticket := 3, cls := 1, deferred := false, scope := 0 }] }; let t : Nat := 3; let e : Maint := { ticket := 3, cls := 1, deferred := false, scope := 0 }; decide (s.maint.find? (fun e => e.ticket = t && !e.deferred) = some e ∧ e.cls = 1))
  && (let s : State := { up with maint := [{ ticket := 3, cls := 4, deferred := false, scope := 0 }] }; let t : Nat := 3; let e : Maint := { ticket := 3, cls := 4, deferred := false, scope := 0 }; decide (s.maint.find? (fun e => e.ticket = t && !e.deferred) = some e))
  && (let s : State := { up with maint := [{ ticket := 3, cls := 0, deferred := false, scope := 6144 }] }; let t : Nat := 3; let e : Maint := { ticket := 3, cls := 0, deferred := false, scope := 6144 }; decide (s.maint.find? (fun e => e.ticket = t && !e.deferred) = some e ∧ e.cls = 0))
  && (let s : State := { up with maint := [{ ticket := 3, cls := 4, deferred := false, scope := 0 }] }; let t : Nat := 3; let e : Maint := { ticket := 3, cls := 4, deferred := false, scope := 0 }; decide (s.maint.find? (fun e => e.ticket = t && !e.deferred) = some e ∧ (e.cls = 2 ∨ e.cls = 4 ∨ e.cls = 5)))
  && (let t : Nat := 3; decide (s.maint.find? (fun e => e.ticket = t && !e.deferred) = none))
  && (let c : Nat := 0; let region : Bool := false; let s0 := s.maintKick; decide (isComb c = true ∧ s0.remapEntry c region = none))
  && (let s : State := { up with maint := [{ ticket := 3, cls := 4, deferred := false, scope := 6144 }] }; let c : Nat := 0; let region : Bool := true; let s0 := s.maintKick; let e : Maint := { ticket := 3, cls := 4, deferred := false, scope := 6144 }; decide (isComb c = true ∧ s0.remapEntry c region = some e ∧ region = true ∧ s0.regionFree (frameOf c) = true))
  && (let s : State := ({ up with maint := [{ ticket := 3, cls := 4, deferred := false, scope := 6144 }] }).setFrame 0 { regionBad := true }; let c : Nat := 0; let region : Bool := true; let s0 := s.maintKick; let e : Maint := { ticket := 3, cls := 4, deferred := false, scope := 6144 }; decide (isComb c = true ∧ s0.remapEntry c region = some e ∧ region = true ∧ s0.regionFree (frameOf c) = false))
  && (let s : State := (((({ State.reset with maint := [{ ticket := 3, cls := 4, deferred := false, scope := 0 }] } : State).setComb 0 { failing := true }).setConv 8 { st := 2 }).setConv 56 { st := 2 }); let c : Nat := 0; let region : Bool := false; let s0 := s.maintKick; let e : Maint := { ticket := 3, cls := 4, deferred := false, scope := 0 }; decide (isComb c = true ∧ s0.remapEntry c region = some e ∧ region = false ∧ (s.frame (frameOf c)).railLost = false ∧ s.spareFree (frameOf c) = true ∧ s.frameOn (frameOf c) = true))
  && (let s : State := ({ State.reset with maint := [{ ticket := 3, cls := 4, deferred := false, scope := 0 }] } : State).setFrame 0 { combFor := some 3 }; let c : Nat := 0; let region : Bool := false; let s0 := s.maintKick; let e : Maint := { ticket := 3, cls := 4, deferred := false, scope := 0 }; decide (isComb c = true ∧ s0.remapEntry c region = some e ∧ region = false ∧ (s.frame (frameOf c)).railLost = false ∧ s.spareFree (frameOf c) = false))
  && (let f : Nat := 47; decide (isFrame f = true ∧ (s.frame f).copyTo = none))
  && (let s : State := up.setFrame 47 { copyTo := some 9 }; let f : Nat := 47; let sl := 9; decide (isFrame f = true ∧ (s.frame f).copyTo = some sl))) = true := by decide +kernel

theorem witness_ManagementPortServes : (
  let b : Nat := 1
  let s : State := up
  decide (b < 2)
  && (let f : List Byte := []; decide (s.sdoOn b f = false))
  && (let idx : Nat := 0x1017; let sub : Nat := 0; let f := sdoHead 0x40 idx sub ++ List.replicate 4 0; let l := (match s.sdoLoad 0x1017 0 with | (.ok l, _) => l | _ => []); decide (idx < 65536 ∧ sub < 256 ∧ s.mgmt.sdo = none ∧ s.sdoOn b f = true ∧ s.dbgWaits .mgmt idx sub = false ∧ (match s.sdoLoad idx sub with | (.ok x_, _) => decide (x_ = l) | _ => false) = true ∧ 1 ≤ l.length ∧ l.length ≤ 4))
  && (let idx : Nat := 0x1016; let sub : Nat := 9; let f := sdoHead 0x40 idx sub ++ List.replicate 4 0; let r := (match s.sdoLoad 0x1016 9 with | (.error r, _) => r | _ => badState); decide (idx < 65536 ∧ sub < 256 ∧ s.mgmt.sdo = none ∧ s.sdoOn b f = true ∧ s.dbgWaits .mgmt idx sub = false ∧ (match s.sdoLoad idx sub with | (.error x_, _) => decide (x_ = r) | _ => false) = true))
  && (let idx : Nat := 0x1017; let sub : Nat := 0; let d : List Byte := [1, 2]; let f := sdoHead (0x23 + (4 - d.length) * 4) idx sub ++ d ++ List.replicate (4 - d.length) 0; decide (idx < 65536 ∧ sub < 256 ∧ s.mgmt.sdo = none ∧ 1 ≤ d.length ∧ d.length ≤ 4 ∧ s.sdoOn b f = true))
  && (let s : State := { up with mgmt := { nmt := 5, sdo := some { bus := 1, kind := 0, idx := 1, sub := 2 } } }; let x : Sdo := ({ bus := 1, kind := 0, idx := 1, sub := 2 } : Sdo); decide (s.mgmt.sdo = some x))
  && (decide (s.mgmt.sdo = none))
  && (let node : Nat := 127; decide (s.mgmt.nmt ≠ 0 ∧ s.pathOpen .mgmt = true ∧ (node = 0 ∨ node = s.mgmt.node)))
  && (let node : Nat := 5; decide (node ≠ 0 ∧ node ≠ s.mgmt.node))
  && (let s : State := { up with mgmt := { nmt := 5, lss := 1 } }; let n : Byte := 127; decide (s.mgmt.nmt ≠ 0 ∧ s.pathOpen .mgmt = true ∧ s.mgmt.lss = 1 ∧ 1 ≤ n.toNat ∧ n.toNat ≤ 127))
  && (let s : State := { up with mgmt := { nmt := 5, lss := 1 } }; let n : Byte := 128; decide (s.mgmt.nmt ≠ 0 ∧ s.pathOpen .mgmt = true ∧ s.mgmt.lss = 1 ∧ 127 < n.toNat))
  && (decide (s.mgmt.nmt ≠ 0 ∧ s.pathOpen .mgmt = true ∧ s.mgmt.lss = 0))
  && (let k : Nat := 3; decide (k < 4 ∧ (s.mgmt.nmt ≠ 5 ∨ s.tpdoMap k = [])))
  && (let s : State := (up.setObj 0 0x1803 1 0x401).setObj 0 0x1A03 1 0x21000808; let k : Nat := 3; let l := ([2#64] : List W64); let cob := s.obj 0 (0x1800 + k) 1 (s.objDefault (0x1800 + k) 1); decide (k < 4 ∧ s.mgmt.nmt = 5 ∧ s.pathOpen .mgmt = true ∧ s.tpdoMap k ≠ [] ∧ bit cob 31 = false ∧ (match s.readAll .mgmt ((s.tpdoMap k).map (fun v => (v / 65536, fld v 8 8))) with | (.ok x_, _) => decide (x_ = l) | _ => false) = true))
  && (decide (s.mgmt.nmt ≠ 0 ∧ s.pathOpen .mgmt = true ∧ s.obj 0 0x1017 0 1000 ≠ 0))
  && (let s : State := up.setObj 0 0x1017 0 0; decide (s.obj 0 0x1017 0 1000 = 0))
  && (let s : State := { up with mgmt := { nmt := 5, emcy := [(0xFF01#16, 1, 2, 3)] } }; let q : W16 × Nat × Nat × Nat := (0xFF01#16, 1, 2, 3); let l := []; decide (s.mgmt.emcy = q :: l ∧ s.pathOpen .mgmt = true ∧ (s.mgmt.nmt = 5 ∨ s.mgmt.nmt = 127)))
  && (let s : State := { up with mgmt := { nmt := 4, emcy := [(0xFF01#16, 1, 2, 3)] } }; let q : W16 × Nat × Nat × Nat := (0xFF01#16, 1, 2, 3); let l := []; decide (s.mgmt.emcy = q :: l ∧ s.pathOpen .mgmt = true ∧ s.mgmt.nmt = 4))
  && (decide (s.mgmt.emcy = []))
  && (let s : State := { up with grant := some ⟨1, 5, false⟩ }; let v : W64 := 0xFFFFFFFFFFFFFFFF#64; decide (writable .jtag 0x2B20 1 v { s with tapDbg := true }))
  && (let s : State := base; decide (s.boot.fw = false))) = true := by decide +kernel

theorem witness_DictionaryWritesDecide : (
  let p : Path := .mgmt
  let s : State := up
  decide (isPath p = true)
  && (let idx : Nat := 0x1017; let sub : Nat := 0; let v : W64 := 500#64; let t := (scalarEff p idx sub v s).2; decide (writable p idx sub v s ∧ scalarEff p idx sub v s = (none, t)))
  && (let idx : Nat := 0x2300; let sub : Nat := 3; let v : W64 := 1#64; let r := badState; let t := (scalarEff p idx sub v s).2; decide (writable p idx sub v s ∧ scalarEff p idx sub v s = (some r, t)))
  && (let idx : Nat := 0x2300; let sub : Nat := 4; let r := (match s.objCheck p idx sub true with | .error r => r | _ => badState); decide (s.pathOpen p = true ∧ (match s.objCheck p idx sub true with | .error x_ => decide (x_ = r) | _ => false) = true))
  && (let idx : Nat := 0x1017; let sub : Nat := 0; let v : W64 := 0x10000#64; let row := (match objRow idx sub with | some r => r | none => ⟨0, 0, 0, .u8, .ro, .ro⟩); decide (s.pathOpen p = true ∧ (match s.objCheck p idx sub true with | .ok x_ => decide (x_ = row) | _ => false) = true ∧ row.ty.isDom = false ∧ 2 ^ row.ty.width ≤ v.toNat))
  && (let idx : Nat := 0x2D00; let sub : Nat := 1; let v : W64 := 0xFF#64; let row := (match objRow idx sub with | some r => r | none => ⟨0, 0, 0, .u8, .ro, .ro⟩); decide (s.pathOpen p = true ∧ (match s.objCheck p idx sub true with | .ok x_ => decide (x_ = row) | _ => false) = true ∧ row.ty.isDom = false ∧ v.toNat < 2 ^ row.ty.width ∧ objRange idx sub v.toNat = false))
  && (let s : State := (up.setObj 0 0x2C00 1 6); let idx : Nat := 0x2300; let sub : Nat := 3; let v : W64 := 1#64; let row := (match objRow idx sub with | some r => r | none => ⟨0, 0, 0, .u8, .ro, .ro⟩); decide (s.pathOpen p = true ∧ (match s.objCheck p idx sub true with | .ok x_ => decide (x_ = row) | _ => false) = true ∧ row.ty.isDom = false ∧ v.toNat < 2 ^ row.ty.width ∧ objRange idx sub v.toNat = true ∧ s.objOpen p idx sub = false))
  && (let v : W64 := 5000#64; decide (writable p 0x2100 9 v s))
  && (let v : W64 := 15#64; decide (writable p 0x2091 3 v s))
  && (let l : List Byte := [1, 2, 3]; decide (domWritable p 0x2090 1 s ∧ (l.length % 4 ≠ 0 ∨ 256 < l.length)))
  && (let l : List Byte := [0x17, 0x10, 0, 0]; decide (domWritable p 0x2090 1 s ∧ l.length % 4 = 0 ∧ l.length ≤ 256 ∧ (words32 l).findSome? (s.snapBad p) = none))
  && (let l : List Byte := [1, 0, 0xFF, 0xFF]; let r := noIndex; decide (domWritable p 0x2090 1 s ∧ l.length % 4 = 0 ∧ l.length ≤ 256 ∧ (words32 l).findSome? (s.snapBad p) = some r))
  && (let s : State := (up.setDom 17 0x2090 1 [0x17, 0x10, 0, 0]); let v : W64 := 1#64; let l := ([1000#64] : List W64); decide (writable p 0x2090 2 v s ∧ (match s.readAll p (snapEntries (s.dom (pathInst p) 0x2090 1)) with | (.ok x_, _) => decide (x_ = l) | _ => false) = true))
  && (let s : State := ((up.setDom 17 0x2090 1 [2, 0, 0x00, 0x2B]).setObj 17 0x2091 3 255); let v : W64 := 1#64; let r := (match s.readAll p (snapEntries (s.dom (pathInst p) 0x2090 1)) with | (.error l, _) => l | _ => badState); decide (writable p 0x2090 2 v s ∧ (match s.readAll p (snapEntries (s.dom (pathInst p) 0x2090 1)) with | (.error x_, _) => decide (x_ = r) | _ => false) = true))
  && (let idx : Nat := 0x2300; let sub : Nat := 4; decide (persistent idx sub = false))
  && (let s : State := up.setObj 0 0x1017 0 7; let idx : Nat := 0x1017; let sub : Nat := 0; let v := 7; decide (persistent idx sub = true ∧ isDomObj idx sub = false ∧ tget none s.objs (okey 0 idx sub) = some v))
  && (let idx : Nat := 0x2810; let sub : Nat := 2; decide (persistent idx sub = true ∧ isDomObj idx sub = true))
  && (let s : State := (up.setHlp 0 { st := 2 }); let h : Nat := 0; let v : W64 := 0x1012B20#64; decide (isHl h = true ∧ s.pathOpen (.hl h) = true ∧ v.toNat < 2 ^ 25 ∧ bit v.toNat 24 = true))
  && (let s : State := (up.setHlp 0 { st := 2 }); let h : Nat := 0; let v : W64 := 0x2000000#64; decide (isHl h = true ∧ s.pathOpen (.hl h) = true ∧ 2 ^ 25 ≤ v.toNat))
  && (let s : State := (up.setHlp 0 { st := 2, dwSel := 0x1012C30#32, dwStage := [1] }); let h : Nat := 0; let x := s.hlp h; let len : Nat := 65538; let off : Nat := 65536; let buf : List Byte := [3, 4]; decide (isHl h = true ∧ s.pathOpen (.hl h) = true ∧ x.dwStat.toNat % 4 ≠ 3 ∧ off % 65536 = 0 ∧ bit x.dwSel.toNat 24 = true ∧ buf.length ≤ 65536 ∧ len ≤ 0x1000000 ∧ off + buf.length ≤ len))
  && (let s : State := (up.setHlp 0 { st := 2, dwSel := 0x0012C30#32, dwStage := [1, 2] }); let h : Nat := 0; let x := s.hlp h; let off : Nat := 0; decide (isHl h = true ∧ s.pathOpen (.hl h) = true ∧ x.dwStat.toNat % 4 ≠ 3 ∧ off % 65536 = 0 ∧ bit x.dwSel.toNat 24 = false))
  && (let s : State := (up.setHlp 0 { st := 2, dwStat := 3#32 }); let h : Nat := 0; let x := s.hlp h; decide (isHl h = true ∧ s.pathOpen (.hl h) = true ∧ x.dwStat.toNat % 4 = 3))
  && (let s : State := (up.setHlp 0 { st := 2, dwSel := 0x1012090#32, dwStage := [0x17, 0x10, 0, 0], dwLen := 4, dwParts := [(0, 4)] }); let h : Nat := 0; let x := s.hlp h; let s1 := (s.domWrite (.hl h) (x.dwSel.toNat % 65536) (fld x.dwSel.toNat 16 8) (x.dwStage.take x.dwLen)).2; decide (isHl h = true ∧ s.pathOpen (.hl h) = true ∧ bit x.dwSel.toNat 24 = true ∧ x.dwStat.toNat % 4 ≠ 3 ∧ x.dwLen ≤ (x.dwParts.map (·.2)).foldl (· + ·) 0 ∧ s.domWrite (.hl h) (x.dwSel.toNat % 65536) (fld x.dwSel.toNat 16 8) (x.dwStage.take x.dwLen) = (none, s1)))
  && (let s : State := (up.setHlp 0 { st := 2, dwSel := 0x1012090#32, dwStage := [8, 0, 0x21], dwLen := 3, dwParts := [(0, 3)] }); let h : Nat := 0; let x := s.hlp h; let r := badLength; let s1 := (s.domWrite (.hl h) (x.dwSel.toNat % 65536) (fld x.dwSel.toNat 16 8) (x.dwStage.take x.dwLen)).2; decide (isHl h = true ∧ s.pathOpen (.hl h) = true ∧ bit x.dwSel.toNat 24 = true ∧ x.dwStat.toNat % 4 ≠ 3 ∧ x.dwLen ≤ (x.dwParts.map (·.2)).foldl (· + ·) 0 ∧ s.domWrite (.hl h) (x.dwSel.toNat % 65536) (fld x.dwSel.toNat 16 8) (x.dwStage.take x.dwLen) = (some r, s1)))
  && (let s : State := (up.setHlp 0 { st := 2, dwSel := 0x1012090#32, dwStage := [8, 0, 0x21], dwLen := 4, dwParts := [(0, 3)] }); let h : Nat := 0; let x := s.hlp h; decide (isHl h = true ∧ s.pathOpen (.hl h) = true ∧ bit x.dwSel.toNat 24 = true ∧ x.dwStat.toNat % 4 ≠ 3 ∧ (x.dwParts.map (·.2)).foldl (· + ·) 0 < x.dwLen))) = true := by decide +kernel

theorem witness_CountersTraceAndGating : (
  let c : Nat := 0
  let s : State := up
  decide (isComb c = true)
  && (let p : Path := .mgmt; let v : W64 := 1#64; decide (isPath p = true ∧ writable p 0x2A00 18 v s))
  && (let p : Path := .mgmt; let v : W64 := 0#64; decide (isPath p = true ∧ writable p 0x2A20 1 v s ∧ selOk p s v.toNat = true))
  && (let p : Path := .mgmt; let v : W64 := 7#64; decide (isPath p = true ∧ writable p 0x2A20 1 v s ∧ selOk p s v.toNat = false))
  && (let s : State := (up.setObj 17 0x2A20 1 0x0); let v : W64 := 5#64; decide (s.callerComb .mgmt (fld (s.pcSel .mgmt) 3 10) = some c ∧ s.pcSel .mgmt % 8 ≠ 6 ∧ writable .mgmt 0x2A20 3 v s))
  && (let s : State := (up.setObj 17 0x2A20 1 0x0); let v : W64 := 0#64; decide (s.callerComb .mgmt (fld (s.pcSel .mgmt) 3 10) = some c ∧ s.pcSel .mgmt % 8 ≠ 6 ∧ writable .mgmt 0x2A20 4 v s))
  && (let n : Nat := 0; let v : W64 := 0#64; let w := v.toNat; decide (isCtx n = true ∧ writable (.tenant n) 0x2B00 1 v s ∧ (trBase w % 1024 ≠ 0 ∨ trSize w = 0 ∨ 49152 < trSize w ∨ 0x3000000 < trBase w + 1024 * trSize w)))
  && (let s : State := up.setObj 1 0x2B00 1 0x80004000000; let n : Nat := 0; let v : W64 := 0x80008000000#64; let w := v.toNat; let old := s.obj (n + 1) 0x2B00 1 0; decide (isCtx n = true ∧ writable (.tenant n) 0x2B00 1 v s ∧ trBase w % 1024 = 0 ∧ trSize w ≠ 0 ∧ trSize w ≤ 49152 ∧ trBase w + 1024 * trSize w ≤ 0x3000000 ∧ trEn old = true ∧ (trBase w ≠ trBase old ∨ trSize w ≠ trSize old)))
  && (let n : Nat := 0; let v : W64 := 0x30000000000#64; let w := v.toNat; let old := s.obj (n + 1) 0x2B00 1 0; decide (isCtx n = true ∧ writable (.tenant n) 0x2B00 1 v s ∧ trBase w % 1024 = 0 ∧ trSize w ≠ 0 ∧ trSize w ≤ 49152 ∧ trBase w + 1024 * trSize w ≤ 0x3000000 ∧ trEn w = false ∧ trEn old = false))
  && (let n : Nat := 0; let v : W64 := 3#64; decide (isCtx n = true ∧ writable (.tenant n) 0x2B00 2 v s))
  && (let s : State := (up.setObj 1 0x2B00 1 0x0).setArea 0 { trQ := [(⟨7, 1, 2, 3, 9⟩ : TrRec)] }; let n : Nat := 0; let r : TrRec := (⟨7, 1, 2, 3, 9⟩ : TrRec); let l : List TrRec := []; let cfg := s.obj (n + 1) 0x2B00 1 0; decide (s.refs.stopped = false ∧ s.residentAt c = some n ∧ (s.area c).trQ = r :: l ∧ trEn cfg = false))
  && (let s : State := (up.setObj 1 0x2B00 1 0xC0004000000).setArea 0 { trWritten := 60, trQ := [(⟨7, 1, 2, 3, 9⟩ : TrRec)] }; let n : Nat := 0; let r : TrRec := (⟨7, 1, 2, 3, 9⟩ : TrRec); let l : List TrRec := []; let cfg := s.obj (n + 1) 0x2B00 1 0; let a := s.area c; decide (s.refs.stopped = false ∧ s.residentAt c = some n ∧ (s.area c).trQ = r :: l ∧ trEn cfg = true ∧ bit cfg 42 = true ∧ a.trWritten = trRecords cfg))
  && (let s : State := (up.setObj 1 0x2B00 1 0x80004000000).setArea 0 { trQ := [(⟨7, 1, 2, 3, 9⟩ : TrRec)] }; let n : Nat := 0; let r : TrRec := (⟨7, 1, 2, 3, 9⟩ : TrRec); let l : List TrRec := []; let cfg := s.obj (n + 1) 0x2B00 1 0; let a := s.area c; decide (s.refs.stopped = false ∧ s.residentAt c = some n ∧ (s.area c).trQ = r :: l ∧ trEn cfg = true ∧ bit cfg 42 = false ∧ a.trLost = 0 ∧ (a.trWritten + 1) % 4 ≠ 0))
  && (decide ((s.refs.stopped = true ∨ s.residentAt c = none ∨ (s.area c).trQ = [])))
  && (let k : Nat := 0; let ix : Nat := 1; decide (gateUnitOk k ix = true ∧ s.refs.stopped = false ∧ s.unitIdle c k ix = true ∧ tget none (s.area c).gated (gateKey k ix) = none))
  && (let s : State := cellAt 0 {} {} up; let k : Nat := 0; let ix : Nat := 0; decide (gateUnitOk k ix = true ∧ s.refs.stopped = false ∧ s.unitIdle c k ix = false))
  && (let k : Nat := 0; let ix : Nat := 0; decide (gateUnitOk k ix = true ∧ s.refs.stopped = false ∧ tget none (s.area c).gated (gateKey k ix) = none))
  && (let s : State := up.setArea 0 { gated := [(gateKey 0 0, some 3)] }; let k : Nat := 0; let ix : Nat := 0; let x := 3#64; decide (gateUnitOk k ix = true ∧ s.refs.stopped = false ∧ tget none (s.area c).gated (gateKey k ix) = some x))) = true := by decide +kernel

theorem witness_DebugAccessesAndPins : (
  (let p : Path := .mgmt; let s : State := (({ up with grant := some ⟨1, 5, false⟩ }.setObj 17 0x2B20 1 0x8000000000000000)).setEng 0 { active := some 0 }; decide (isPath p = true ∧ s.dbgWaits p 0x2B20 2 = true))
  && (let p : Path := .mgmt; let s : State := ({ up with grant := some ⟨1, 5, false⟩ }.setObj 17 0x2B20 1 0x8000003000007FF8); let t : Tgt := (match s.dbgTarget p with | .ok t => t | .error _ => ⟨none, 0, 0, 0, 0⟩); decide (isPath p = true ∧ readable p 0x2B20 2 s ∧ s.dbgWaits p 0x2B20 2 = false ∧ (match s.dbgTarget p with | .ok x_ => decide (x_ = t) | _ => false) = true ∧ t.space = 3))
  && (let p : Path := .mgmt; let s : State := ({ up with grant := some ⟨1, 5, false⟩ }.setObj 17 0x2B20 1 0x8000001000000000); let t : Tgt := (match s.dbgTarget p with | .ok t => t | .error _ => ⟨none, 0, 0, 0, 0⟩); decide (isPath p = true ∧ readable p 0x2B20 2 s ∧ s.dbgWaits p 0x2B20 2 = false ∧ (match s.dbgTarget p with | .ok x_ => decide (x_ = t) | _ => false) = true ∧ t.space = 1))
  && (let p : Path := .tenant 0; let s : State := ({ base with boot := { powerGood := true, fw := true }, ctxs := [(0, { st := 3, resident := true, wM1 := 1, tdbg := true })] }.setObj 1 0x2B20 1 0x8001000000000000); decide (isPath p = true ∧ readable p 0x2B20 2 s ∧ s.dbgWaits p 0x2B20 2 = false ∧ (match s.dbgTarget p with | .error x_ => decide (x_ = debugDenied) | _ => false) = true))
  && (let p : Path := .mgmt; let s : State := ({ up with grant := some ⟨1, 5, false⟩ }.setObj 17 0x2B20 1 0x8000007000000000); let v : W64 := 1#64; let r := (match s.dbgTarget p with | .error r => r | _ => badState); decide (isPath p = true ∧ writable p 0x2B20 2 v s ∧ (match s.dbgTarget p with | .error x_ => decide (x_ = r) | _ => false) = true))
  && (let p : Path := .mgmt; let s : State := ({ up with grant := some ⟨1, 5, false⟩ }.setObj 17 0x2B20 1 0x8000003000000008); let v : W64 := 1#64; let t : Tgt := (match s.dbgTarget p with | .ok t => t | .error _ => ⟨none, 0, 0, 0, 0⟩); decide (isPath p = true ∧ writable p 0x2B20 2 v s ∧ (match s.dbgTarget p with | .ok x_ => decide (x_ = t) | _ => false) = true ∧ t.space = 3))
  && (let p : Path := .mgmt; let s : State := ({ up with grant := some ⟨1, 5, false⟩ }.setObj 17 0x2B20 1 0x8000004000000000); let v : W64 := 1#64; let t : Tgt := (match s.dbgTarget p with | .ok t => t | .error _ => ⟨none, 0, 0, 0, 0⟩); decide (isPath p = true ∧ writable p 0x2B20 2 v s ∧ (match s.dbgTarget p with | .ok x_ => decide (x_ = t) | _ => false) = true ∧ t.space = 4))
  && (let p : Path := .mgmt; let s : State := ({ up with grant := some ⟨1, 5, false⟩ }.setObj 17 0x2B20 1 0x8000001000000040); let v : W64 := 1#64; let t : Tgt := (match s.dbgTarget p with | .ok t => t | .error _ => ⟨none, 0, 0, 0, 0⟩); let s1 := (s.performWrite (pathCtx p) (match s.dbgTarget p with | .ok t => t | .error _ => ⟨none, 0, 0, 0, 0⟩).c (match s.dbgTarget p with | .ok t => t | .error _ => ⟨none, 0, 0, 0, 0⟩).space (match s.dbgTarget p with | .ok t => t | .error _ => ⟨none, 0, 0, 0, 0⟩).off (leBytes 8 v.toNat) (s.epLow (pathCtx p))).1; decide (isPath p = true ∧ writable p 0x2B20 2 v s ∧ (match s.dbgTarget p with | .ok x_ => decide (x_ = t) | _ => false) = true ∧ t.space ≤ 2 ∧ s.lockWait t = false ∧ s.performWrite (pathCtx p) t.c t.space t.off (leBytes 8 v.toNat) (s.epLow (pathCtx p)) = (s1, none)))
  && (let p : Path := .mgmt; let s : State := (({ up with grant := some ⟨1, 5, false⟩ }.setObj 17 0x2B20 3 0x7C006000)).setSlot ⟨0, 0, 3⟩ { halted := true, running := true }; let c : Nat := 0; let k : Nat := 0; let sl : Nat := 3; let r : Nat := 31; let q := s.obj (pathInst p) 0x2B20 3 0; decide (isPath p = true ∧ q % 8 = 0 ∧ fld q 13 13 = 5 * k + sl ∧ sl < 4 ∧ fld q 26 12 = r ∧ r < 32 ∧ (match s.dbgUnit p q with | .ok x_ => decide (x_ = c) | _ => false) = true ∧ s.slotStill c k sl = true ∧ readable p 0x2B20 4 s))
  && (let p : Path := .mgmt; let s : State := (({ up with grant := some ⟨1, 5, false⟩ }.setObj 17 0x2B20 3 0x6000)).setSlot ⟨0, 0, 3⟩ { halted := true, running := true }; let c : Nat := 0; let k : Nat := 0; let sl : Nat := 3; let r : Nat := 0; let q := s.obj (pathInst p) 0x2B20 3 0; let v : W64 := 5#64; decide (isPath p = true ∧ q % 8 = 0 ∧ fld q 13 13 = 5 * k + sl ∧ sl < 4 ∧ fld q 26 12 = r ∧ r < 32 ∧ (match s.dbgUnit p q with | .ok x_ => decide (x_ = c) | _ => false) = true ∧ s.slotStill c k sl = true ∧ writable p 0x2B20 4 v s))
  && (let p : Path := .mgmt; let s : State := (({ up with grant := some ⟨1, 5, false⟩ }.setObj 17 0x2B20 3 0x7C006000)).setSlot ⟨0, 0, 3⟩ { running := true }; let c : Nat := 0; let k : Nat := 0; let sl : Nat := 3; let r : Nat := 31; let q := s.obj (pathInst p) 0x2B20 3 0; let v : W64 := 5#64; decide (isPath p = true ∧ q % 8 = 0 ∧ fld q 13 13 = 5 * k + sl ∧ sl < 4 ∧ fld q 26 12 = r ∧ r < 32 ∧ (match s.dbgUnit p q with | .ok x_ => decide (x_ = c) | _ => false) = true ∧ s.slotStill c k sl = false ∧ writable p 0x2B20 4 v s))
  && (let p : Path := .mgmt; let s : State := up; decide (isPath p = true ∧ (s.dbgOf p).wait = false))
  && (let p : Path := .jtag; let s : State := ({ up with grant := some ⟨1, 5, false⟩ }.setDbg .jtag { wait := true }); decide (isPath p = true ∧ (s.dbgOf p).wait = true ∧ p ≠ .mgmt))
  && (let p : Path := .mgmt; let s : State := ({ up with grant := some ⟨1, 5, false⟩ }); let v : W64 := 0x6000#64; let n := v.toNat; let c := 0; decide (isPath p = true ∧ writable p 0x2B20 5 v s ∧ (match s.dbgUnit p n with | .ok x_ => decide (x_ = c) | _ => false) = true ∧ fld n 26 2 = 0))
  && (let p : Path := .mgmt; let s : State := (({ up with grant := some ⟨1, 5, false⟩ }.setObj 17 0x2B20 3 0x7C006000)).setSlot ⟨0, 0, 3⟩ { halted := true, running := true }; let v : W64 := 0x4006000#64; let n := v.toNat; let c := 0; decide (isPath p = true ∧ writable p 0x2B20 5 v s ∧ (match s.dbgUnit p n with | .ok x_ => decide (x_ = c) | _ => false) = true ∧ fld n 26 2 = 1))
  && (let p : Path := .mgmt; let s : State := (({ up with grant := some ⟨1, 5, false⟩ }.setObj 17 0x2B20 3 0x7C006000)).setSlot ⟨0, 0, 3⟩ { halted := true, running := true }; let v : W64 := 0x8006000#64; let n := v.toNat; let c := 0; decide (isPath p = true ∧ writable p 0x2B20 5 v s ∧ (match s.dbgUnit p n with | .ok x_ => decide (x_ = c) | _ => false) = true ∧ fld n 26 2 = 2))
  && (let p : Path := .mgmt; let s : State := ({ up with grant := some ⟨1, 5, false⟩ }); let v : W64 := 0x7#64; let n := v.toNat; let r := (match s.dbgUnit p v.toNat with | .error r => r | _ => badState); decide (isPath p = true ∧ writable p 0x2B20 5 v s ∧ (match s.dbgUnit p n with | .error x_ => decide (x_ = r) | _ => false) = true ∧ fld n 26 2 = 0))
  && (let p : Path := .mgmt; let c : Nat := 479; let k : Nat := 636; let sl : Nat := 3; decide (isPath p = true ∧ isSlot ⟨c, k, sl⟩ = true))
  && (let n : Nat := 7; let s : State := up; let old := s.obj 0 0x2D00 (n + 1) 0; let p : Path := .mgmt; let v : W64 := 0x1E#64; let w := v.toNat; decide (isPin n = true ∧ isPath p = true ∧ writable p 0x2D00 (n + 1) v s ∧ w % 8 ≠ old % 8))
  && (let n : Nat := 7; let s : State := (up.setObj 0 0x2D00 8 1).setPin 7 { func := 1 }; let x := s.pinOf n; let old := s.obj 0 0x2D00 (n + 1) 0; let p : Path := .mgmt; let v : W64 := 0x11#64; let w := v.toNat; decide (isPin n = true ∧ isPath p = true ∧ writable p 0x2D00 (n + 1) v s ∧ w % 8 = old % 8 ∧ w % 8 = 1 ∧ x.parked = false ∧ bit w 4 ≠ bit old 4))
  && (let n : Nat := 7; let s : State := (up.setObj 0 0x2D00 8 1).setPin 7 { func := 1 }; let x := s.pinOf n; let old := s.obj 0 0x2D00 (n + 1) 0; let p : Path := .mgmt; let v : W64 := 0x9#64; let w := v.toNat; decide (isPin n = true ∧ isPath p = true ∧ writable p 0x2D00 (n + 1) v s ∧ w % 8 = old % 8 ∧ (w % 8 ≠ 1 ∨ x.parked = true ∨ bit w 4 = bit old 4)))
  && (let n : Nat := 7; let s : State := up; let x := s.pinOf n; decide (isPin n = true ∧ (x.next = none ∨ x.parked = false)))
  && (let n : Nat := 7; let s : State := up.setPin 7 { parked := true, next := some 1 }; let x := s.pinOf n; decide (isPin n = true ∧ x.parked = true ∧ x.next = some 1))
  && (let n : Nat := 7; let s : State := up.setPin 7 { parked := true, next := some 2 }; let x := s.pinOf n; decide (isPin n = true ∧ x.parked = true ∧ x.next = some 2))
  && (let n : Nat := 7; let s : State := up.setPin 7 { parked := true, next := some 3 }; let x := s.pinOf n; decide (isPin n = true ∧ x.parked = true ∧ x.next = some 3))
  && (let n : Nat := 7; let s : State := (up.setPin 7 { func := 3 }).setObj 0 0x2D00 14 0xFFFFFFFF; let x := s.pinOf n; let ns : Nat := 100; decide (isPin n = true ∧ x.func = 3 ∧ x.parked = false ∧ 100 ≤ ns))
  && (let n : Nat := 7; let s : State := up; let x := s.pinOf n; let ns : Nat := 99; decide (isPin n = true ∧ (x.func ≠ 3 ∨ x.parked = true ∨ ns < 100)))
  && (let n : Nat := 7; let s : State := up; decide (isPin n = true ∧ s.pulse = false))
  && (let n : Nat := 7; let s : State := { (up.setPin 7 { func := 4, level := true }) with pulse := true }; decide (isPin n = true ∧ s.pulse = true))
  && (let n : Nat := 7; let s : State := ({ up with grant := some ⟨2, 5, false⟩ }.setPin 7 { func := 6 }); decide (isPin n = true ∧ s.vendorGrant = true ∧ (s.pinOf 7).func = 6 ∧ (s.pinOf 7).parked = false))
  && (let n : Nat := 7; let s : State := up; decide (isPin n = true ∧ s.vendorGrant = false))) = true := by decide +kernel

theorem witness_OwnModuleAddressesStay : (
  (let s : State := up; let a : W64 := 0x8000000000000000#64; let len : Nat := 8; let t : Tgt := (match s.translate (some 0) a len with | .ok t => t | .error _ => ⟨none, 9, 9, 9, 9⟩); let n := (some 0); decide (bit a.toNat 63 = true ∧ (match s.translate n a len with | .ok x_ => decide (x_ = t) | _ => false) = true))
  && (let s : State := up; let a : W64 := 0#64; let len : Nat := 8; let t : Tgt := (match s.translate none a len with | .ok t => t | .error _ => ⟨none, 9, 9, 9, 9⟩); decide (bit a.toNat 63 = false ∧ fld a.toNat 49 14 = s.ownModule ∧ (match s.translate none a len with | .ok x_ => decide (x_ = t) | _ => false) = true))
  && (let s : State := up.setCtx 0 { up.ctx 0 with mods := [0x80000000#32] }; let a : W64 := 0#64; let len : Nat := 8; let t : Tgt := (match s.translate (some 0) a len with | .ok t => t | .error _ => ⟨none, 9, 9, 9, 9⟩); let n := 0; decide (bit a.toNat 63 = false ∧ (s.ctx n).modEntry (fld a.toNat 49 14) % 2 ^ 14 = s.ownModule ∧ (match s.translate (some n) a len with | .ok x_ => decide (x_ = t) | _ => false) = true))
  && (let s : State := up.setCtx 0 { up.ctx 0 with mods := [0x80000000#32] }; let a : W64 := 0#64; let len : Nat := 8; let t : Tgt := (match s.translate (some 0) a len with | .ok t => t | .error _ => ⟨none, 9, 9, 9, 9⟩); let n := 0; decide (bit a.toNat 63 = false ∧ (s.ctx n).modEntry (fld a.toNat 49 14) % 2 ^ 14 = s.ownModule ∧ (match s.translate (some n) a len with | .ok x_ => decide (x_ = t) | _ => false) = true ∧ fld ((s.ctx n).modEntry (fld a.toNat 49 14)) 14 4 = n))) = true := by decide +kernel

theorem witness_CombsStandInFrames : (
  let cx : Nat := 39
  let cy : Nat := 11
  decide (cx < 40 ∧ cy < 12)) = true := by decide +kernel

theorem witness_capWrite : ∃ (p : Path) (v : W64) (s : State), isPath p = true ∧ writable p 0x2100 4 v s = true := by
  refine ⟨.mgmt, 16000#64, up, rfl, ?_⟩
  have hc : 16000 ≤ capW := by unfold capW; split <;> decide
  have h : objRange 0x2100 4 (16000#64 : W64).toNat = true := by
    show (decide (4000 ≤ 16000) && decide (16000 ≤ capW)) = true
    rw [decide_eq_true hc]; rfl
  unfold writable
  rw [h]
  decide +kernel
theorem witness_lssMatch : ∃ (v : W32) (s : State), s.mgmt.nmt ≠ 0 ∧ s.pathOpen .mgmt = true ∧ s.mgmt.lss = 0 ∧ s.mgmt.lssMatch = 3
    ∧ v.toNat = s.objVal .mgmt 0x1018 4 := by
  refine ⟨BitVec.ofNat 32 (Config.dsn.toNat % 2 ^ 32), { up with mgmt := { nmt := 5, lssMatch := 3 } }, by decide +kernel, by decide +kernel, rfl, rfl, ?_⟩
  exact (BitVec.toNat_ofNat _ 32).trans (Nat.mod_mod _ _)
theorem witness_longFirmware : ∃ fw : List Byte, 0x100000 < fw.length :=
  ⟨List.replicate 0x100001 0, by rw [List.length_replicate]; decide⟩
/-- The states in which the clauses of IdleStepCountsTs, OwnModuleAddressesStay and StepKeepsReferences start exist; a well-formed command
and an ill-formed one too. -/
theorem witness_wf : (Instr.cAdd u0).wf = true ∧ (Instr.cAdd ⟨480, 0, 0⟩).wf = false := by decide +kernel
theorem witness_refs : refsOk up.refs ∧ gives (step up) (fun _ => true) = true := by decide +kernel

end
end Sys2Proof.Tests
end

section
/-! PROOFS. When a command runs: every meaning is an effect behind the test that its operands name units of the part. -/

open Sys2Proof Sys2Proof.Machine

namespace Sys2Proof.Proofs

@[simp] theorem onUnit_true (s : State) : onUnit true s = .next s := rfl
@[simp] theorem onUnit_false (s : State) : onUnit false s = .fault .noSuchUnit := rfl

/-- No meaning is refused, and in none does the state decide whether it runs: its only test is the one that `Instr.wf` makes of the same
command (R4, R11-R15, R28; the stop itself is log entry 13). -/
theorem exec_eq_onUnit_wf (i : Instr) (s : State) : ∃ t, exec i s = onUnit i.wf t := by
  cases i
  -- The command has no operand that names a unit: its meaning is a bare `.next`, without a test.
  case pktParse | pktHop | pktAccept | ackReceive | nackReceive | busyReceive | dataReceive | wakeReceive | retxTimeout | rxEntryExpire
      | ackIntervalExpire | eventPost | dbgGrantFillDone | dbgGrantExpire | dbgEndingDone | elogIntake | inputUndervoltage
      | inputOvervoltage | inputRecover | vkeepOff | lockoutClear | trip | governorTick | pwrAlertPin | floorExit | coolantTick | energyTick
      | oscQualifyWindow | oscArbitrationDone | refEdgeLoss | refSwitchStart | refSwitchStop | refSwitchRestart | powerGood | firmwareBoot
      | frameRaise | swarmBroadcast | moduleReady | resetNAssert | rollDeadline | rollCount | tsSyncTick | maintActivityEnd | sdoTimeout
      | nmtCommand | lssCommand | heartbeatProduce | emcySend | persistStore | jtagUpdateDr | jtagTrst | stepSyncPulseEnd | uartReceive =>
    exact ⟨_, (onUnit_true _).symm⟩
  -- Every other meaning is `onUnit` of the command's test, an instruction of a Worker Cell through `cellRun`.
  all_goals exact ⟨_, rfl⟩

/-- Settles O3: by `exec_eq_onUnit_wf` the test `Instr.wf` alone decides between a next state and the fault. -/
theorem commandsRunOrNameNoUnit : Obligations.CommandsRunOrNameNoUnit := by
  unfold Obligations.CommandsRunOrNameNoUnit
  constructor
  · intro i s hwf
    obtain ⟨t, ht⟩ := exec_eq_onUnit_wf i s
    exact ⟨t, by rw [ht, hwf, onUnit_true]⟩
  · intro i s hwf
    obtain ⟨t, ht⟩ := exec_eq_onUnit_wf i s
    rw [ht, hwf, onUnit_false]

end Sys2Proof.Proofs
end

section
/-! PROOFS. Where a logical Comb stands in its Frame (R14), and which addresses stay on the module (R31). -/

open Sys2Proof Sys2Proof.Machine

namespace Sys2Proof.Proofs

/-- Settles O60: `cy % 2` and `cx % 5` are the place of the Comb in the 5 × 2 grid of its Frame. -/
theorem combsStandInFrames : Obligations.CombsStandInFrames := by
  unfold Obligations.CombsStandInFrames
  intro cx cy hx hy
  have hcx : cxOf (cy * 40 + cx) = cx := by unfold cxOf; omega
  have hcy : cyOf (cy * 40 + cx) = cy := by unfold cyOf; omega
  have hf : frameOf (cy * 40 + cx) = cy / 2 * 8 + cx / 5 := by rw [frameOf, hcx, hcy]
  have hs : slotOf (cy * 40 + cx) = 5 * (cy % 2) + cx % 5 := by rw [slotOf, hcx, hcy]
  refine ⟨hf, ?_, ?_, ?_⟩
  · rw [hs]; omega
  · rw [hs]; omega
  · rw [hf, hs, combAt]; omega

/-- `LOCAL` is bit 63 and no other (R28). -/
theorem toNat_or_local (a : W64) : (a ||| 0x8000000000000000#64).toNat = a.toNat ||| 2 ^ 63 := BitVec.toNat_or ..

theorem bit_eq_testBit (v i : Nat) : bit v i = v.testBit i := (Nat.testBit_eq_decide_div_mod_eq ..).symm

theorem bit_or_local (a : W64) : bit (a ||| 0x8000000000000000#64).toNat 63 = true := by
  rw [bit_eq_testBit, toNat_or_local, Nat.testBit_or, Nat.testBit_two_pow_self, Bool.or_true]

/-- Setting `LOCAL` leaves what an address holds below bit 63 as it was. -/
theorem mod_or_local (a : W64) {k : Nat} (h : k ≤ 63) :
    (a ||| 0x8000000000000000#64).toNat % 2 ^ k = a.toNat % 2 ^ k := by
  rw [toNat_or_local, Nat.or_mod_two_pow, Nat.mod_eq_zero_of_dvd (Nat.pow_dvd_pow 2 h), Nat.or_zero]

theorem fld_or_local (a : W64) {lo w : Nat} (h : lo + w ≤ 63) :
    fld (a ||| 0x8000000000000000#64).toNat lo w = fld a.toNat lo w := by
  have low (v : Nat) : fld v lo w = v % 2 ^ (lo + w) / 2 ^ lo := by
    rw [fld, Nat.pow_add, Nat.mod_mul_right_div_self]
  rw [low, low, mod_or_local a h]

/-- An address with `LOCAL` set reaches no other module, and the context number is the issuer's own. -/
theorem toModule_local (s : State) (n : Option Nat) (vm : Nat) : s.toModule n true vm = .ok (none, n.getD 0) := by
  cases n <;> rfl

/-- The module of a translated address is the one its `LOCAL` bit and module fields name. -/
theorem translate_toModule {s : State} {n : Option Nat} {a : W64} {len : Nat} {t : Tgt} (h : s.translate n a len = .ok t) :
    s.toModule n (bit a.toNat 63) (fld a.toNat 49 14) = .ok (t.rem, t.ctx) := by
  unfold State.translate at h
  cases hm : s.toModule n (bit a.toNat 63) (fld a.toNat 49 14) with
  | error e =>
    simp only [hm] at h
    split at h <;> cases h
  | ok m =>
    simp only [hm] at h
    -- Every branch that answers `.ok` answers the module and context of `m`.
    repeat' split at h
    all_goals cases h
    all_goals rfl

/-- Setting `LOCAL` changes a translation only through the module it names. -/
theorem translate_or_local {s : State} {n : Option Nat} {a : W64} (len : Nat)
    (h : s.toModule n (bit a.toNat 63) (fld a.toNat 49 14) = .ok (none, n.getD 0)) :
    s.translate n (a ||| 0x8000000000000000#64) len = s.translate n a len := by
  simp only [State.translate, bit_or_local, toModule_local, h, mod_or_local a (show 36 ≤ 63 by decide),
    fld_or_local a (show 36 + 3 ≤ 63 by decide), fld_or_local a (show 43 + 6 ≤ 63 by decide), fld_or_local a (show 39 + 4 ≤ 63 by decide)]

/-- An operator's address that names the issuing module goes where the same address with `LOCAL` goes. -/
theorem toModule_own_operator {s : State} {vm : Nat} {m : Option Nat × Nat} (hv : vm = s.ownModule)
    (h : s.toModule none false vm = .ok m) : m = (none, 0) := by
  simp only [State.toModule, hv, if_true, Bool.false_eq_true, if_false] at h
  split at h <;> cases h
  rfl

/-- A tenant's address whose module table entry names the issuing module stays there, in the context the entry names. -/
theorem toModule_own_tenant {s : State} {n vm : Nat} {m : Option Nat × Nat} (hv : (s.ctx n).modEntry vm % 2 ^ 14 = s.ownModule)
    (h : s.toModule (some n) false vm = .ok m) : m = (none, fld ((s.ctx n).modEntry vm) 14 4) := by
  simp only [State.toModule, hv, if_true, Bool.false_eq_true, if_false] at h
  split at h <;> cases h
  rfl

/-- Settles O57: by `translate_toModule` the module is the one `toModule` answers, and by `translate_or_local` nothing else
depends on `LOCAL`. -/
theorem ownModuleAddressesStay : Obligations.OwnModuleAddressesStay := by
  unfold Obligations.OwnModuleAddressesStay
  intro s a len t
  refine ⟨?_, ?_, ?_⟩
  · intro n hl h
    have hm := translate_toModule h
    rw [hl, toModule_local] at hm
    exact (congrArg Prod.fst (Except.ok.inj hm)).symm
  · intro hl hv h
    have hm := translate_toModule h
    have e := toModule_own_operator hv (hl ▸ hm)
    rw [e] at hm
    exact ⟨congrArg Prod.fst e, (translate_or_local len hm).trans h⟩
  · intro n hl hv h
    have hm := translate_toModule h
    have e := toModule_own_tenant hv (hl ▸ hm)
    refine ⟨congrArg Prod.fst e, fun hn => ?_⟩
    rw [e, hn] at hm
    exact (translate_or_local len hm).trans h

end Sys2Proof.Proofs
end

section
/-! PROOFS. Global loads and stores of a Worker slot that no release holds (R176, R189, R215, R249): one lemma for each way an
access ends. -/

open Sys2Proof Sys2Proof.Machine Sys2Proof.Claims

namespace Sys2Proof.Proofs

theorem heldOr_free {x : WSlot} (h : x.held = false) (r : CRes) : heldOr x r = r := by simp [heldOr, h]

/-- Only cell memory waits for a locked sequence (R192). -/
theorem lockWait_space0 {t : Tgt} (s : State) (h : t.space = 0) : s.lockWait t = false := by simp [State.lockWait, h]

/-- A load that may be sent leaves as a request packet, and the slot remembers it. -/
theorem loadRemote_sends {s : State} {u : SlotRef} {t : Tgt} (h : s.canSend (.worker u.comb u.cell u.slot) (s.dstOf t) 0 = true)
    (addr : W64) (d : Nat) (wide fills : Bool) (off len : Nat) :
    s.loadRemote u t addr d wide fills off len =
      .next ((s.newReq.2.setSlot u { s.slot u with pend := (s.slot u).pend ++ [⟨s.newReq.1, d, wide, addr, (s.slot u).pc, fills⟩] }).sendPkt
        (.worker u.comb u.cell u.slot)
        { dst := s.dstOf t, cls := 0, ptype := 4, ctx := t.ctx, space := t.space, off := off, len := len, reqId := s.newReq.1 }) := by
  simp only [State.loadRemote, h, Bool.not_true, Bool.false_eq_true, if_false]
  rfl

/-- Bytes that an access of the instruction `w` moves. -/
abbrev accBytes (w : Nat) : Nat := if bit w 0 then 8 else 4
/-- The bytes that a store `w` writes. -/
abbrev storeBytes (x : WSlot) (w : Nat) : List Byte :=
  if bit w 0 then leBytes 8 (x.pair (wD w)).toNat else leBytes 4 (x.s (wD w)).toNat

section GlobalAccess

variable {u : SlotRef} {s : State} {w : Nat} (hh : (now s u).held = false)
include hh

theorem gld_untranslated (h : issues .gld u s w) {e : W16}
    (ht : (fetched s u).translate ((fetched s u).residentAt u.comb) ((now s u).pair (wA w)) (accBytes w) = .error e) :
    exec (.cGld u) s = stops s u e := by
  change execCGld u s = _
  rw [execCGld, cellRun_fetched h, slot_fetched, heldOr_free hh, ht, cellEnd_fault]

theorem gst_untranslated (h : issues .gst u s w) {e : W16}
    (ht : (fetched s u).translate ((fetched s u).residentAt u.comb) ((now s u).pair (wA w)) (accBytes w) = .error e) :
    exec (.cGst u) s = stops s u e := by
  change execCGst u s = _
  rw [execCGst, cellRun_fetched h, slot_fetched, heldOr_free hh, ht, cellEnd_fault]

variable {t : Tgt}
  (ht : (fetched s u).translate ((fetched s u).residentAt u.comb) ((now s u).pair (wA w)) (accBytes w) = .ok t)
include ht

theorem gld_own_counter (h : issues .gld u s w) (hb : (fetched s u).ownBehind u = false) (ho : t.own u.comb = true)
    (hs : t.space = 3) (hw : bit w 0 = true) :
    exec (.cGld u) s = .next (retire s u ((now s u).setPair (wD w) (BitVec.ofNat 64 (((fetched s u).area t.c).counter (t.off / 8))))) := by
  change execCGld u s = _
  rw [execCGld, cellRun_fetched h, slot_fetched, heldOr_free hh, ht]
  simp [ho, hb, hs, hw, cellEnd_retire]

theorem gld_own_memory (h : issues .gld u s w) (hb : (fetched s u).ownBehind u = false) (ho : t.own u.comb = true)
    (hs : t.space = 0) (hl : t.off % 64 + accBytes w ≤ 64)
    (hr : (now s u).rb.find? (fun l => l.line = lineKey t) = none) {b : List Byte} {f : State}
    (hp : (fetched s u).performRead ((fetched s u).residentAt u.comb) t.c 0 (t.off / 64 * 64) 64 [] = (.ok b, f)) :
    exec (.cGld u) s = done s u (f.setSlot u
      (((f.slot u).setLoad (wD w) (bit w 0) ((b.drop (t.off % 64)).take (accBytes w))).fill (lineKey t) b)) := by
  change execCGld u s = _
  rw [execCGld, cellRun_fetched h, slot_fetched, heldOr_free hh, ht]
  simp [-now_rb, ho, hb, hs, hl, hr, hp, lockWait_space0, cellEnd_next]

theorem gld_buffered_line (h : issues .gld u s w) (hb : (fetched s u).ownBehind u = false) (hs : t.space = 0)
    (hl : t.off % 64 + accBytes w ≤ 64) {l : RdLine} (hr : (now s u).rb.find? (fun l => l.line = lineKey t) = some l) :
    exec (.cGld u) s = .next (retire s u
      (((now s u).setLoad (wD w) (bit w 0) ((l.data.drop (t.off % 64)).take (accBytes w))).fill (lineKey t) l.data)) := by
  change execCGld u s = _
  rw [execCGld, cellRun_fetched h, slot_fetched, heldOr_free hh, ht]
  simp [-now_rb, hb, hs, hl, hr, cellEnd_retire]

theorem gld_other_comb (h : issues .gld u s w) (ho : t.own u.comb = false) (hs : t.space = 0) (hl : t.off % 64 + accBytes w ≤ 64)
    (hr : (now s u).rb.find? (fun l => l.line = lineKey t) = none)
    (hc : (fetched s u).canSend (.worker u.comb u.cell u.slot) ((fetched s u).dstOf t) 0 = true) :
    exec (.cGld u) s = done s u (((fetched s u).newReq.2.setSlot u { now s u with
        pend := (now s u).pend ++ [⟨(fetched s u).newReq.1, wD w, bit w 0, (now s u).pair (wA w), (now s u).pc, true⟩] }).sendPkt
      (.worker u.comb u.cell u.slot)
      { dst := (fetched s u).dstOf t, cls := 0, ptype := 4, ctx := t.ctx, space := 0, off := t.off / 64 * 64, len := 64,
        reqId := (fetched s u).newReq.1 }) := by
  change execCGld u s = _
  rw [execCGld, cellRun_fetched h, slot_fetched, heldOr_free hh, ht]
  simp [-now_rb, ho, hs, hl, hr, loadRemote_sends hc, cellEnd_next]

theorem gst_own_memory (h : issues .gst u s w) (hb : (fetched s u).ownBehind u = false) (ho : t.own u.comb = true)
    (hs : t.space = 0) {f : State}
    (hp : (fetched s u).performWrite ((fetched s u).residentAt u.comb) t.c 0 t.off (storeBytes (now s u) w)
      ((fetched s u).epLow ((fetched s u).residentAt u.comb)) = (f, none)) :
    exec (.cGst u) s = done s u (f.setSlot u ((f.slot u).storeThrough t (storeBytes (now s u) w))) := by
  change execCGst u s = _
  rw [execCGst, cellRun_fetched h, slot_fetched, heldOr_free hh, ht]
  simp [-now_pair, -now_s, ho, hb, hs, hp, lockWait_space0, cellEnd_next]

theorem gst_other_comb (h : issues .gst u s w) (ho : t.own u.comb = false) (hs : t.space = 0)
    (hc : (fetched s u).canSend (.worker u.comb u.cell u.slot) ((fetched s u).dstOf t) 0 = true) :
    exec (.cGst u) s = done s u ((((fetched s u).newReq.2.setSlot u
        ((((fetched s u).newReq.2.slot u).storeThrough t (storeBytes (now s u) w)).issue (fetched s u).newReq.1)).writeIssued
          ((fetched s u).residentAt u.comb) ((fetched s u).epLow ((fetched s u).residentAt u.comb))).sendPkt (.worker u.comb u.cell u.slot)
      { dst := (fetched s u).dstOf t, cls := 0, ptype := 1, ctx := t.ctx, space := 0, off := t.off, payload := storeBytes (now s u) w,
        epochLo := (fetched s u).epLow ((fetched s u).residentAt u.comb), reqId := (fetched s u).newReq.1 }) := by
  change execCGst u s = _
  rw [execCGst, cellRun_fetched h, slot_fetched, heldOr_free hh, ht]
  simp [-now_pair, -now_s, ho, hs, hc, cellEnd_next]

/-- A plain store does not reach a counter (R271). -/
theorem gst_counter (h : issues .gst u s w) (hb : (fetched s u).ownBehind u = false) (hs : t.space = 3) :
    exec (.cGst u) s = stops s u 0x4403#16 := by
  change execCGst u s = _
  rw [execCGst, cellRun_fetched h, slot_fetched, heldOr_free hh, ht]
  simp [hb, hs, cellEnd_fault]

end GlobalAccess

/-- Settles O13: the clauses are the ways in which an access of a slot that no release holds ends. -/
theorem globalLoadsAndStores : Obligations.GlobalLoadsAndStores := by
  unfold Obligations.GlobalLoadsAndStores
  intro u s w held
  have hh : (now s u).held = false := (now_held s u).trans held
  refine ⟨?_, ?_, ?_, ?_, ?_, ?_, ?_, ?_, ?_⟩
  · intro h e ht
    exact gld_untranslated hh h ht
  · intro h e ht
    exact gst_untranslated hh h ht
  · intro h hb t ht ho hs hw
    exact gld_own_counter hh ht h hb ho hs hw
  · intro h hb t b f ht ho hs hl hr hp
    exact gld_own_memory hh ht h hb ho hs hl hr hp
  · intro h hb t l ht hs hl hr
    exact gld_buffered_line hh ht h hb hs hl hr
  · intro h hb t f ht ho hs hp
    exact gst_own_memory hh ht h hb ho hs hp
  · intro h t ht ho hs hc
    exact gst_other_comb hh ht h ho hs hc
  · intro h hb t ht hs
    exact gst_counter hh ht h hb hs
  · intro h t ht ho hs hl hr hc
    rw [gld_other_comb hh ht h ho hs hl hr hc, ← slot_fetched s u]
    rfl

end Sys2Proof.Proofs
end

section
/-! PROOFS. What the shared operations on reports, events, dictionary values and maintenance leave unchanged, and how a
write of the dictionary ends as a command. -/

open Sys2Proof Sys2Proof.Machine Sys2Proof.Claims Sys2Proof.Laws

namespace Sys2Proof.Proofs

variable {s t : State}

/-! Dictionary values -/

theorem obj_setObj_same (i idx sub d : Nat) {v : Nat} (h : v < 2 ^ 64) : (s.setObj i idx sub v).obj i idx sub d = v := by
  simpa [State.obj, State.setObj] using h

theorem obj_setObj_ne {i idx sub j jdx jsub : Nat} (h : okey j jdx jsub ≠ okey i idx sub) (v d : Nat) :
    (s.setObj i idx sub v).obj j jdx jsub d = s.obj j jdx jsub d := by
  simp [State.obj, State.setObj, tget_tput_ne _ _ _ h]

/-- The command of a write that passes the tests of R490 and that the object's own rule accepts. -/
theorem onUnit_write_accepts {p : Path} {idx sub : Nat} {v : W64} {eff : Eff} (hp : isPath p = true) (h : writable p idx sub v s)
    (he : eff s = (none, t)) : onUnit (isPath p) (s.writeAnswer p idx sub v eff) = accepts p idx sub t := by
  rw [hp, onUnit_true, write_accepted h he]; rfl

theorem onUnit_write_refuses {p : Path} {idx sub : Nat} {v : W64} {eff : Eff} {r : Refuse} (hp : isPath p = true)
    (h : writable p idx sub v s) (he : eff s = (some r, t)) :
    onUnit (isPath p) (s.writeAnswer p idx sub v eff) = refuses p idx sub r t := by
  rw [hp, onUnit_true, write_refused h he]; rfl

/-- The same for a write of a DOMAIN. -/
theorem onUnit_dom_accepts {p : Path} {idx sub : Nat} {eff : Eff} (hp : isPath p = true) (h : domWritable p idx sub s)
    (he : eff s = (none, t)) : onUnit (isPath p) (s.domAnswer p idx sub eff) = accepts p idx sub t := by
  rw [hp, onUnit_true, dom_accepted h he]; rfl

theorem onUnit_dom_refuses {p : Path} {idx sub : Nat} {eff : Eff} {r : Refuse} (hp : isPath p = true)
    (h : domWritable p idx sub s) (he : eff s = (some r, t)) :
    onUnit (isPath p) (s.domAnswer p idx sub eff) = refuses p idx sub r t := by
  rw [hp, onUnit_true, dom_refused h he]; rfl

/-! Reports: a lost one is counted in 0x2900:03, a lost record in 0x2920:04 (R406, R410) -/

@[simp] theorem report_combs (r : Report) : (s.report r).combs = s.combs := by unfold State.report; split <;> rfl
@[simp] theorem report_ctxs (r : Report) : (s.report r).ctxs = s.ctxs := by unfold State.report; split <;> rfl
@[simp] theorem report_frames (r : Report) : (s.report r).frames = s.frames := by unfold State.report; split <;> rfl
@[simp] theorem report_maint (r : Report) : (s.report r).maint = s.maint := by unfold State.report; split <;> rfl
@[simp] theorem report_events (r : Report) : (s.report r).events = s.events := by unfold State.report; split <;> rfl
@[simp] theorem report_comb (r : Report) (c : Nat) : (s.report r).comb c = s.comb c := by simp [State.comb]
@[simp] theorem report_ctx (r : Report) (n : Nat) : (s.report r).ctx n = s.ctx n := by simp [State.ctx]
theorem report_obj (r : Report) {i idx sub : Nat} (h : okey i idx sub ≠ okey 0 0x2900 3) (d : Nat) :
    (s.report r).obj i idx sub d = s.obj i idx sub d := by
  unfold State.report
  split
  · rfl
  · exact obj_setObj_ne h _ d

section Cper

variable (r : Report) (phase action sev : Nat) (boot : Bool)

@[simp] theorem cperAdd_combs : (s.cperAdd r phase action sev boot).combs = s.combs := by unfold State.cperAdd; dsimp only; split <;> rfl
@[simp] theorem cperAdd_frames : (s.cperAdd r phase action sev boot).frames = s.frames := by unfold State.cperAdd; dsimp only; split <;> rfl
@[simp] theorem cperAdd_maint : (s.cperAdd r phase action sev boot).maint = s.maint := by unfold State.cperAdd; dsimp only; split <;> rfl
@[simp] theorem cperAdd_comb (c : Nat) : (s.cperAdd r phase action sev boot).comb c = s.comb c := by simp [State.comb]
@[simp] theorem cperAdd_frame (f : Nat) : (s.cperAdd r phase action sev boot).frame f = s.frame f := by simp [State.frame]
theorem cperAdd_obj {i idx sub : Nat} (h : okey i idx sub ≠ okey 0 0x2920 4) (d : Nat) :
    (s.cperAdd r phase action sev boot).obj i idx sub d = s.obj i idx sub d := by
  unfold State.cperAdd
  dsimp only
  split
  · exact obj_setObj_ne h _ d
  · rfl

end Cper

section Event

variable (n : Option Nat) (code : W16) (c m : Nat) (res : W64)

@[simp] theorem event_comb (j : Nat) : (s.event n code c m res).comb j = s.comb j := rfl
@[simp] theorem event_ctx (j : Nat) : (s.event n code c m res).ctx j = s.ctx j := rfl
@[simp] theorem event_maint : (s.event n code c m res).maint = s.maint := rfl
theorem event_events : (s.event n code c m res).events = s.events ++ [⟨n, code, c, m, res, s.faultEpoch n⟩] := rfl

end Event

/-! Owners -/

/-- A context that does not exist owns no Comb. -/
theorem owns_unused {n : Nat} (h : (s.ctx n).st = 0) (c : Nat) : s.owns n c = false := by simp [State.owns, h]

theorem ownedByAny_of_no_context (h : ∀ n, n < 16 → (s.ctx n).st = 0) (c : Nat) : s.ownedByAny c = false := by
  simp only [State.ownedByAny, List.any_eq_false, List.mem_range]
  intro n hn
  simp [owns_unused (h n hn)]

theorem heldGranule_of_no_context (h : ∀ n, n < 16 → (s.ctx n).st = 0) (c g : Nat) : s.heldGranule c g = false := by
  simp only [State.heldGranule, List.any_eq_false, List.mem_range]
  intro n hn
  simp [State.holds, owns_unused (h n hn)]

/-! Maintenance -/

/-- A request that finds the arbiter empty and waits for no owner runs at once (R467). -/
theorem maintAsk_idle {m : Maint} (h : s.maint = []) (hw : s.maintWaits m = false) :
    s.maintAsk m = (some { m with ticket := s.ticket % 256, deferred := false },
      { s with ticket := s.ticket + 1, maint := [{ m with ticket := s.ticket % 256, deferred := false }] }) := by
  simp [State.maintAsk, h, hw]

theorem maintEnd_only {e : Maint} (h : s.maint = [e]) : s.maintEnd e.ticket = { s with maint := [] } := by
  simp [State.maintEnd, h, maintStart]

theorem maintAbort_idle (h : s.maint = []) (c : Nat) : s.maintAbort c = s := by
  simp only [State.maintAbort, h, List.filter_nil, maintStart, List.foldl_nil]
  rw [← h]

end Sys2Proof.Proofs
end

section
/-! PROOFS. Pattern bundles (R403 to R405). -/

open Sys2Proof Sys2Proof.Machine Sys2Proof.Claims Sys2Proof.Laws

namespace Sys2Proof.Proofs

variable {s : State}

/-- The image is taken where the vendor signed it and it is no older than the one held (R403). -/
theorem pbImageWrite_answer {p : Path} {img : List Byte} (hp : isPath p = true) (h : domWritable p 0x2910 1 s)
    (hl : img.length ≤ 16777216) : exec (.pbImageWrite p img) s =
      (if Config.vendorSigned img = false then refuses p 0x2910 1 (ownCode 0x8006#16) s
       else if (Config.bundleVersion img).toNat < s.obj 0 0x2910 2 0 then refuses p 0x2910 1 (ownCode 0xB007#16) s
       else accepts p 0x2910 1 ((s.setDom 0 0x2910 1 img).setObj 0 0x2910 2 (Config.bundleVersion img).toNat)) := by
  change onUnit (isPath p) (s.domAnswer p 0x2910 1 (pbImageEff img)) = _
  have hl' : ¬ 16777216 < img.length := by omega
  cases hs : Config.vendorSigned img with
  | false => exact onUnit_dom_refuses hp h (by simp [pbImageEff, hl', hs])
  | true =>
    rw [if_neg (by decide)]
    split
    · next hv => exact onUnit_dom_refuses hp h (by simp [pbImageEff, hl', hs, hv])
    · next hv => exact onUnit_dom_accepts hp h (by simp [pbImageEff, hl', hs, hv])

/-- A run over a rectangle that leaves the grid is refused (R404). -/
theorem pbRunEff_outside {v : W64} (h : 40 ≤ fld v.toNat 0 6 + fld v.toNat 10 6 ∨ 12 ≤ fld v.toNat 6 4 + fld v.toNat 16 4) :
    pbRunEff v s = (some badValue, s) := by
  simp only [pbRunEff, h, if_true]

/-- A run over an owned Comb is refused, and the refusal names a Comb (R404). -/
theorem pbRunEff_owned {v : W64} (h : ¬ (40 ≤ fld v.toNat 0 6 + fld v.toNat 10 6 ∨ 12 ≤ fld v.toNat 6 4 + fld v.toNat 16 4))
    {c : Nat} (hc : c ∈ rectCombs v.toNat) (ho : s.ownedByAny c = true) : ∃ d,
      pbRunEff v s = (some { ownCode 0xB008#16 with comb := some d }, s.setObj 0 0x2910 4 (3 + 0xB008 * 65536)) := by
  cases hf : (rectCombs v.toNat).find? (fun c => s.ownedByAny c || (List.range 80).any (fun g => s.heldGranule c g)) with
  | none => simpa [ho] using List.find?_eq_none.mp hf c hc
  | some d => exact ⟨d, by simp only [pbRunEff, h, if_false, hf]; rfl⟩

/-- A run over a rectangle inside the grid, while no context exists and the arbiter is empty, starts at once (R404). -/
theorem pbRunEff_starts {v : W64} (h : ¬ (40 ≤ fld v.toNat 0 6 + fld v.toNat 10 6 ∨ 12 ≤ fld v.toNat 6 4 + fld v.toNat 16 4))
    (hn : ∀ n, n < 16 → (s.ctx n).st = 0) (hm : s.maint = []) :
    pbRunEff v s = (none, (({ s with
        ticket := s.ticket + 1
        maint := [{ ticket := s.ticket % 256, cls := 2, deferred := false, scope := v.toNat % 2 ^ 21 }] }).setObj 0 0x2910 4 0).maintResult
      (s.ticket % 256) 0 0) := by
  have hf : (rectCombs v.toNat).find? (fun c => s.ownedByAny c || (List.range 80).any (fun g => s.heldGranule c g)) = none := by
    simp [ownedByAny_of_no_context hn, heldGranule_of_no_context hn]
  simp only [pbRunEff, h, if_false, hf]
  rw [maintAsk_idle hm (by simp [State.maintWaits])]
  rfl

/-- Marking Frames changes the Frames alone. -/
theorem foldl_setFrame (g : State → Nat → Frame) (l : List Nat) (s : State) :
    ∃ fr, l.foldl (fun s f => s.setFrame f (g s f)) s = { s with frames := fr } := by
  induction l generalizing s with
  | nil => exact ⟨s.frames, rfl⟩
  | cons f l ih =>
    obtain ⟨fr, h⟩ := ih (s.setFrame f (g s f))
    exact ⟨fr, h⟩

/-- What ends with the bundle, whose rectangle has the defects `found`: its activity leaves the arbiter, the status and the number of
defects show, and then each defect acts (R405, R418). -/
theorem pbDone_shows {e : Maint} {ds found : List Defect} (hm : s.maint = [e]) (hc : e.cls = 2) (hd : e.deferred = false)
    (hw : bit e.scope 20 = false) (hk : ds.filter (fun d => e.combs.contains d.comb) = found) (hlen : found.length < 2 ^ 64) :
    ∃ t, s.pbDone ds = found.foldl State.defectActs t ∧ t.maint = [] ∧ t.combs = s.combs
      ∧ (∀ d, t.obj 0 0x2910 4 d = 2) ∧ ∀ d, t.obj 0 0x2910 5 d = found.length := by
  simp only [State.pbDone, hm, List.find?_cons, hc, hd, hw, hk, maintEnd_only hm, decide_true, Bool.not_false, Bool.and_self,
    Bool.false_eq_true, if_false]
  obtain ⟨fr, hfr⟩ := foldl_setFrame _ _ _
  refine ⟨_, rfl, ?_⟩
  rw [hfr]
  refine ⟨rfl, rfl, fun d => ?_, fun d => ?_⟩
  · exact (obj_setObj_ne (by decide) _ d).trans (obj_setObj_same _ _ _ d (by decide))
  · exact obj_setObj_same _ _ _ d hlen

/-- An Engine's defect puts its Comb in Fallback and leaves its memory, the arbiter and the result of the run (R405). -/
theorem defectActs_engine (s : State) (c : Nat) :
    ((s.defectActs { comb := c, kind := .engine }).eng c).fallback = true
    ∧ ((s.defectActs { comb := c, kind := .engine }).area c).mem = (s.area c).mem
    ∧ (s.defectActs { comb := c, kind := .engine }).maint = s.maint
    ∧ ∀ d, (s.defectActs { comb := c, kind := .engine }).obj 0 0x2910 5 d = s.obj 0 0x2910 5 d := by
  refine ⟨?_, ?_, ?_, fun d => ?_⟩
  · simp [State.defectActs, State.eng, State.area]
  · simp [State.defectActs, State.area]
  · simp [State.defectActs]
  · exact (cperAdd_obj _ _ _ _ _ (by decide) d).trans (report_obj _ (by decide) d)

/-- A run over a rectangle of no owner enters the arbiter and is answered (R404). -/
theorem pbRun_starts {p : Path} {v : W64} (hp : isPath p = true) (h : writable p 0x2910 3 v s)
    (hg : ¬ (40 ≤ fld v.toNat 0 6 + fld v.toNat 10 6 ∨ 12 ≤ fld v.toNat 6 4 + fld v.toNat 16 4))
    (hn : ∀ n, n < 16 → (s.ctx n).st = 0) (hm : s.maint = []) :
    Gives (.pbRun p v) s (fun t => t.obj 0 0x2910 4 1 = 0 ∧ t.outs = .answer p 0x2910 3 0 0 :: s.outs
      ∧ t.maint = [{ ticket := s.ticket % 256, cls := 2, deferred := false, scope := v.toNat % 2 ^ 21 }]) := by
  refine ⟨_, onUnit_write_accepts hp h (pbRunEff_starts hg hn hm), ?_, rfl, rfl⟩
  exact (obj_setObj_ne (by decide) _ 1).trans (obj_setObj_same _ _ _ 1 (by decide))

section RunDone

variable {e : Maint} (hm : s.maint = [e]) (hc : e.cls = 2) (hd : e.deferred = false) (hw : bit e.scope 20 = false)
include hm hc hd hw

/-- The end of a run that found nothing (R405). -/
theorem pbRunDone_clean : Gives (.pbRunDone []) s
    (fun t => t.maint = [] ∧ t.obj 0 0x2910 4 0 = 2 ∧ t.obj 0 0x2910 5 1 = 0 ∧ t.combs = s.combs) := by
  obtain ⟨t, ht, hmaint, hcombs, hst, hcount⟩ := pbDone_shows (found := []) (ds := []) hm hc hd hw rfl (Nat.two_pow_pos 64)
  exact ⟨t, congrArg Host.Outcome.next ht, hmaint, hst 0, hcount 1, hcombs⟩

/-- The end of a run that found a defect of one Engine of the rectangle (R405). -/
theorem pbRunDone_engine {c : Nat} (hcomb : isComb c = true) (hin : e.combs.contains c = true) :
    Gives (.pbRunDone [{ comb := c, kind := .engine }]) s (fun t =>
      t.maint = [] ∧ t.obj 0 0x2910 5 0 = 1 ∧ (t.eng c).fallback = true ∧ (t.area c).mem = (s.area c).mem) := by
  have hf : [({ comb := c, kind := .engine } : Defect)].filter (fun d => e.combs.contains d.comb) = [{ comb := c, kind := .engine }] := by
    simp only [List.filter_cons, hin, if_true, List.filter_nil]
  obtain ⟨t, ht, hmaint, hcombs, -, hcount⟩ := pbDone_shows hm hc hd hw hf (show 1 < 2 ^ 64 by decide)
  obtain ⟨hfb, hmem, hma, hob⟩ := defectActs_engine t c
  have hrun : exec (.pbRunDone [{ comb := c, kind := .engine }]) s = .next (t.defectActs { comb := c, kind := .engine }) := by
    change onUnit _ _ = _
    rw [ht, List.all_cons, hcomb]; rfl
  have harea : (t.area c).mem = (s.area c).mem := by rw [State.area, State.comb, hcombs]; rfl
  exact ⟨_, hrun, hma.trans hmaint, (hob 0).trans (hcount 0), hfb, hmem.trans harea⟩

end RunDone

/-- A report that the bundle ended while none runs changes nothing (log entry 11). -/
theorem pbRunDone_idle (hm : s.maint = []) : exec (.pbRunDone []) s = .next s := by
  change onUnit true (s.pbDone []) = _
  simp [State.pbDone, hm]

end Sys2Proof.Proofs
end

section
/-! PROOFS. The failure of a Comb (R24, R413 to R415). -/

open Sys2Proof Sys2Proof.Machine Sys2Proof.Claims Sys2Proof.Laws

namespace Sys2Proof.Proofs

variable {s : State}

/-- An event at a Comb of the grid has its effect. -/
theorem onUnit_comb {c : Nat} (hc : isComb c = true) (t : State) : onUnit (isComb c) t = .next t := by rw [hc, onUnit_true]

/-! Fences that fail -/

/-- Recording the first code of each of `es`: an epoch of `es` without a code has it afterwards. -/
theorem tget_firstCode {code : W16} (hc : code ≠ 0) {e : Nat} : ∀ (es : List Nat) (t : Tbl W16),
    (tget 0 t e = code ∨ (e ∈ es ∧ tget 0 t e = 0)) →
      tget 0 (es.foldl (fun t e => if tget 0 t e = 0 then tset 0 t e code else t) t) e = code
  | [], t, h => by simpa using h
  | a :: es, t, h => by
    rw [List.foldl_cons]
    apply tget_firstCode hc es
    by_cases hae : e = a
    · subst hae
      left
      rcases h with h | ⟨-, h⟩
      · rw [if_neg (h ▸ hc), h]
      · rw [if_pos h]; exact tget_tset_same 0 t e code
    · have keep : tget 0 (if tget 0 t a = 0 then tset 0 t a code else t) e = tget 0 t e := by
        split
        · exact tget_tset_ne 0 t code hae
        · rfl
      rw [keep]
      exact h.imp_right fun ⟨hm, h0⟩ => ⟨(List.mem_cons.mp hm).resolve_left hae, h0⟩

@[simp] theorem failAll_comb (n : Nat) (code : W16) (c : Nat) : (s.failAll n code).comb c = s.comb c := rfl
@[simp] theorem failAll_events (n : Nat) (code : W16) : (s.failAll n code).events = s.events := rfl
@[simp] theorem failAll_maint (n : Nat) (code : W16) : (s.failAll n code).maint = s.maint := rfl

/-- Where every fence of a context fails with a code, each uncommitted epoch without a code has it (R259). -/
theorem failAll_failed {n : Nat} {code : W16} (hc : code ≠ 0) {e : Nat} (he : e ∈ (s.ctx n).uncommitted)
    (h0 : tget 0 (s.ctx n).failed e = 0) : tget 0 ((s.failAll n code).ctx n).failed e = code := by
  simp only [State.failAll, State.failEpochs, State.ctx_setCtx_same, List.filter_true]
  exact tget_firstCode hc _ _ (.inr ⟨he, h0⟩)

/-! Segments lost on the Scheduled Links -/

theorem slNeighbour_ne {c d c' : Nat} (h : slNeighbour c d = some c') : c' ≠ c := by
  unfold slNeighbour cxOf cyOf at h
  split_ifs at h <;> cases h <;> omega

/-- What happens to the neighbours of a Comb leaves the Comb itself, the contexts, the events and the arbiter as they were. -/
theorem loseSegments_keeps (s : State) (c : Nat) : (s.loseSegments c).comb c = s.comb c ∧ (s.loseSegments c).ctxs = s.ctxs
    ∧ (s.loseSegments c).events = s.events ∧ (s.loseSegments c).maint = s.maint := by
  refine List.foldlRecOn (motive := fun x : State => x.comb c = s.comb c ∧ x.ctxs = s.ctxs ∧ x.events = s.events ∧ x.maint = s.maint)
    _ _ ⟨rfl, rfl, rfl, rfl⟩ fun x hx d _ => ?_
  split
  · next c' hn =>
    refine ⟨?_, hx.2⟩
    rw [← hx.1, State.setArea, State.comb_setComb, if_neg (slNeighbour_ne hn).symm]
  · exact hx

/-! The failure (R414, R415) -/

/-- Step 1 of R414: the Comb is fenced, segments in flight to it are lost, and its failure is reported. -/
def fenced (s : State) (c : Nat) (r : Report) : State := ((s.setComb c { s.comb c with failing := true }).loseSegments c).report r

@[simp] theorem fenced_comb (c : Nat) (r : Report) : (fenced s c r).comb c = { s.comb c with failing := true } := by
  rw [fenced, report_comb, (loseSegments_keeps _ c).1, State.comb_setComb_same]
@[simp] theorem fenced_ctx (c : Nat) (r : Report) (n : Nat) : (fenced s c r).ctx n = s.ctx n := by
  rw [fenced, report_ctx, State.ctx, (loseSegments_keeps _ c).2.1]; rfl
@[simp] theorem fenced_events (c : Nat) (r : Report) : (fenced s c r).events = s.events := by
  rw [fenced, report_events, (loseSegments_keeps _ c).2.2.1]; rfl
@[simp] theorem fenced_maint (c : Nat) (r : Report) : (fenced s c r).maint = s.maint := by
  rw [fenced, report_maint, (loseSegments_keeps _ c).2.2.2]; rfl

/-- Steps 1 and 2 of R414 for a Comb with one owner: the owner gets the event, its fences fail, and activities over the Frame end. -/
theorem combFails_one_owner {c n : Nat} (hl : (s.comb c).lost = false) (hf : (s.comb c).failing = false)
    (ho : s.failedOwners c = [n]) : ∃ r, s.combFails c =
      (((fenced s c r).event (some n) 0xB009#16 c (masterField (.service c))
        (if s.spareFree (frameOf c) && s.frameOn (frameOf c) then 1 else 0)).failAll n 0xB009#16).maintAbort c := by
  unfold State.combFails
  simp only [ho, List.isEmpty_cons, Bool.false_eq_true, if_false, List.foldl_cons, List.foldl_nil]
  rw [if_neg (by simp [hl, hf])]
  exact ⟨_, rfl⟩

theorem combFail_one_owner {c n : Nat} (hc : isComb c = true) (h4 : 4 ≤ (s.comb c).misses) (hl : (s.comb c).lost = false)
    (hf : (s.comb c).failing = false) (hm : s.maint = []) (ho : s.failedOwners c = [n]) : Gives (.combFail c) s (fun t =>
      (t.comb c).failing = true ∧ (t.comb c).lost = false
      ∧ (∀ e ∈ (s.ctx n).uncommitted, tget 0 (s.ctx n).failed e = 0 → tget 0 (t.ctx n).failed e = 0xB009#16)
      ∧ t.events = s.events ++ [⟨some n, 0xB009#16, c, masterField (.service c),
          if s.spareFree (frameOf c) = true ∧ s.frameOn (frameOf c) = true then 1 else 0, s.faultEpoch (some n)⟩]) := by
  obtain ⟨r, hr⟩ := combFails_one_owner hl hf ho
  have hrun : exec (.combFail c) s = .next (s.combFails c) := (onUnit_comb hc _).trans (congrArg Host.Outcome.next (if_pos h4))
  rw [Gives, hrun, hr, maintAbort_idle (by rw [failAll_maint, event_maint, fenced_maint, hm])]
  refine ⟨_, rfl, ?_, ?_, ?_, ?_⟩
  · rw [failAll_comb, event_comb, fenced_comb]
  · rw [failAll_comb, event_comb, fenced_comb]; exact hl
  · intro e he h0
    apply failAll_failed (by decide)
    · rw [event_ctx, fenced_ctx]; exact he
    · rw [event_ctx, fenced_ctx]; exact h0
  · simp only [failAll_events, event_events, fenced_events, State.faultEpoch, fenced_ctx, Bool.and_eq_true]

/-- What the loss of a Comb's own state leaves: its region, its marks, and an owner's area that holds nothing (R279, R415). -/
theorem combZero_comb (s : State) (c : Nat) : ((s.combZero c).comb c).failing = false ∧ ((s.combZero c).comb c).misses = 0
    ∧ ((s.combZero c).comb c).lost = (s.comb c).lost ∧ ((s.combZero c).comb c).mw = (s.comb c).mw
    ∧ ((s.combZero c).area c).mem = {} ∧ ((s.combZero c).area c).workers = [] := by
  have hdrop := List.foldlRecOn (motive := fun m : Comb => m.lost = (s.comb c).lost ∧ m.mw = (s.comb c).mw) (s.failedOwners c)
    (fun m n => m.dropTraffic n) (b := s.comb c) ⟨rfl, rfl⟩ fun _ h _ _ => h
  have hself : (s.combZero c).comb c = _ := State.comb_setComb_same _ c _
  rw [State.area, hself]
  exact ⟨rfl, rfl, hdrop.1, hdrop.2, rfl, rfl⟩

/-- The spare of a powered Frame takes the place of the failed Comb (R414). -/
theorem spareJoin_spare {c : Nat} (hf : (s.comb c).failing = true) (hs : s.spareFree (frameOf c) = true)
    (ho : s.frameOn (frameOf c) = true) :
    (s.spareJoin c).comb c = { (s.combZero c).comb c with refusing := !(s.failedOwners c).isEmpty }
    ∧ ((s.spareJoin c).frame (frameOf c)).combFor = some (slotOf c) := by
  unfold State.spareJoin
  simp only [hf, hs, ho, Bool.not_true, Bool.false_eq_true, if_false, Bool.and_self, if_true]
  constructor
  · rw [cperAdd_comb, State.comb_setFrame', State.comb_setComb_same]
  · rw [cperAdd_frame, State.frame_setFrame_same]

/-- A lost Comb is marked; the events that the other owners get leave it and the Frames as they are (R24, R415). -/
theorem combLost_marks (s : State) (c phase : Nat) (boot : Bool) :
    (s.combLost c phase boot).comb c = { (s.combZero c).comb c with lost := true } ∧ (s.combLost c phase boot).frames = s.frames := by
  unfold State.combLost
  rw [cperAdd_comb, cperAdd_frames]
  exact List.foldlRecOn (motive := fun x : State => x.comb c = { (s.combZero c).comb c with lost := true } ∧ x.frames = s.frames) _ _
    ⟨State.comb_setComb_same _ c _, rfl⟩ fun _ h _ _ => h

/-- The owner's packets are refused until its next launch (R414). -/
theorem combSpareJoinDone_spare {c : Nat} (hc : isComb c = true) (hf : (s.comb c).failing = true) (hl : (s.comb c).lost = false)
    (hs : s.spareFree (frameOf c) = true) (ho : s.frameOn (frameOf c) = true) : Gives (.combSpareJoinDone c) s (fun t =>
      (t.frame (frameOf c)).combFor = some (slotOf c) ∧ (t.comb c).failing = false ∧ (t.comb c).lost = false ∧ (t.comb c).misses = 0
      ∧ (t.comb c).refusing = !(s.failedOwners c).isEmpty ∧ (t.area c).mem = {} ∧ (t.area c).workers = []
      ∧ (t.comb c).mw = (s.comb c).mw) := by
  obtain ⟨hfail, hmiss, hlost, hmw, hmem, hwork⟩ := combZero_comb s c
  obtain ⟨hcomb, hframe⟩ := spareJoin_spare hf hs ho
  refine ⟨s.spareJoin c, onUnit_comb hc _, hframe, ?_⟩
  rw [State.area, hcomb]
  exact ⟨hfail, hlost.trans hl, hmiss, rfl, hmem, hwork, hmw⟩

/-- Without a free spare the Comb is lost; its region and the Frames stay (R24, R414, R415). -/
theorem combSpareJoinDone_lost {c : Nat} (hc : isComb c = true) (hf : (s.comb c).failing = true)
    (hs : s.spareFree (frameOf c) = false) : Gives (.combSpareJoinDone c) s (fun t =>
      (t.comb c).lost = true ∧ (t.comb c).failing = false ∧ (t.comb c).mw = (s.comb c).mw ∧ t.frames = s.frames) := by
  obtain ⟨hfail, -, -, hmw, -, -⟩ := combZero_comb s c
  obtain ⟨hcomb, hframes⟩ := combLost_marks s c 2 false
  have hjoin : s.spareJoin c = s.combLost c 2 false := by simp [State.spareJoin, hf, hs]
  exact ⟨_, (onUnit_comb hc _).trans (congrArg Host.Outcome.next hjoin), congrArg Comb.lost hcomb,
    (congrArg Comb.failing hcomb).trans hfail, (congrArg Comb.mw hcomb).trans hmw, hframes⟩

/-- Settles O36: the clauses of R403 to R405, then those of R413 to R415. -/
theorem bundlesAndCombFailures : Obligations.BundlesAndCombFailures := by
  unfold Obligations.BundlesAndCombFailures
  constructor
  · intro p s hp
    refine ⟨fun img h hl => pbImageWrite_answer hp h hl, fun v h => ⟨?_, ?_, ?_⟩, ?_, pbRunDone_idle⟩
    · exact fun hg => onUnit_write_refuses hp h (pbRunEff_outside hg)
    · exact fun hx hy hn hm => pbRun_starts hp h (by omega) hn hm
    · intro c hx hy hc ho
      obtain ⟨d, hd⟩ := pbRunEff_owned (s := s) (by omega) hc ho
      exact ⟨d, onUnit_write_refuses hp h hd⟩
    · exact fun e hm hc hd hw => ⟨pbRunDone_clean hm hc hd hw, fun c hcomb hin => pbRunDone_engine hm hc hd hw hcomb hin⟩
  · intro c s hc
    refine ⟨?_, ?_, ?_, ?_, ?_, ?_, ?_, ?_⟩
    · exact onUnit_comb hc _
    · exact fun h4 => (onUnit_comb hc _).trans (congrArg Host.Outcome.next (if_pos h4))
    · exact onUnit_comb hc _
    · exact fun h4 => (onUnit_comb hc _).trans (congrArg Host.Outcome.next (if_neg (by omega)))
    · exact fun n h4 hl hf hm ho => combFail_one_owner hc h4 hl hf hm ho
    · exact fun hf hl hs ho => combSpareJoinDone_spare hc hf hl hs ho
    · exact fun hf hs => combSpareJoinDone_lost hc hf hs
    · exact fun hf => (onUnit_comb hc _).trans (by simp [State.spareJoin, hf])

end Sys2Proof.Proofs
end

section
/-! PROOFS. Quantise, slice, dequantise and Ellipsis expansion (R45, R181 to R186). -/

open Sys2Proof Sys2Proof.Machine Sys2Proof.Claims

namespace Sys2Proof.Proofs

variable {u : SlotRef} {s : State} {w : Nat}

/-- The source block is of the vector registers alone, which fetching leaves as they were (R172, R181). -/
@[simp] theorem qSource_now (w : Nat) (s : State) (u : SlotRef) : qSource w (now s u) = qSource w (s.slot u) := by
  simp only [qSource, now_vec]

/-! What each operation does to the registers of the slot -/

/-- Rounding to nearest draws nothing: the random state stays (R51, R182). -/
theorem qntOp_nearest (x : WSlot) (hr : bit w 4 = false) (hg : bit w 5 = false) :
    qntOp w x =
      let q := quantBlock (fld w 0 2) false none ((qSource w x).map fv) ((qSource w x).map fun _ => 0)
      (x.setVec (wD w) (bitLanes (packCodes (fmtW (fld w 0 2)) q.2))).setS (wB w) (BitVec.ofNat 32 q.1) := by
  simp [qntOp, hr, hg, Function.comp_def]

/-- Stochastic rounding draws once per element of the block, and the random state moves on by as many steps (R52, R182, R185). -/
theorem qntOp_stochastic (x : WSlot) (hr : bit w 4 = true) (hg : bit w 5 = false) :
    qntOp w x =
      let r := rngDraws (qSource w x).length x.rng
      let q := quantBlock (fld w 0 2) true none ((qSource w x).map fv) r.1
      (({ x with rng := r.2 } : WSlot).setVec (wD w) (bitLanes (packCodes (fmtW (fld w 0 2)) q.2))).setS (wB w)
        (BitVec.ofNat 32 q.1) := by
  simp [qntOp, hr, hg]

/-- Where the high slice is no NaN block, the low slice is the residual, quantised under a scale of its own (R45, R183). -/
theorem qslOp_residual (x : WSlot)
    (hn : (quantBlock (fld w 0 2) false none ((qSource w x).map fv) ((qSource w x).map fun _ => 0)).1 ≠ 255) :
    qslOp w x =
      let f := fld w 0 2
      let src := qSource w x
      let zero := src.map fun _ => 0
      let hi := quantBlock f false none (src.map fv) zero
      let res := (src.zip hi.2).map fun p => faddP 24 (fv p.1) (fnegV (fv (dequant f hi.1 p.2)))
      let lo := quantBlock f false none (res.map fv) zero
      ((x.setVec (wD w) (bitLanes (packCodes (fmtW f) hi.2))).setVec (wD w + 1) (bitLanes (packCodes (fmtW f) lo.2))).setS (wB w)
        (BitVec.ofNat 32 (hi.1 + 256 * lo.1)) := by
  simp only [qslOp, if_neg hn]

/-- A block of 16 fills one vector register (R184). -/
theorem dqtOp_short (x : WSlot) (hg : bit w 2 = true) :
    dqtOp w x = x.setVec (wD w) ((unpackCodes (fmtW (fld w 0 2)) 16 (wnum (x.vec (wA w)))).map
      (dequant (fld w 0 2) ((x.s (wB w)).toNat % 256))) := by
  simp [dqtOp, hg]

/-- A block of 32 fills a pair of vector registers (R184). -/
theorem dqtOp_long (x : WSlot) (hg : bit w 2 = false) :
    dqtOp w x =
      let l := (unpackCodes (fmtW (fld w 0 2)) 32 (wnum (x.vec (wA w)))).map
        (dequant (fld w 0 2) ((x.s (wB w)).toNat % 256))
      (x.setVec (wD w) (l.take 16)).setVec (wD w + 1) (l.drop 16) := by
  simp [dqtOp, hg]

/-! Ellipsis expansion (R186): a group is 2 or 4 values with as many 3-bit indices, and the word gives each group its limit of columns -/

/-- The groups' faults (log entry 22): the range of the indices (0x2002) before their order (0x2003). -/
def spxFaults (w : Nat) (x : WSlot) : Option W16 × Option W16 :=
  let n := if bit w 0 then 2 else 4
  let ix := (List.range (2 * n)).map fun j => fld (x.s (wB w)).toNat (3 * j) 3
  let lim (t : Nat) := if t = 0 then 8 else t
  (groupFault (ix.take n) (lim (fld w 3 3)), groupFault (ix.drop n) (lim (fld w 6 3)))

/-- The columns of both groups, the first group's in the low lanes. -/
def spxColumns (w : Nat) (x : WSlot) : List W32 :=
  let n := if bit w 0 then 2 else 4
  let vs := ((x.vec (wA w)).drop (2 * n * fld w 1 2)).take (2 * n)
  let ix := (List.range (2 * n)).map fun j => fld (x.s (wB w)).toNat (3 * j) 3
  spread (ix.take n) (vs.take n) ++ spread (ix.drop n) (vs.drop n)

/-- The first group's fault stops the slot, whatever the second group holds. -/
theorem spx_firstFault (h : issues .spx u s w) {c : W16} (h0 : (spxFaults w (s.slot u)).1 = some c) :
    exec (.cSpx u) s = stops s u c := by
  change execCSpx u s = _
  rw [execCSpx, cellRun_fetched h]
  simp only [spxFaults] at h0
  simp only [slot_fetched, now_s, h0, cellEnd_fault]

theorem spx_secondFault (h : issues .spx u s w) {c : W16} (h0 : (spxFaults w (s.slot u)).1 = none)
    (h1 : (spxFaults w (s.slot u)).2 = some c) : exec (.cSpx u) s = stops s u c := by
  change execCSpx u s = _
  rw [execCSpx, cellRun_fetched h]
  simp only [spxFaults] at h0 h1
  simp only [slot_fetched, now_s, h0, h1, cellEnd_fault]

theorem spx_expands (h : issues .spx u s w) (h0 : (spxFaults w (s.slot u)).1 = none) (h1 : (spxFaults w (s.slot u)).2 = none) :
    exec (.cSpx u) s = setsV s u (wD w) (spxColumns w (s.slot u)) := by
  change execCSpx u s = _
  rw [execCSpx, cellRun_fetched h]
  simp only [spxFaults] at h0 h1
  simp only [slot_fetched, setSlot_fetched, now_vec, now_s, h0, h1, cellEnd_retire, setsV, spxColumns]

/-- Settles O8: quantise, slice and dequantise change their slot alone; expansion ends in one of three ways, by the faults of its groups. -/
theorem quantiseAndExpand : Obligations.QuantiseAndExpand := by
  unfold Obligations.QuantiseAndExpand
  intro u s w x d f src zero q
  refine ⟨?_, ?_, ?_, ?_, ?_, ?_⟩
  · intro h hr hg
    exact (cellPure_issues h qntOp).trans (by rw [qntOp_nearest _ hr hg, qSource_now])
  · intro h hr hg
    exact (cellPure_issues h qntOp).trans (by rw [qntOp_stochastic _ hr hg, qSource_now, now_rng])
  · intro h hq
    exact (cellPure_issues h qslOp).trans (by rw [qslOp_residual _ (by rwa [qSource_now]), qSource_now])
  · intro h hg
    exact (cellPure_issues h dqtOp).trans (by rw [dqtOp_short _ hg, now_vec, now_s, setsV])
  · intro h hg
    exact (cellPure_issues h dqtOp).trans (by rw [dqtOp_long _ hg, now_vec, now_s])
  · intro h n vs ix lim g0 g1
    cases h0 : g0 with
    | some c => exact spx_firstFault h h0
    | none =>
      cases h1 : g1 with
      | some c => exact spx_secondFault h h0 h1
      | none => exact spx_expands h h0 h1

end Sys2Proof.Proofs
end

section
/-! PROOFS. When a Worker Cell slot does not issue, waits, or stops before it executes (R145, R162, R177, R189, R191, R245). -/

open Sys2Proof Sys2Proof.Machine Sys2Proof.Claims

namespace Sys2Proof.Proofs

/-- A command of a Worker Cell instruction differs from another only in what the instruction does once it has issued. -/
theorem exec_cellCmd {i : Instr} {o : COp} {u : SlotRef} (h : cellCmd i = some (o, u)) :
    ∃ body, ∀ s, exec i s = cellRun o u body s := by
  cases i
  all_goals cases h
  all_goals exact ⟨_, fun _ => rfl⟩

section BeforeIssue

variable {o : COp} {u : SlotRef} {s : State} {body : Nat → State → CRes} (hu : isSlot u = true)
include hu

theorem cellRun_eq_cellStep : cellRun o u body s = .next (s.cellStep o u body) := by rw [cellRun, hu, onUnit_true]

theorem cellRun_cannotIssue (hi : s.canIssue u = false) : cellRun o u body s = .next s := by
  rw [cellRun_eq_cellStep hu, State.cellStep, if_pos (by simp [hi])]

variable (hi : s.canIssue u = true)
include hi

/-- Past local memory the slot stops, and its last word is named (R177). -/
theorem cellRun_pastMemory (hp : 0x4000 ≤ (s.slot u).pc) : cellRun o u body s = .next (s.slotStop u 0x3006#16 0x3FFC) := by
  rw [cellRun_eq_cellStep hu, State.cellStep, if_neg (by simp [hi])]
  exact congrArg Host.Outcome.next (if_pos hp)

variable (hp : (s.slot u).pc < 0x4000)
include hp

theorem cellRun_illegal (hw : cellOp (fetchWord (s.worker u.comb u.cell) (s.slot u)) = none) :
    cellRun o u body s = stops s u 0x4204#16 := by
  have hp' : ¬ 0x4000 ≤ ((s.worker u.comb u.cell).slot u.slot).pc := Nat.not_le.mpr hp
  rw [State.slot] at hw
  simp only [cellRun_eq_cellStep hu, State.cellStep, hi, hp', hw, Bool.not_true, Bool.false_eq_true, if_false]
  rfl

theorem cellRun_otherWord {o' : COp} (hw : cellOp (fetchWord (s.worker u.comb u.cell) (s.slot u)) = some o') (ho : o' ≠ o) :
    cellRun o u body s = .next s := by
  have hp' : ¬ 0x4000 ≤ ((s.worker u.comb u.cell).slot u.slot).pc := Nat.not_le.mpr hp
  rw [State.slot] at hw
  simp only [cellRun_eq_cellStep hu, State.cellStep, hi, hp', hw, bne_iff_ne.mpr ho, Bool.not_true, Bool.false_eq_true, if_false, if_true]

/-- A word that the lock's rules forbid stops the slot before it executes (R191). -/
theorem cellRun_lockFault (hw : cellOp (fetchWord (s.worker u.comb u.cell) (s.slot u)) = some o)
    (hr : (scalarsOf o (fetchWord (s.worker u.comb u.cell) (s.slot u))).any
      (fun r => (s.slot u).pend.any (fun p => p.reg = r || (p.wide && p.reg + 1 = r))) = false)
    (hl : lockFault (s.slot u) o (fetchWord (s.worker u.comb u.cell) (s.slot u)) = true) :
    cellRun o u body s = stops s u 0x4206#16 := by
  have hp' : ¬ 0x4000 ≤ ((s.worker u.comb u.cell).slot u.slot).pc := Nat.not_le.mpr hp
  rw [State.slot] at hw hr hl
  simp only [cellRun_eq_cellStep hu, State.cellStep, hi, hp', hw, hr, hl, bne_self_eq_false, Bool.not_true, Bool.false_eq_true, if_false, if_true]
  rfl

end BeforeIssue

/-! A release holds the accesses behind it (R245) -/

theorem heldOr_held {x : WSlot} (h : x.held = true) (r : CRes) : heldOr x r = .hold := by simp [heldOr, h]

/-- An instruction whose effect is an access leaves only its line in the fetch buffer while a release holds the slot. -/
theorem cellRun_held {o : COp} {u : SlotRef} {s : State} {w : Nat} (hh : (s.slot u).held = true) (h : issues o u s w)
    {body : Nat → State → CRes} (hb : ∀ v t, ∃ r, body v t = heldOr (t.slot u) r) : cellRun o u body s = .next (fetched s u) := by
  obtain ⟨r, hr⟩ := hb w (fetched s u)
  rw [cellRun_fetched h, hr, slot_fetched, heldOr_held ((now_held s u).trans hh), cellEnd_hold]

/-- Settles O9: `exec_cellCmd` turns each command into its slot's test, and a held slot answers every access alike. -/
theorem cellsThatDoNotIssueOrWait : Obligations.CellsThatDoNotIssueOrWait := by
  unfold Obligations.CellsThatDoNotIssueOrWait
  constructor
  · intro i o u s hc hu w
    obtain ⟨body, hb⟩ := exec_cellCmd hc
    rw [hb s]
    refine ⟨cellRun_cannotIssue hu, cellRun_pastMemory hu, cellRun_illegal hu, ?_, cellRun_lockFault hu⟩
    exact fun o' hi hp hw ho => cellRun_otherWord hu hi hp hw ho
  · intro u s w hh
    have access {o : COp} {body : Nat → State → CRes} (hb : ∀ v t, ∃ r, body v t = heldOr (t.slot u) r) (h : issues o u s w) :
        cellRun o u body s = .next (fetched s u) := cellRun_held hh h hb
    refine ⟨?_, ?_, ?_, ?_, ?_, ?_, ?_, ?_, ?_, (slot_fetched s u).trans (now_eq s u)⟩
    all_goals exact access fun _ _ => ⟨_, rfl⟩

end Sys2Proof.Proofs
end

section
/-! PROOFS. What retiring and stopping a Worker Cell slot leave unchanged (R162, R168, R189). -/

open Sys2Proof Sys2Proof.Machine Sys2Proof.Claims

namespace Sys2Proof.Proofs

/-! Parts of the state after a change of one area or one slot -/

theorem comb_setArea_ne (s : State) {c j : Nat} (a : Area) (h : j ≠ c) : (s.setArea c a).comb j = s.comb j := by
  rw [State.setArea, State.comb_setComb, if_neg h]

/-- A change of an area is a change of its Comb's live area alone. -/
theorem comb_setArea_rest (s : State) (c j : Nat) (a : Area) : (s.setArea c a).comb j = { s.comb j with live := (s.setArea c a).area j } := by
  by_cases h : j = c
  · subst h
    rw [State.area_setArea_same, State.setArea, State.comb_setComb_same]
  · rw [State.area_setArea, if_neg h, comb_setArea_ne s a h, State.area]

/-- Changing a slot changes no memory, counter, Store Cell or Engine. -/
theorem setSlot_area (s : State) (u : SlotRef) (x : WSlot) (c : Nat) :
    ∃ ws, (s.setSlot u x).area c = { s.area c with workers := ws } := by
  by_cases h : c = u.comb
  · subst h
    exact ⟨_, State.area_setArea_same s _ _⟩
  · refine ⟨(s.area c).workers, ?_⟩
    rw [State.setSlot, State.setWorker, State.area_setArea, if_neg h]

/-- Changing a slot leaves the memory of its cell and of every other. -/
theorem setSlot_worker (s : State) (u : SlotRef) (x : WSlot) (c k : Nat) :
    ∃ sl, (s.setSlot u x).worker c k = { s.worker c k with slots := sl } := by
  rw [State.setSlot, State.worker_setWorker]
  split
  · next h =>
    obtain ⟨rfl, rfl⟩ := h
    exact ⟨_, rfl⟩
  · exact ⟨_, rfl⟩

/-- Counting an event (R500) changes no cell. -/
theorem worker_setArea_count (s : State) (c : Nat) (a : Area) (kind unit ix n j k : Nat) :
    (s.setArea c (a.count kind unit ix n)).worker j k = (s.setArea c a).worker j k := by
  rw [State.worker, State.worker, State.area_setArea, State.area_setArea]
  split <;> rfl

/-! Retirement -/

/-- The slot of a retired instruction: it goes on at `pc`, an open locked sequence counts it, and no wake-up is left to account for. -/
def retiredSlot (x : WSlot) (pc : Nat) : WSlot := { { x with pc := pc }.lockCount with woke := .ready }

/-- The cell of a retired instruction: its slot, and the slot last served (R162). -/
def retiredCell (k : Worker) (i : Nat) (x : WSlot) (pc : Nat) : Worker := { k.setSlot i (retiredSlot x pc) with last := i }

/-- Of the slot, retirement sets the PC, the lock's count and the wake-up. -/
theorem retiredSlot_rest (x : WSlot) (pc : Nat) : ∃ l, retiredSlot x pc = { x with pc := pc, lock := l, woke := .ready } := by
  unfold retiredSlot WSlot.lockCount
  split <;> exact ⟨_, rfl⟩

section Retire

variable (s : State) (u : SlotRef) (x : WSlot) (pc : Nat)

/-- Retirement changes the slot's cell and the counters of R500. -/
theorem retireAt_eq :
    retireAt s u x pc = s.setArea u.comb (((s.area u.comb).setWorker u.cell (retiredCell (s.worker u.comb u.cell) u.slot x pc)).count 0
      (u.cell * 5 + u.slot) 1 1) := by
  simp [retireAt, State.issued, State.setSlot, State.setWorker, State.worker, Area.setWorker, Area.worker, Worker.setSlot, Worker.slot,
    retiredCell, retiredSlot]

theorem area_retireAt (c : Nat) : ∃ ws p, (retireAt s u x pc).area c = { s.area c with workers := ws, perf := p } := by
  rw [retireAt_eq, State.area_setArea]
  split
  · next h => subst h; exact ⟨_, _, rfl⟩
  · exact ⟨_, _, rfl⟩

theorem worker_retireAt (c k : Nat) : (retireAt s u x pc).worker c k =
    if c = u.comb ∧ k = u.cell then retiredCell (s.worker u.comb u.cell) u.slot x pc else s.worker c k := by
  rw [retireAt_eq, worker_setArea_count]
  exact State.worker_setWorker s u.comb u.cell c k _

/-- Retirement leaves a cell's memory, queue and ports. -/
theorem worker_retireAt_rest (c k : Nat) : ∃ sl l, (retireAt s u x pc).worker c k = { s.worker c k with slots := sl, last := l } := by
  rw [worker_retireAt]
  split
  · next h => obtain ⟨rfl, rfl⟩ := h; exact ⟨_, _, rfl⟩
  · exact ⟨_, _, rfl⟩

theorem slot_retireAt (u' : SlotRef) : (retireAt s u x pc).slot u' = if u' = u then retiredSlot x pc else s.slot u' := by
  rw [← State.slot_setSlot, State.slot, worker_retireAt, State.slot, State.setSlot, State.worker_setWorker]
  split <;> rfl

theorem comb_retireAt_rest (c : Nat) : (retireAt s u x pc).comb c = { s.comb c with live := (retireAt s u x pc).area c } := by
  rw [retireAt_eq, ← comb_setArea_rest]

end Retire

/-! The stop -/

/-- A trace record, taken or lost, is all that `trace` changes (R505). -/
theorem area_trace (s : State) (c kind unit index arg j : Nat) : ∃ q l m,
    (s.trace c kind unit index arg).area j = { s.area j with trQ := q, trLost := l, trLostAll := m } := by
  unfold State.trace
  split
  · exact ⟨_, _, _, rfl⟩
  · dsimp only
    rw [apply_ite (State.area · j), State.area_setArea]
    split_ifs with h1 h2 h3
    · subst h2; exact ⟨_, _, _, rfl⟩
    · subst h2; exact ⟨_, _, _, rfl⟩
    · exact ⟨_, _, _, rfl⟩
    · exact ⟨_, _, _, rfl⟩

@[simp] theorem worker_trace (s : State) (c kind unit index arg j k : Nat) :
    (s.trace c kind unit index arg).worker j k = s.worker j k := by
  obtain ⟨q, l, m, h⟩ := area_trace s c kind unit index arg j
  rw [State.worker, h]; rfl

section Stop

variable (s : State) (u : SlotRef) (code : W16) (pc : Nat)

/-- Of cells, a stop changes the slot it stops. -/
theorem worker_slotStop (c k : Nat) :
    (s.slotStop u code pc).worker c k = (s.setSlot u ((s.slot u).stopAt code pc)).worker c k := by
  rw [State.slotStop, worker_trace]; rfl

theorem slot_slotStop (u' : SlotRef) :
    (s.slotStop u code pc).slot u' = if u' = u then (s.slot u).stopAt code pc else s.slot u' := by
  rw [State.slot, worker_slotStop, ← State.slot_setSlot]; rfl

/-- A stop leaves the memory, the counters and the Engine of every Comb. -/
theorem area_slotStop (c : Nat) : ∃ ws q l m,
    (s.slotStop u code pc).area c = { s.area c with workers := ws, trQ := q, trLost := l, trLostAll := m } := by
  obtain ⟨q, l, m, ht⟩ := area_trace ((s.setSlot u ((s.slot u).stopAt code pc)).event (s.residentAt u.comb) code u.comb
    (masterField (.worker u.comb u.cell u.slot)) 0) u.comb 7 0 (u.cell * 5 + u.slot) code.toNat c
  obtain ⟨ws, hs⟩ := setSlot_area s u ((s.slot u).stopAt code pc) c
  refine ⟨ws, q, l, m, ht.trans ?_⟩
  rw [State.area, event_comb, ← State.area, hs]

end Stop

/-- Outside a locked sequence nothing rolls back: the registers and the random state stay (R189, R193). -/
theorem stopAt_unlocked {x : WSlot} (h : x.lock = none) (code : W16) (pc : Nat) : x.stopAt code pc =
    { x with running := false, fault := code.setWidth 32, fpc := BitVec.ofNat 32 pc, wait := .ready, held := false } := by
  simp only [WSlot.stopAt, WSlot.rollback, h]

section Stops

variable (s : State) (u : SlotRef) (code : W16)

/-- The line of its PC is fetched before a slot stops at the instruction there (R172). -/
theorem slot_stops (hl : (s.slot u).lock = none) : ((fetched s u).slotStop u code (s.slot u).pc).slot u = { s.slot u with
    fetch := (now s u).fetch, running := false, fault := code.setWidth 32, fpc := BitVec.ofNat 32 (s.slot u).pc, wait := .ready
    held := false } := by
  rw [slot_slotStop, if_pos rfl, slot_fetched, stopAt_unlocked ((now_lock s u).trans hl)]
  conv_lhs => rw [now_eq]

theorem slot_stops_ne (pc : Nat) {u' : SlotRef} (h : u' ≠ u) : ((fetched s u).slotStop u code pc).slot u' = s.slot u' := by
  rw [slot_slotStop, if_neg h, fetched, State.slot_setSlot, if_neg h]

theorem worker_stops (pc c k : Nat) :
    ∃ sl, ((fetched s u).slotStop u code pc).worker c k = { s.worker c k with slots := sl } := by
  rw [worker_slotStop, setSlot_fetched]
  exact setSlot_worker ..

theorem area_stops (pc c : Nat) : ∃ ws q l m, ((fetched s u).slotStop u code pc).area c =
    { s.area c with workers := ws, trQ := q, trLost := l, trLostAll := m } := by
  obtain ⟨ws, q, l, m, ha⟩ := area_slotStop (fetched s u) u code pc c
  obtain ⟨ws', hf⟩ := setSlot_area s u (now s u) c
  rw [fetched, hf] at ha
  exact ⟨ws, q, l, m, ha⟩

end Stops

/-- Settles O10: retirement writes what `retireAt_eq` says; a stop writes its slot, and of the Comb's area only the trace besides. -/
theorem retirementAndStopFrames : Obligations.RetirementAndStopFrames := by
  unfold Obligations.RetirementAndStopFrames
  constructor
  · intro s u x pc t
    have hslot (u' : SlotRef) : t.slot u' = if u' = u then retiredSlot x pc else s.slot u' := slot_retireAt s u x pc u'
    have hcell (c k : Nat) : ∃ sl l, t.worker c k = { s.worker c k with slots := sl, last := l } := worker_retireAt_rest s u x pc c k
    have harea (c : Nat) : ∃ ws p, t.area c = { s.area c with workers := ws, perf := p } := area_retireAt s u x pc c
    have hcomb (c : Nat) : t.comb c = { s.comb c with live := t.area c } := comb_retireAt_rest s u x pc c
    obtain ⟨l, hl⟩ := retiredSlot_rest x pc
    rw [hslot u, if_pos rfl, hl]
    refine ⟨fun u' h => (hslot u').trans (if_neg h), rfl, rfl, rfl, rfl, rfl, rfl, rfl, ?_, ?_, ?_, ?_, ?_, ?_, rfl⟩
    · intro c k
      obtain ⟨sl, last, hw⟩ := hcell c k
      rw [hw]; exact ⟨rfl, rfl, rfl⟩
    · intro c k
      obtain ⟨ws, p, ha⟩ := harea c
      rw [State.store, ha]; rfl
    · intro c
      obtain ⟨ws, p, ha⟩ := harea c
      rw [State.eng, ha]; rfl
    · intro c
      obtain ⟨ws, p, ha⟩ := harea c
      rw [ha]; exact ⟨rfl, rfl, rfl⟩
    · intro c
      rw [hcomb]; exact ⟨rfl, rfl⟩
    · exact fun c hc => (congrArg (State.comb · c) (retireAt_eq s u x pc)).trans (comb_setArea_ne s _ hc)
  · intro s u code hl
    refine ⟨(fetched s u).slotStop u code (s.slot u).pc, rfl, ?_⟩
    rw [slot_stops s u code hl]
    refine ⟨rfl, rfl, rfl, rfl, rfl, rfl, fun u' h => slot_stops_ne s u code _ h, ?_, ?_, ?_⟩
    · intro c k
      obtain ⟨sl, hw⟩ := worker_stops s u code (s.slot u).pc c k
      rw [hw]
    · intro c
      obtain ⟨ws, q, l, m, ha⟩ := area_stops s u code (s.slot u).pc c
      rw [ha]; exact ⟨rfl, rfl⟩
    · intro c
      obtain ⟨ws, q, l, m, ha⟩ := area_stops s u code (s.slot u).pc c
      rw [State.eng, ha]; rfl

end Sys2Proof.Proofs
end

section
/-! PROOFS. Store Cells: their registers over the row bus, generators and control words (R147 to R151, R194 to R197). -/

open Sys2Proof Sys2Proof.Machine Sys2Proof.Claims

namespace Sys2Proof.Proofs

/-! The row bus, from a slot that no release holds (R194) -/

section RowBus

variable {u : SlotRef} {s : State} {w : Nat} (hh : (now s u).held = false)
include hh

theorem srr_noCell (h : issues .srr u s w) (hk : srCell u.cell (wIdx w) = none) : exec (.cSrr u) s = stops s u 0x4205#16 := by
  change execCSrr u s = _
  rw [execCSrr, cellRun_fetched h, slot_fetched, heldOr_free hh, hk, cellEnd_fault]

theorem srw_noCell (h : issues .srw u s w) (hk : srCell u.cell (wIdx w) = none) : exec (.cSrw u) s = stops s u 0x4205#16 := by
  change execCSrw u s = _
  rw [execCSrw, cellRun_fetched h, slot_fetched, heldOr_free hh, hk, cellEnd_fault]

variable {k : Nat} (hk : srCell u.cell (wIdx w) = some k)
include hk

theorem srr_reads (h : issues .srr u s w) (ha : (srAccess k (wIdx w % 32)).1 = true) :
    exec (.cSrr u) s = setsS s u (wD w) (((fetched s u).store u.comb k).readReg (wIdx w % 32)) := by
  change execCSrr u s = _
  rw [execCSrr, cellRun_fetched h, slot_fetched, heldOr_free hh, hk]
  simp only [ha, if_true, setSlot_fetched, cellEnd_retire, setsS]

theorem srr_unreadable (h : issues .srr u s w) (ha : (srAccess k (wIdx w % 32)).1 = false) : exec (.cSrr u) s = stops s u 0x4205#16 := by
  change execCSrr u s = _
  rw [execCSrr, cellRun_fetched h, slot_fetched, heldOr_free hh, hk]
  simp only [ha, Bool.false_eq_true, if_false, cellEnd_fault]

/-- A write is posted behind the writes that the Store Cell has not taken yet, and its slot remembers it. -/
theorem srw_posts (h : issues .srw u s w) (ha : (srAccess k (wIdx w % 32)).2 = true) :
    exec (.cSrw u) s =
      let q := (fetched s u).newReq
      let g := q.2.setSlot u ((q.2.slot u).issue q.1)
      done s u (g.setStore u.comb k { g.store u.comb k with
        regQ := (g.store u.comb k).regQ ++ [(wIdx w % 32, (now s u).s (wA w), u.cell * 4 + u.slot, q.1, (now s u).pc)] }) := by
  change execCSrw u s = _
  rw [execCSrw, cellRun_fetched h, slot_fetched, heldOr_free hh, hk]
  simp only [ha, Bool.not_true, Bool.false_eq_true, if_false, cellEnd_next]

theorem srw_unwritable (h : issues .srw u s w) (ha : (srAccess k (wIdx w % 32)).2 = false) : exec (.cSrw u) s = stops s u 0x4205#16 := by
  change execCSrw u s = _
  rw [execCSrw, cellRun_fetched h, slot_fetched, heldOr_free hh, hk]
  simp only [ha, Bool.not_false, if_true, cellEnd_fault]

end RowBus

/-! The Store Cell's end of a posted write (R194): the oldest one is taken -/

section PostedWrite

variable {c k : Nat} {s : State} {r who id pc : Nat} {v : W32} {rest : List (Nat × W32 × Nat × Nat × Nat)} {t' : StoreCell}
  (hk : isStoreCell c k = true) (hq : (s.store c k).regQ = (r, v, who, id, pc) :: rest)
include hk hq

theorem regWriteArrival_lands (hw : { s.store c k with regQ := rest }.write r v = (t', none, none)) :
    exec (.storeCellRegWriteArrival c k) s = .next ((s.setStore c k t').completeOk (.worker c (who / 4) (who % 4)) id) := by
  change execStoreCellRegWriteArrival c k s = _
  simp only [execStoreCellRegWriteArrival, hk, onUnit_true, hq, hw]

/-- A refused write stops the slot that posted it, at the write's own address (R189, R194). -/
theorem regWriteArrival_refused {code : W16} {st : Option (Nat × W16)}
    (hw : { s.store c k with regQ := rest }.write r v = (t', some code, st)) :
    exec (.storeCellRegWriteArrival c k) s = .next ((s.setStore c k t').accessFault ⟨c, who / 4, who % 4⟩ id pc code) := by
  change execStoreCellRegWriteArrival c k s = _
  simp only [execStoreCellRegWriteArrival, hk, onUnit_true, hq, hw]

end PostedWrite

/-! Generators (R148 to R151) -/

/-- The element at `a` of `n` bytes lies aligned within the SRAM (R151). -/
abbrev inSram (a : Int) (n : Nat) : Prop := 0 ≤ a ∧ a ≤ 0x2FFFF ∧ a % (n : Int) = 0

theorem not_outside {a : Int} {n : Nat} (h : inSram a n) : ¬ (a < 0 ∨ 0x2FFFF < a ∨ a % (n : Int) ≠ 0) := by
  obtain ⟨hlo, hhi, hal⟩ := h
  simp only [not_or, not_lt, not_not]
  exact ⟨hlo, hhi, hal⟩

/-- Generator `g` with slot `i` as the one it runs, at its first element (R150). -/
abbrev genStarted (t : StoreCell) (g i : Nat) : StoreCell := t.setGen g { t.gen g with slot := some i, pos := 0, last := i }

section Generator

variable {c k g i : Nat} {s : State} {ws : List W32} {l : List SEntry} (hk : isStoreCell c k = true) (hg : g < 2)
  (hr : s.ctxRuns c = true) (hd : s.dead c = false) (hq : ((s.store c k).slot i).q = .desc ws :: l)
include hk hg hr hd hq

section DescStart

variable (ht : (s.area c).genTurn k g = some i)
include ht

theorem genDescStart_starts (hb : gBad (wnum ws) = false) :
    exec (.genDescStart c k g) s = .next (s.setStore c k (genStarted (s.store c k) g i)) := by
  change execGenDescStart c k g s = _
  simp [execGenDescStart, hk, hg, hr, hd, ht, hq, hb]

theorem genDescStart_malformed (hb : gBad (wnum ws) = true) :
    exec (.genDescStart c k g) s = .next ((s.setStore c k (genStarted (s.store c k) g i)).storeStop c k i 0x4203#16 true) := by
  change execGenDescStart c k g s = _
  simp [execGenDescStart, hk, hg, hr, hd, ht, hq, hb]

end DescStart

section ElementMove

variable {a : Int} (ha : gAddr (wnum ws) ((s.store c k).gen g).pos = a)
  (hh : ((s.store c k).gen g).halted = false) (hs : ((s.store c k).gen g).slot = some i)
include ha hh hs

theorem genElementMove_outside (ho : a < 0 ∨ 0x2FFFF < a ∨ a % (gSize (wnum ws) : Int) ≠ 0) :
    exec (.genElementMove c k g) s = .next (s.storeStop c k i 0x3006#16 true) := by
  change execGenElementMove c k g s = _
  simp only [execGenElementMove, hk, hg, hr, hd, hq, ha, hh, hs, ho, decide_true, Bool.and_self, onUnit_true, Bool.not_true,
    Bool.false_eq_true, or_self, if_true, if_false]

variable (hin : inSram a (gSize (wnum ws)))
include hin

/-- An element leaves through a port that no pass-through uses, once the link can take it (R154, R155). -/
theorem genElementMove_sends (hdir : gIn (wnum ws) = false) (he : ptEn (s.store c k).ptCfg.toNat (gPort (wnum ws)) = false)
    (hp : s.canPut c k (gPort (wnum ws)) = true) :
    exec (.genElementMove c k g) s = .next ((s.putWord c k (gPort (wnum ws))
      (BitVec.ofNat 64 (leNat (cellsRead (s.store c k).mem a.toNat (gSize (wnum ws)))))).genMoved c k g i (wnum ws)) := by
  change execGenElementMove c k g s = _
  simp only [execGenElementMove, hk, hg, hr, hd, hq, ha, hh, hs, not_outside hin, hdir, he, hp, decide_true, Bool.and_self,
    onUnit_true, Bool.not_true, Bool.false_eq_true, or_self, if_true, if_false]

/-- The head word of an inbound port that no pass-through uses goes into the SRAM (R154). -/
theorem genElementMove_takes (hdir : gIn (wnum ws) = true) (hn : ptNames (s.store c k).ptCfg.toNat (gPort (wnum ws)) = false)
    {v : W64} {q : List W64} (hv : (s.store c k).ports.inQ (gPort (wnum ws)) = v :: q) :
    exec (.genElementMove c k g) s =
      let s1 := s.popWord c k (gPort (wnum ws))
      .next ((s1.setStore c k { s1.store c k with
        mem := cellsWrite (s1.store c k).mem a.toNat (leBytes (gSize (wnum ws)) v.toNat) }).genMoved c k g i (wnum ws)) := by
  change execGenElementMove c k g s = _
  simp only [execGenElementMove, hk, hg, hr, hd, hq, ha, hh, hs, not_outside hin, hdir, hn, hv, decide_true, Bool.and_self,
    onUnit_true, Bool.not_true, Bool.false_eq_true, or_self, if_true, if_false]

end ElementMove

end Generator

/-! Control words (R196) -/

/-- The control word at the head of slot `i` leaves its queue, and the generator that takes it has served the slot. -/
abbrev ctwTaken (t : StoreCell) (g i : Nat) (l : List SEntry) : StoreCell :=
  (t.setSlot i { t.slot i with q := l }).setGen g { t.gen g with last := i }

/-- A well-formed `SIGNAL` adds to a counter: without the counter's bit its word is malformed. -/
theorem signal_adds {k d : Nat} (hb : ctwBad k d = false) (h0 : fld d 0 4 = 0) : bit d 5 = true := by
  simp [ctwBad, h0] at hb
  exact hb.2

section ControlWord

variable {c k g i : Nat} {s : State} {ws : List W32} {l : List SEntry} (hk : isStoreCell c k = true) (hi : i < 4)
  (hr : s.ctxRuns c = true) (hd : s.dead c = false) (hg : (List.range 2).find? (fun g => (s.area c).genTurn k g = some i) = some g)
  (hq : ((s.store c k).slot i).q = .ctw ws :: l) (hb : ctwBad k (wnum ws) = false)
include hk hi hr hd hg hq hb

theorem ctwSignal_adds (h0 : fld (wnum ws) 0 4 = 0) :
    exec (.ctwSignal c k i) s = .next ((s.setStore c k (ctwTaken (s.store c k) g i l)).passAdd c
      { ctx := (s.residentAt c).getD 16, ix := fld (wnum ws) 20 12, amt := fld (wnum ws) 32 16, who := some (.worker c k i) }) := by
  change execCtwSignal c k i s = _
  rw [State.store] at hq
  simp [execCtwSignal, State.ctwTake, hk, hi, hr, hd, hg, hq, hb, h0, signal_adds hb h0, State.store]

/-- A `RELEASE` frees slots of the edge ring. -/
theorem ctwRelease_frees (h1 : fld (wnum ws) 0 4 = 1) :
    exec (.ctwRelease c k i) s =
      let t := ctwTaken (s.store c k) g i l
      let s1 := s.setStore c k { t with edgeRd := t.edgeRd + BitVec.ofNat 32 (fld (wnum ws) 32 16) }
      .next (if bit (wnum ws) 5 then s1.passAdd c
        { ctx := (s.residentAt c).getD 16, ix := fld (wnum ws) 20 12, amt := 1, who := some (.worker c k i) } else s1) := by
  change execCtwRelease c k i s = _
  rw [State.store] at hq
  simp [execCtwRelease, State.ctwTake, hk, hi, hr, hd, hg, hq, hb, h1, State.store]

end ControlWord

/-- Settles O15: the row bus, then the posted writes, generators and control words of a Store Cell. -/
theorem storeCells : Obligations.StoreCells := by
  unfold Obligations.StoreCells
  refine ⟨⟨?_, ?_⟩, ?_⟩
  · intro u s w k held hk x f r q g
    have hh : (now s u).held = false := (now_held s u).trans held
    exact ⟨srr_reads hh hk, srr_unreadable hh hk, srw_posts hh hk, srw_unwritable hh hk⟩
  · intro u s w held hk
    have hh : (now s u).held = false := (now_held s u).trans held
    exact ⟨fun h => srr_noCell hh h hk, fun h => srw_noCell hh h hk⟩
  · intro c k g s hk t
    refine ⟨?_, ?_, ?_, ?_, ?_⟩
    · intro r v who id pc rest t' hq hw
      exact regWriteArrival_lands hk hq hw
    · intro r v who id pc rest t' code st hq hw
      exact regWriteArrival_refused hk hq hw
    · intro hg hr hd i ws l ht hq t1
      exact ⟨genDescStart_starts hk hg hr hd hq ht, genDescStart_malformed hk hg hr hd hq ht⟩
    · intro hg hr hd hh i ws l hs hq d a
      refine ⟨?_, ?_, ?_⟩
      · exact genElementMove_outside hk hg hr hd hq rfl hh hs
      · intro hlo hhi hal hdir he hp
        exact genElementMove_sends hk hg hr hd hq rfl hh hs ⟨hlo, hhi, hal⟩ hdir he hp
      · intro v q hlo hhi hal hdir hn hv
        exact genElementMove_takes hk hg hr hd hq rfl hh hs ⟨hlo, hhi, hal⟩ hdir hn hv
    · intro i ws l hi hr hd hg hq hb d t1
      refine ⟨ctwSignal_adds hk hi hr hd hg hq hb, fun h1 h5 => ?_, fun h1 h5 => ?_⟩
      · exact (ctwRelease_frees hk hi hr hd hg hq hb h1).trans (by rw [h5]; rfl)
      · exact (ctwRelease_frees hk hi hr hd hg hq hb h1).trans (by rw [h5]; rfl)

end Sys2Proof.Proofs
end

section
/-! PROOFS. Words, credits and the pass-through on the links between cells (R152, R153). -/

open Sys2Proof Sys2Proof.Machine

namespace Sys2Proof.Proofs

section CellLink

variable {c k d : Nat} {s : State} (hk : isCell c k = true) (hd : d < 4)
include hk hd

/-- The word in transit joins the inbound queue of its port behind the words already there. -/
theorem linkWordArrival_joins {v : W64} {l : List W64} (h : tget [] (s.portsOf c k).wire d = v :: l) :
    exec (.linkWordArrival c k d) s = .next (s.setPortsOf c k { s.portsOf c k with
      wire := tset [] (s.portsOf c k).wire d l, inq := tset [] (s.portsOf c k).inq d ((s.portsOf c k).inQ d ++ [v]) }) := by
  change execLinkWordArrival c k d s = _
  simp [execLinkWordArrival, hk, hd, h]

theorem linkWordArrival_idle (h : tget [] (s.portsOf c k).wire d = []) : exec (.linkWordArrival c k d) s = .next s := by
  change execLinkWordArrival c k d s = _
  simp [execLinkWordArrival, hk, hd, h]

/-- The credit in transit gives its place back to the sender. -/
theorem linkCreditReturn_returns (h : 0 < tget 0 (s.portsOf c k).back d) :
    exec (.linkCreditReturn c k d) s = .next (s.setPortsOf c k { s.portsOf c k with
      back := tset 0 (s.portsOf c k).back d (tget 0 (s.portsOf c k).back d - 1)
      used := tset 0 (s.portsOf c k).used d (tget 0 (s.portsOf c k).used d - 1) }) := by
  change execLinkCreditReturn c k d s = _
  simp [execLinkCreditReturn, hk, hd, Nat.pos_iff_ne_zero.mp h]

theorem linkCreditReturn_idle (h : tget 0 (s.portsOf c k).back d = 0) : exec (.linkCreditReturn c k d) s = .next s := by
  change execLinkCreditReturn c k d s = _
  simp [execLinkCreditReturn, hk, hd, h]

end CellLink

/-- The directions whose enabled byte names inbound port `d` (R153). -/
def passOuts (s : State) (c k d : Nat) : List Nat :=
  (List.range 4).filter fun e => ptEn ((s.area c).ptCfgOf k) e && ptSrc ((s.area c).ptCfgOf k) e = d

section PassThrough

variable {c k d : Nat} {s : State} (hk : isCell c k = true) (hd : d < 4)
include hk hd

/-- The head word leaves once every direction can take it (R153). -/
theorem passThroughForward_sends {v : W64} {l : List W64} (hq : (s.portsOf c k).inQ d = v :: l) (ho : passOuts s c k d ≠ [])
    (hp : (passOuts s c k d).all (s.canPut c k) = true) : exec (.passThroughForward c k d) s =
      .next ((passOuts s c k d).foldl (fun t e => t.putWord c k e v) (s.popWord c k d)) := by
  change execPassThroughForward c k d s = _
  have he : (passOuts s c k d).isEmpty = false := List.isEmpty_eq_false_iff.mpr ho
  simp only [passOuts] at he hp
  simp only [execPassThroughForward, hk, hd, decide_true, Bool.and_self, onUnit_true, hq, he, hp, Bool.not_true, Bool.or_self,
    Bool.false_eq_true, if_false, passOuts]

/-- One direction without a credit holds the word back for all (R153). -/
theorem passThroughForward_waits {e : Nat} (he : e ∈ passOuts s c k d) (hp : s.canPut c k e = false) :
    exec (.passThroughForward c k d) s = .next s := by
  change execPassThroughForward c k d s = _
  have hall : (passOuts s c k d).all (s.canPut c k) = false := List.all_eq_false.mpr ⟨e, he, by simp [hp]⟩
  simp only [passOuts] at hall
  simp only [execPassThroughForward, hk, hd, decide_true, Bool.and_self, onUnit_true, hall, Bool.not_false, Bool.or_true, if_true]
  split <;> rfl

end PassThrough

/-- Settles O16: a word and a credit in transit arrive, and the head word goes out on all its directions or stays. -/
theorem cellLinksMoveWords : Obligations.CellLinksMoveWords := by
  unfold Obligations.CellLinksMoveWords
  intro c k d s hk hd p cfg outs
  refine ⟨?_, ?_, ?_, ?_, ?_, ?_⟩
  · exact fun v l h => linkWordArrival_joins hk hd h
  · exact linkWordArrival_idle hk hd
  · exact linkCreditReturn_returns hk hd
  · exact linkCreditReturn_idle hk hd
  · exact fun v l hq ho hp => passThroughForward_sends hk hd hq ho hp
  · exact fun e he hp => passThroughForward_waits hk hd he hp

end Sys2Proof.Proofs
end

section
/-! PROOFS. Segments at edge rings and on Scheduled Links (R157 to R159, R309, R400). -/

open Sys2Proof Sys2Proof.Machine

namespace Sys2Proof.Proofs

variable {c k : Nat} {s : State}

/-- The store cell of an edge port after the segment `g` has gone into the ring's next slot: a dense segment has values, trailer and
header, at their places of the slot (R158, R159). -/
def ringTakes (t : StoreCell) (g : Seg) (l : List Seg) : StoreCell :=
  let at0 := t.edgeBase.toNat + 1152 * (t.edgeWr.toNat % t.edgeSlots.toNat)
  { t with
    mem := cellsWrite (cellsWrite (cellsWrite t.mem at0 (bytes32 g.vals)) (at0 + 1072) (bytes32 g.trailer)) (at0 + 1088) (leBytes 8 g.header)
    edgeWr := t.edgeWr + 1, edgeQ := l }

/-- A dense segment whose check value is right raises nothing (R400). -/
theorem edgeSlotWrite_dense (hk : isEdgePort c k = true) {g : Seg} {l : List Seg} (hq : (s.store c k).edgeQ = g :: l)
    (hr : (s.store c k).ringRoom = true) (hf : g.form = 0) (hc : crc32c g.body = g.crc) :
    exec (.edgeSlotWrite c k) s = .next (s.setStore c k (ringTakes (s.store c k) g l)) := by
  change execEdgeSlotWrite c k s = _
  simp only [execEdgeSlotWrite, hk, onUnit_true, hq, hr, hf, hc, Bool.not_true, Bool.false_eq_true, if_false, if_true, ringTakes]

theorem edgeSlotWrite_idle (hk : isEdgePort c k = true) (hq : (s.store c k).edgeQ = []) : exec (.edgeSlotWrite c k) s = .next s := by
  change execEdgeSlotWrite c k s = _
  simp only [execEdgeSlotWrite, hk, onUnit_true, hq]

/-- The segment that the neighbour in direction `d` holds for this Comb reaches the edge port whose turn it is, and the link is empty
again (R309). -/
theorem slSegmentArrival_takes {d c' n : Nat} {g : Seg} {a : Area} (hc : isComb c = true) (hd : d < 4) (hn : slNeighbour c d = some c')
    (hr : s.residentAt c = some n) (hg : tget none (s.area c').slOut (if d % 2 = 0 then d + 1 else d - 1) = some g)
    (ha : (s.area c).toEdge (s.slRx n d) (if g.first then 0 else tget 0 (s.area c).slK d) { g with src := d + 1 } = some a) :
    exec (.slSegmentArrival c d) s =
      .next ((s.setArea c { a with slK := tset 0 a.slK d ((if g.first then 0 else tget 0 (s.area c).slK d) + 1) }).setArea c'
        { s.area c' with slOut := tdel (s.area c').slOut (if d % 2 = 0 then d + 1 else d - 1) }) := by
  change execSlSegmentArrival c d s = _
  simp only [execSlSegmentArrival, hc, hd, decide_true, Bool.and_self, onUnit_true, hn, hg, hr, ha]

/-- Settles O18: the ring takes a dense segment, stays without one, and the link hands its segment over. -/
theorem edgeRingsAndScheduledLinks : Obligations.EdgeRingsAndScheduledLinks := by
  unfold Obligations.EdgeRingsAndScheduledLinks
  refine ⟨?_, ?_, ?_⟩
  · intro c k s g l hk t hq hr hf hc
    exact edgeSlotWrite_dense hk hq hr hf hc
  · exact fun c k s hk hq => edgeSlotWrite_idle hk hq
  · intro c d c' n s g a hc hd hn hr d' hg i ha
    exact slSegmentArrival_takes hc hd hn hr hg ha

end Sys2Proof.Proofs
end

section
/-! PROOFS. Scalar instructions, branches and jumps of a Worker Cell slot (R174, R176, R177). -/

open Sys2Proof Sys2Proof.Machine Sys2Proof.Claims

namespace Sys2Proof.Proofs

/-! The model's tests and immediates as the table states them -/

theorem b2w_slt (a b : W32) : b2w (a.slt b) = if a.toInt < b.toInt then 1 else 0 := by
  simp only [b2w, BitVec.slt, decide_eq_true_eq]

theorem b2w_ult (a b : W32) : b2w (a.ult b) = if a.toNat < b.toNat then 1 else 0 := by
  simp only [b2w, BitVec.ult, decide_eq_true_eq]

theorem not_slt (a b : W32) : (!a.slt b) = decide (b.toInt ≤ a.toInt) := by
  rw [BitVec.slt, ← decide_not, decide_eq_decide, not_lt]

theorem not_ult (a b : W32) : (!a.ult b) = decide (b.toNat ≤ a.toNat) := by
  rw [BitVec.ult, ← decide_not, decide_eq_decide, not_lt]

/-- The sign of the word's low half is the sign of `IMM` (R174). -/
theorem immS_wImm (w : Nat) : immS (wImm w) = BitVec.ofInt 32 (wSImm w) := by
  simp only [immS, wSImm, wImm, fld, sgn, pow_zero, Nat.div_one, Nat.mod_mod]

/-- `SHI` takes its kind and its count from two fields of the word (R176). -/
theorem shiOf_wImm (a : W32) (w : Nat) : shiOf a (wImm w) =
    if fld w 5 2 = 0 then a <<< fld w 0 5 else if fld w 5 2 = 1 then a >>> fld w 0 5 else a.sshiftRight (fld w 0 5) := by
  have hcount : wImm w % 32 = fld w 0 5 := by simp only [wImm, fld]; omega
  have hkind : fld (wImm w) 5 2 = fld w 5 2 := by simp only [wImm, fld]; omega
  simp only [shiOf, hcount, hkind]

/-! Instructions that compute -/

section Issued

variable {o : COp} {u : SlotRef} {s : State} {w : Nat} (h : issues o u s w)
include h

theorem alu_issues (f : W32 → W32 → W32) :
    cellPure o u (sAlu f) s = setsS s u (wD w) (f ((s.slot u).s (wA w)) ((s.slot u).s (wB w))) := by
  rw [cellPure_issues h, sAlu, now_s, now_s, setsS]

theorem imm_issues (f : W32 → Nat → W32) :
    cellPure o u (sImm f) s = setsS s u (wD w) (f ((s.slot u).s (wA w)) (wImm w)) := by
  rw [cellPure_issues h, sImm, now_s, setsS]

end Issued

/-! Transfers (R177) -/

theorem pcOk_iff (t : Nat) : pcOk t = true ↔ 0 ≤ (t : Int) ∧ (t : Int) ≤ 0x3FFF ∧ (t : Int) % 4 = 0 := by
  rw [pcOk, decide_eq_true_eq]
  omega

theorem cellEnd_jump (s : State) (u : SlotRef) (x : WSlot) (t : Nat) :
    (.next ((fetched s u).cellEnd u (s.slot u).pc (.jump (s.setSlot u x) t)) : Res) = transfer s u x t := by
  by_cases ht : pcOk t = true
  · rw [transfer, if_pos ((pcOk_iff t).1 ht)]
    simp [State.cellEnd, ht, retireAt]
  · rw [transfer, if_neg (mt (pcOk_iff t).2 ht)]
    simp [State.cellEnd, ht, stops, fetched]

/-- An address below local memory and one past its end stop the slot alike. -/
theorem transfer_pcPlus (s : State) (u : SlotRef) (x : WSlot) (pc : Nat) (off : Int) :
    transfer s u x (pcPlus pc off) = transfer s u x (pc + 4 * off) := by
  by_cases hneg : (pc : Int) + 4 * off < 0
  · have hlow : ¬ (0 ≤ (pc : Int) + 4 * off ∧ (pc : Int) + 4 * off ≤ 0x3FFF ∧ ((pc : Int) + 4 * off) % 4 = 0) := by omega
    have hpast : ¬ (0 ≤ ((0x4000 : Nat) : Int) ∧ ((0x4000 : Nat) : Int) ≤ 0x3FFF ∧ ((0x4000 : Nat) : Int) % 4 = 0) := by omega
    rw [pcPlus, if_pos hneg, transfer, if_neg hpast, transfer, if_neg hlow]
  · rw [pcPlus, if_neg hneg, Int.toNat_of_nonneg (not_lt.1 hneg)]

section Transfer

variable {o : COp} {u : SlotRef} {s : State} {w : Nat}

theorem branch_issues (h : issues o u s w) (p : W32 → W32 → Bool) :
    branch o p u s = branchOn (p ((s.slot u).s (wD w)) ((s.slot u).s (wA w))) s u w := by
  rw [branch, cellRun_fetched h]
  simp only [slot_fetched, now_s, now_pc, branchOn]
  split
  · exact (cellEnd_jump s u (now s u) _).trans (transfer_pcPlus ..)
  · exact cellEnd_retire s u (now s u)

/-- The slot that links: its destination holds the address of the next word (R176). -/
theorem setS_linkOf (s : State) (u : SlotRef) (d : Nat) :
    (now s u).setS d (linkOf (now s u)) = (now s u).setS d (BitVec.ofNat 32 ((s.slot u).pc + 4)) := by
  rw [linkOf, now_pc]

theorem jal_issues (h : issues .jal u s w) : exec (.cJal u) s =
    transfer s u ((now s u).setS (wD w) (BitVec.ofNat 32 ((s.slot u).pc + 4))) ((s.slot u).pc + 4 * wSImm w) := by
  change execCJal u s = _
  rw [execCJal, cellRun_fetched h]
  simp only [slot_fetched, setSlot_fetched, setS_linkOf, now_pc, cellEnd_jump, transfer_pcPlus]

theorem jr_issues (h : issues .jr u s w) : exec (.cJr u) s =
    transfer s u ((now s u).setS (wD w) (BitVec.ofNat 32 ((s.slot u).pc + 4))) ((s.slot u).s (wA w)).toNat := by
  change execCJr u s = _
  rw [execCJr, cellRun_fetched h]
  simp only [slot_fetched, setSlot_fetched, setS_linkOf, now_s, cellEnd_jump]

end Transfer

/-- Settles O4: what computes goes through `alu_issues` and `imm_issues`, what transfers through `cellEnd_jump`. -/
theorem scalarInstructionsAndBranches : Obligations.ScalarInstructionsAndBranches := by
  unfold Obligations.ScalarInstructionsAndBranches
  constructor
  · intro u s w a b n d imm
    refine ⟨?nop, ?add, ?sub, ?and, ?or, ?xor, ?shl, ?shr, ?sra, ?slt, ?sltu, ?mul, ?mulhu, ?addi, ?andi, ?ori, ?xori, ?shiLeft, ?shiRight,
      ?shiArith, ?lui⟩
    case nop => exact fun h => cellPure_issues h fun _ x => x
    case addi => exact fun h => (imm_issues h _).trans (by rw [immS_wImm])
    case shiLeft => exact fun h hk => (imm_issues h _).trans (by rw [shiOf_wImm, if_pos hk])
    case shiRight => exact fun h hk => (imm_issues h _).trans (by rw [shiOf_wImm, if_neg (by omega), if_pos hk])
    case shiArith => exact fun h hk => (imm_issues h _).trans (by rw [shiOf_wImm, if_neg (by omega), if_neg (by omega)])
    case lui => exact fun h => cellPure_issues h fun w x => x.setS (wD w) (BitVec.ofNat 32 (wImm21 w * 2 ^ 11))
    case slt => exact fun h => (alu_issues h _).trans (by rw [b2w_slt])
    case sltu => exact fun h => (alu_issues h _).trans (by rw [b2w_ult])
    case andi | ori | xori => exact fun h => imm_issues h _
    all_goals exact fun h => alu_issues h _
  · intro u s w a b link
    refine ⟨?beq, ?bne, ?blt, ?bge, ?bltu, ?bgeu, jal_issues, jr_issues⟩
    case beq | blt | bltu => exact fun h => branch_issues h _
    case bne => exact fun h => (branch_issues h fun a b => a != b).trans (by rw [bne, beq_eq_decide, ← decide_not])
    case bge => exact fun h => (branch_issues h fun a b => !a.slt b).trans (by rw [not_slt])
    case bgeu => exact fun h => (branch_issues h fun a b => !a.ult b).trans (by rw [not_ult])

end Sys2Proof.Proofs
end

section
/-! PROOFS. Loads and stores of local memory outside a locked sequence (R172, R176, R178). -/

open Sys2Proof Sys2Proof.Machine Sys2Proof.Claims

namespace Sys2Proof.Proofs

/-! The cell after the fetch: its slot holds the line, its memory is as it was (R172) -/

@[simp] theorem cellSlot_fetched (s : State) (u : SlotRef) : ((fetched s u).worker u.comb u.cell).slot u.slot = now s u := slot_fetched s u

@[simp] theorem cellMem_fetched (s : State) (u : SlotRef) : ((fetched s u).worker u.comb u.cell).mem = (s.worker u.comb u.cell).mem := by
  obtain ⟨sl, h⟩ := setSlot_worker s u (now s u) u.comb u.cell
  rw [fetched, h]

/-! Addresses -/

/-- The address that a load or store of local memory names (R176). -/
abbrev localAddr (x : WSlot) (w : Nat) : Nat := (x.s (wA w) + BitVec.ofInt 32 (wSImm w)).toNat

theorem memAddr_now (w : Nat) (s : State) (u : SlotRef) : memAddr w (now s u) = localAddr (s.slot u) w := by
  rw [memAddr, now_s, immS_wImm]

/-- An aligned access that begins inside local memory ends inside it, since its size divides the memory's (R178). -/
theorem memOk_iff {n : Nat} (a : Nat) (hn : n ∣ 0x4000) : memOk a n = true ↔ a % n = 0 ∧ a < 0x4000 := by
  have hpos : 0 < n := Nat.pos_of_dvd_of_pos hn (by decide)
  obtain ⟨k, hk⟩ := hn
  rw [memOk, decide_eq_true_eq, and_congr_right_iff]
  intro ha
  obtain ⟨q, rfl⟩ := Nat.dvd_of_mod_eq_zero ha
  rw [hk, ← Nat.mul_succ, Nat.mul_le_mul_left_iff hpos, Nat.mul_lt_mul_left hpos, Nat.succ_le_iff]

/-! What a slot outside a locked sequence sees and stores -/

theorem seenNat_unlocked (k : Worker) {x : WSlot} (hl : x.lock = none) (a n : Nat) : seenNat k x a n = leNat (cellsRead k.mem a n) := by
  simp only [seenNat, seenByte, hl, cellsRead]

section Access

variable {u : SlotRef} {s : State} {w : Nat}

theorem storeLocal_unlocked (hl : (s.slot u).lock = none) (a : Nat) (bs : List Byte) :
    storeLocal u a bs (fetched s u) = .next ((fetched s u).setWorker u.comb u.cell
      { (fetched s u).worker u.comb u.cell with mem := cellsWrite ((fetched s u).worker u.comb u.cell).mem a bs }) := by
  simp only [storeLocal, cellSlot_fetched, now_lock, hl]

/-- A load whose address passes the test of R178. -/
theorem ld_loads (hl : (s.slot u).lock = none) (h : issues .ld u s w) (ha : memOk (localAddr (s.slot u) w) 4 = true) : exec (.cLd u) s =
    setsS s u (wD w) (BitVec.ofNat 32 (leNat (cellsRead (s.worker u.comb u.cell).mem (localAddr (s.slot u) w) 4))) := by
  change execCLd u s = _
  rw [execCLd, cellRun_fetched h]
  simp only [cellSlot_fetched, memAddr_now, ha, if_true, seenNat_unlocked _ ((now_lock s u).trans hl), cellMem_fetched, setSlot_fetched,
    cellEnd_retire, setsS]

theorem vld_loads (hl : (s.slot u).lock = none) (h : issues .vld u s w) (ha : memOk (localAddr (s.slot u) w) 64 = true) : exec (.cVld u) s =
    setsV s u (wD w) ((List.range 16).map fun j =>
      BitVec.ofNat 32 (leNat (cellsRead (s.worker u.comb u.cell).mem (localAddr (s.slot u) w + 4 * j) 4))) := by
  change execCVld u s = _
  rw [execCVld, cellRun_fetched h]
  simp only [cellSlot_fetched, memAddr_now, ha, if_true, seenNat_unlocked _ ((now_lock s u).trans hl), cellMem_fetched, setSlot_fetched,
    cellEnd_retire, setsV]

theorem st_stores (hl : (s.slot u).lock = none) (h : issues .st u s w) (ha : memOk (localAddr (s.slot u) w) 4 = true) :
    let k := (fetched s u).worker u.comb u.cell
    exec (.cSt u) s = done s u ((fetched s u).setWorker u.comb u.cell
      { k with mem := cellsWrite k.mem (localAddr (s.slot u) w) (leBytes 4 ((s.slot u).s (wD w)).toNat) }) := by
  change execCSt u s = _
  rw [execCSt, cellRun_fetched h]
  simp only [slot_fetched, memAddr_now, now_s, ha, if_true, storeLocal_unlocked hl, cellEnd_next]

theorem vst_stores (hl : (s.slot u).lock = none) (h : issues .vst u s w) (ha : memOk (localAddr (s.slot u) w) 64 = true) :
    let k := (fetched s u).worker u.comb u.cell
    exec (.cVst u) s = done s u ((fetched s u).setWorker u.comb u.cell
      { k with mem := cellsWrite k.mem (localAddr (s.slot u) w) (bytes32 ((s.slot u).vec (wD w))) }) := by
  change execCVst u s = _
  rw [execCVst, cellRun_fetched h]
  simp only [slot_fetched, memAddr_now, now_vec, ha, if_true, storeLocal_unlocked hl, cellEnd_next]

/-- An access whose address fails the test of R178 stops the slot. -/
theorem cellRun_misaddressed {o : COp} (h : issues o u s w) {n : Nat} (ha : ¬ memOk (localAddr (s.slot u) w) n = true)
    {access body : Nat → State → CRes}
    (hb : ∀ v t, body v t = if memOk (memAddr v (t.slot u)) n = true then access v t else .fault t 0x3006#16) :
    cellRun o u body s = stops s u 0x3006#16 := by
  rw [cellRun_fetched h, hb, slot_fetched, memAddr_now, if_neg ha, cellEnd_fault]

end Access

/-- Settles O5: `memOk_iff` splits each access into the one that is done and the one that stops; the frame is `tget_cellsWrite_out`. -/
theorem localLoadsAndStores : Obligations.LocalLoadsAndStores := by
  unfold Obligations.LocalLoadsAndStores
  intro u s w hl k a d
  have word : memOk a 4 = true ↔ a % 4 = 0 ∧ a < 0x4000 := memOk_iff a (by decide)
  have line : memOk a 64 = true ↔ a % 64 = 0 ∧ a < 0x4000 := memOk_iff a (by decide)
  refine ⟨?_, ?_, ?_, ?_, ?_, ?_, ?_, ?_, fun m b j => tget_cellsWrite_out b m a j⟩
  · exact fun h hal hin => ld_loads hl h (word.2 ⟨hal, hin⟩)
  · exact fun h hal hin => vld_loads hl h (line.2 ⟨hal, hin⟩)
  · exact fun h hal hin => st_stores hl h (word.2 ⟨hal, hin⟩)
  · exact fun h hal hin => vst_stores hl h (line.2 ⟨hal, hin⟩)
  · exact fun h ha => cellRun_misaddressed h (mt word.1 ha) fun _ _ => rfl
  · exact fun h ha => cellRun_misaddressed h (mt line.1 ha) fun _ _ => rfl
  · exact fun h ha => cellRun_misaddressed h (mt word.1 ha) fun _ _ => rfl
  · exact fun h ha => cellRun_misaddressed h (mt line.1 ha) fun _ _ => rfl

end Sys2Proof.Proofs
end

section
/-! PROOFS. Vector arithmetic on FP32, BF16 and INT32 lanes, reductions and moves of a Worker Cell slot (R175, R176, R179, R180). -/

open Sys2Proof Sys2Proof.Machine Sys2Proof.Claims

namespace Sys2Proof.Proofs

section Lanes

variable {o : COp} {u : SlotRef} {s : State} {w : Nat} (h : issues o u s w)
include h

/-! FP32 lanes, or with `FN`[4] the BF16 halves of the lanes -/

theorem vArith_issues (f : Nat → FV → FV → W32) :
    let va := (s.slot u).vec (wA w)
    let vb := (s.slot u).vec (wB w)
    cellPure o u (vArith f) s = setsV s u (wD w)
      (if bit w 4 then packHalves (((halves va).zip (halves vb)).map fun p => bfDown (f 8 (fv (bfUp p.1)) (fv (bfUp p.2))))
       else (va.zip vb).map fun p => f 24 (fv p.1) (fv p.2)) := by
  simp only [cellPure_issues h, vArith, now_vec, setsV]

theorem vFun_issues (f : Nat → W32 → W32) :
    let va := (s.slot u).vec (wA w)
    cellPure o u (vFun f) s = setsV s u (wD w)
      (if bit w 4 then packHalves ((halves va).map fun x => bfDown (f 8 (bfUp x))) else va.map (f 24)) := by
  simp only [cellPure_issues h, vFun, now_vec, setsV]

theorem vFma_single (hf : bit w 4 = false) :
    cellPure o u vFma s = setsV s u (wD w)
      ((((s.slot u).vec (wD w)).zip (((s.slot u).vec (wA w)).zip ((s.slot u).vec (wB w)))).map fun p =>
        ffmaP 24 (fv p.1) (fv p.2.1) (fv p.2.2)) := by
  simp only [cellPure_issues h, vFma, now_vec, hf, Bool.false_eq_true, if_false, setsV]

theorem vFma_halves (hf : bit w 4 = true) :
    cellPure o u vFma s = setsV s u (wD w)
      (packHalves (((halves ((s.slot u).vec (wD w))).zip
        ((halves ((s.slot u).vec (wA w))).zip (halves ((s.slot u).vec (wB w))))).map fun p =>
          bfDown (ffmaP 8 (fv (bfUp p.1)) (fv (bfUp p.2.1)) (fv (bfUp p.2.2))))) := by
  simp only [cellPure_issues h, vFma, now_vec, hf, if_true, setsV]

/-! INT32 lanes and the reduction tree -/

theorem vInt_issues (f : W32 → W32 → W32) :
    cellPure o u (vInt f) s = setsV s u (wD w) ((((s.slot u).vec (wA w)).zip ((s.slot u).vec (wB w))).map fun p => f p.1 p.2) := by
  rw [cellPure_issues h, vInt, now_vec, now_vec, setsV]

theorem vRed_issues (f : W32 → W32 → W32) : cellPure o u (vRed f) s = setsS s u (wD w) (redTree f ((s.slot u).vec (wA w))) := by
  rw [cellPure_issues h, vRed, now_vec, setsS]

end Lanes

/-- The four levels join neighbours: lanes, pairs, fours and eights (R180). -/
theorem redTree_vec (f : W32 → W32 → W32) (x : WSlot) (n : Nat) :
    let l (i : Nat) := x.lane n i
    redTree f (x.vec n) =
      f (f (f (f (l 0) (l 1)) (f (l 2) (l 3))) (f (f (l 4) (l 5)) (f (l 6) (l 7))))
        (f (f (f (l 8) (l 9)) (f (l 10) (l 11))) (f (f (l 12) (l 13)) (f (l 14) (l 15)))) := rfl

theorem slt_ite {α : Sort*} (a b : W32) (x y : α) : (if a.slt b then x else y) = if a.toInt < b.toInt then x else y := by
  simp only [BitVec.slt, decide_eq_true_eq]

/-- Settles O6: each operation is `vArith`, `vFun` or `vFma` of one rounded function, or a conversion of the lanes. -/
theorem vectorFloatInstructions : Obligations.VectorFloatInstructions := by
  unfold Obligations.VectorFloatInstructions
  intro u s w va vb vd d two one
  refine ⟨?vadd, ?vsub, ?vmul, ?vmax, ?vmin, ?vfmaSingle, ?vfmaHalves, ?vexp, ?vrcp, ?vrsq, ?down, ?up⟩
  case vadd => exact fun h => vArith_issues h faddP
  case vsub => exact fun h => vArith_issues h fun p x y => faddP p x (fnegV y)
  case vmul => exact fun h => vArith_issues h fmulP
  case vmax => exact fun h => vArith_issues h fmaxP
  case vmin => exact fun h => vArith_issues h fminP
  case vfmaSingle => exact fun h hf => vFma_single h hf
  case vfmaHalves => exact fun h hf => vFma_halves h hf
  case vexp => exact fun h => vFun_issues h fexpP
  case vrcp => exact fun h => vFun_issues h frcpP
  case vrsq => exact fun h => vFun_issues h frsqP
  case down =>
    intro h
    change execCVcvtFp32ToBf16 u s = _
    rw [execCVcvtFp32ToBf16, cellPure_issues h, now_vec, now_vec, setsV]
  case up =>
    intro h
    change execCVcvtBf16ToFp32 u s = _
    rw [execCVcvtBf16ToFp32, cellPure_issues h, now_vec]

/-- Settles O7: lane operations and reductions go through `vInt_issues` and `vRed_issues`, the tree is `redTree_vec`, and a move reads
registers that the fetch leaves as they were. -/
theorem vectorIntegerReduceMove : Obligations.VectorIntegerReduceMove := by
  unfold Obligations.VectorIntegerReduceMove
  intro u s w x d va lanes tree
  have reduced (f : W32 → W32 → W32) : redTree f va = tree f := redTree_vec f x (wA w)
  refine ⟨?viadd, ?visub, ?vimul, ?vand, ?vor, ?vxor, ?vshl, ?vshr, ?vsra, ?vilt, ?fsum, ?fmax, ?isum, ?imax, ?vbc, ?vget, ?vset, ?vmov⟩
  case viadd => exact fun h => vInt_issues h (· + ·)
  case visub => exact fun h => vInt_issues h (· - ·)
  case vimul => exact fun h => vInt_issues h (· * ·)
  case vand => exact fun h => vInt_issues h (· &&& ·)
  case vor => exact fun h => vInt_issues h (· ||| ·)
  case vxor => exact fun h => vInt_issues h (· ^^^ ·)
  case vshl => exact fun h => vInt_issues h fun a b => a <<< (b.toNat % 32)
  case vshr => exact fun h => vInt_issues h fun a b => a >>> (b.toNat % 32)
  case vsra => exact fun h => vInt_issues h fun a b => a.sshiftRight (b.toNat % 32)
  case vilt => exact fun h => (vInt_issues h fun a b => if a.slt b then 1 else 0).trans (by simp only [slt_ite, lanes, va, x, d])
  case fsum => exact fun h => (vRed_issues h fadd32).trans (congrArg _ (reduced _))
  case fmax => exact fun h => (vRed_issues h fun a b => fmaxP 24 (fv a) (fv b)).trans (congrArg _ (reduced _))
  case isum => exact fun h => (vRed_issues h (· + ·)).trans (congrArg _ (reduced _))
  case imax => exact fun h => (vRed_issues h fun a b => if a.slt b then b else a).trans (by simp only [slt_ite]; exact congrArg _ (reduced _))
  case vbc =>
    intro h
    change execCVbc u s = _
    rw [execCVbc, cellPure_issues h, now_s, setsV]
  case vget =>
    intro h
    change execCVget u s = _
    rw [execCVget, cellPure_issues h, now_lane, setsS]
  case vset =>
    intro h
    change execCVset u s = _
    rw [execCVset, cellPure_issues h, now_s]
  case vmov =>
    intro h
    change execCVmov u s = _
    rw [execCVmov, cellPure_issues h, now_vec, setsV]

end Sys2Proof.Proofs
end

section
/-! PROOFS. Fences, locked sequences, spawning and the end of a Worker Cell slot (R173, R188, R190 to R193, R245, R249). -/

open Sys2Proof Sys2Proof.Machine Sys2Proof.Claims

namespace Sys2Proof.Proofs

section Slots

variable {u : SlotRef} {s : State} {w : Nat}

/-! Fences (R245, R249) -/

theorem fenceR_holds (h : issues .fenceR u s w) :
    exec (.cFenceRelease u) s = .next (retire s u { now s u with held := !(now s u).outst.isEmpty }) :=
  cellPure_issues h fun _ x => x.release

theorem fenceA_empties (h : issues .fenceA u s w) : exec (.cFenceAcquire u) s = .next (retire s u (now s u).acquire) :=
  cellPure_issues h fun _ x => x.acquire

/-- A fence of both kinds takes its two effects, in either order (R245). -/
theorem fenceRA_holds_empties (h : issues .fenceRA u s w) :
    exec (.cFenceReleaseAcquire u) s = .next (retire s u { (now s u).acquire with held := !(now s u).outst.isEmpty }) :=
  cellPure_issues h fun _ x => x.release.acquire

/-! Locked sequences (R190, R192) -/

theorem lock_records (h : issues .lock u s w) : exec (.cLock u) s =
    let x := now s u
    .next (retire s u { x with lock := some { sregs := x.sregs, vregs := x.vregs, rng := x.rng, pc := x.pc } }) := by
  change execCLock u s = _
  rw [execCLock, cellRun_fetched h]
  simp only [slot_fetched, setSlot_fetched, cellEnd_retire]

theorem unlock_writes (h : issues .unlock u s w) {l : LockRec} (hl : (now s u).lock = some l) : exec (.cUnlock u) s =
    let k := (fetched s u).worker u.comb u.cell
    done s u ((fetched s u).setWorker u.comb u.cell
      ({ k with mem := l.buf.foldl (fun (m : Tbl Byte) (e : Nat × Byte) => tset 0 m e.1 e.2) k.mem }.setSlot u.slot
        { now s u with lock := none })) := by
  change execCUnlock u s = _
  rw [execCUnlock, cellRun_fetched h]
  simp only [cellSlot_fetched, hl, cellEnd_next]

/-! Spawning and the slot's end (R173, R188) -/

/-- The slot that `SPAWN` names (R188). -/
abbrev spawned (s : State) (u : SlotRef) (w : Nat) : Nat := ((s.slot u).s (wA w)).toNat % 4
/-- The address at which it is to start. -/
abbrev spawnPc (s : State) (u : SlotRef) (w : Nat) : Nat := ((s.slot u).s (wB w)).toNat

/-- The issuing slot runs, so it cannot start itself (log entry 20); nor can a slot that runs, is frozen or waits (R188). -/
def spawnBusy (s : State) (u : SlotRef) (w : Nat) : Prop :=
  let y := ((fetched s u).worker u.comb u.cell).slot (spawned s u w)
  spawned s u w = u.slot ∨ y.running = true ∨ y.frozen = true ∨ y.wait ≠ .ready

theorem spawn_badAddress (h : issues .spawn u s w) (hp : pcOk (spawnPc s u w) = false) : exec (.cSpawn u) s = stops s u 0x3006#16 := by
  change execCSpawn u s = _
  rw [execCSpawn, cellRun_fetched h]
  simp only [cellSlot_fetched, now_s, hp, Bool.not_false, if_true, cellEnd_fault]

theorem spawn_busy (h : issues .spawn u s w) (hp : pcOk (spawnPc s u w) = true) (hb : spawnBusy s u w) :
    exec (.cSpawn u) s = stops s u 0x4208#16 := by
  change execCSpawn u s = _
  rw [execCSpawn, cellRun_fetched h]
  simp only [cellSlot_fetched, now_s, hp, Bool.not_true, Bool.false_eq_true, if_false]
  rw [if_pos (by simpa [spawnBusy, or_assoc] using hb), cellEnd_fault]

theorem spawn_starts (h : issues .spawn u s w) (hp : pcOk (spawnPc s u w) = true) (hb : ¬ spawnBusy s u w) :
    exec (.cSpawn u) s = done s u ((fetched s u).setSlot ⟨u.comb, u.cell, spawned s u w⟩
      (startedAt (((fetched s u).worker u.comb u.cell).slot (spawned s u w)) (spawnPc s u w))) := by
  change execCSpawn u s = _
  rw [execCSpawn, cellRun_fetched h]
  simp only [cellSlot_fetched, now_s, hp, Bool.not_true, Bool.false_eq_true, if_false]
  rw [if_neg (by simpa [spawnBusy, or_assoc] using hb), cellEnd_next]

theorem end_stops (h : issues .endSlot u s w) : exec (.cEnd u) s =
    .next (((fetched s u).setSlot u { now s u with running := false, pc := (s.slot u).pc + 4 }).issued u) := by
  change execCEnd u s = _
  rw [execCEnd, cellRun_fetched h]
  simp only [State.cellEnd, slot_fetched]

end Slots

/-- Settles O12: one lemma for each instruction, and for `SPAWN` one for each way it ends. -/
theorem fencesLocksSlots : Obligations.FencesLocksSlots := by
  unfold Obligations.FencesLocksSlots
  intro u s w x f k t pc
  have address : pcOk pc = true ↔ pc % 4 = 0 ∧ pc ≤ 0x3FFF := by rw [pcOk, decide_eq_true_eq]
  refine ⟨fenceR_holds, fun h => ⟨fenceA_empties h, rfl⟩, fenceRA_holds_empties, lock_records, ?_, ?_, ?_, ?_, end_stops⟩
  · exact fun h l hl => unlock_writes h hl
  · intro h hal hin hself hrun hfrozen hwait
    refine spawn_starts h (address.2 ⟨hal, hin⟩) ?_
    rintro (hb | hb | hb | hb)
    · exact hself hb
    · exact Bool.eq_false_iff.1 hrun hb
    · exact Bool.eq_false_iff.1 hfrozen hb
    · exact hb hwait
  · exact fun h hal hin hb => spawn_busy h (address.2 ⟨hal, hin⟩) hb
  · exact fun h hp => spawn_badAddress h (Bool.eq_false_iff.2 (mt address.1 hp))

end Sys2Proof.Proofs
end

section
/-! PROOFS. Accesses that end in an error, by the kind of master that waits for them (R189, R297, R349). -/

open Sys2Proof Sys2Proof.Machine Sys2Proof.Claims

namespace Sys2Proof.Proofs

/-- An error reaches a master of the part (R240). -/
theorem errorCompletion_isMaster {m : Master} (hm : isMaster m = true) (id : Nat) (code : W16) (s : State) :
    exec (.errorCompletion m id code) s = .next (s.completeErr m id code (if masterComb m < 480 then masterComb m else 0)) := by
  change execErrorCompletion m id code s = _
  rw [execErrorCompletion, hm, onUnit_true]

/-- What waits for the request is not swapped out: a master of the Rim never is, and the resident context's masters are live (R218). -/
theorem forWaiter_live {s : State} {m : Master} {id : Nat} (h : 480 ≤ masterComb m ∨ (s.area (masterComb m)).waitsFor m id = true)
    (f : State → State) : s.forWaiter m id f = f s := by
  have hw : s.waiterOf m id = none := by
    rw [State.waiterOf]
    exact if_pos (by simpa using h)
  rw [State.forWaiter, hw]

/-! A slot (R189) -/

@[simp] theorem trace_events (s : State) (c kind unit index arg : Nat) : (s.trace c kind unit index arg).events = s.events := by
  unfold State.trace
  split
  · rfl
  · dsimp only
    split <;> rfl

@[simp] theorem slot_trace (s : State) (c kind unit index arg : Nat) (u : SlotRef) : (s.trace c kind unit index arg).slot u = s.slot u := by
  rw [State.slot, worker_trace]
  rfl

/-- A locked sequence rolls back registers, random state and PC, not the accesses still out (R193). -/
@[simp] theorem rollback_outst (x : WSlot) : x.rollback.outst = x.outst := by
  unfold WSlot.rollback
  split <;> rfl

section AccessFault

variable (s : State) (u : SlotRef) (id pc : Nat) (code : W16)

theorem slot_accessFault : (s.accessFault u id pc code).slot u =
    let x := (s.slot u).completed id
    { x.rollback with running := false, fault := code.setWidth 32, fpc := BitVec.ofNat 32 pc, wait := .ready, held := false
                      pend := x.pend.filter (fun p => p.id != id) } := by
  rw [State.accessFault, slot_trace]
  exact State.slot_setSlot_same s u _

theorem events_accessFault : (s.accessFault u id pc code).events = s.events ++
    [⟨s.residentAt u.comb, code, u.comb, masterField (.worker u.comb u.cell u.slot), 0, s.faultEpoch (s.residentAt u.comb)⟩] := by
  rw [State.accessFault, trace_events]
  rfl

variable {s u id}

theorem completeErr_worker (h : (s.slot u).outst.contains id = true) (c : Nat) :
    s.completeErr (.worker u.comb u.cell u.slot) id code c = s.accessFault u id (tget 0 (s.slot u).outPc id) code := by
  have hw : (s.area u.comb).waitsFor (.worker u.comb u.cell u.slot) id = true := Bool.or_eq_true_iff.2 (.inl h)
  rw [State.completeErr, forWaiter_live (.inr hw)]
  exact if_pos h

end AccessFault

/-! A command of a Forager (R295, R297) -/

/-- No unit that the command still awaits carries the request: its next unit is the one that failed. -/
theorem completeErr_forager {s : State} {c f id k : Nat} (hw : (s.area c).waitsFor (.forager c f) id = true)
    (hk : (s.forager c f).slotOf id = some k) (hf : (tget {} (s.forager c f).slots k).fault = none)
    (hu : (tget {} (s.forager c f).slots k).units = []) (code : W16) (j : Nat) :
    let m := tget {} (s.forager c f).slots k
    s.completeErr (.forager c f) id code j = s.setForager c f { s.forager c f with
      slots := tput (s.forager c f).slots k { m with fault := some (code, m.unitIx, 0), outst := m.outst.filter (· != id) } } := by
  rw [State.completeErr, forWaiter_live (.inr hw)]
  simp only [hk, hu, List.find?_nil, FgCmd.fail, hf]

/-! A command of a host ring (R349) -/

/-- The host command after the error: one that waits for the request no longer does, and the first error of a command is its status. -/
def hostErrored (id : Nat) (code : W16) (c : Nat) (ep : W64) (h : HCmd) : HCmd :=
  if h.outst.contains id then
    { h with outst := h.outst.filter (· != id), comb := if h.status = none then c else h.comb
             epoch := if h.status = none then ep else h.epoch
             status := match h.status with | none => some (2, code) | some x => some x }
  else h

theorem completeErr_host (s : State) (f id : Nat) (code : W16) (c : Nat) :
    s.completeErr (.host f) id code c = s.setRing f { s.ring f with
      cmds := (s.ring f).cmds.map (hostErrored id code c (s.faultEpoch (s.masterCtx (.host f)))) } := by
  rw [State.completeErr, forWaiter_live (.inl le_rfl)]
  rfl

section HostErrored

variable (id : Nat) (code : W16) (c : Nat) (ep : W64) (h : HCmd)

theorem hostErrored_words : (hostErrored id code c ep h).words = h.words := by
  unfold hostErrored
  split <;> rfl

theorem hostErrored_outst : (hostErrored id code c ep h).outst = h.outst.filter (· != id) := by
  unfold hostErrored
  split
  · rfl
  · next hn =>
    refine (List.filter_eq_self.2 fun j hj => bne_iff_ne.2 ?_).symm
    rintro rfl
    exact hn (List.contains_iff_mem.2 hj)

variable {id h}

theorem hostErrored_status (hw : h.outst.contains id = true) (hs : h.status = none) :
    (hostErrored id code c ep h).status = some (2, code) := by
  rw [hostErrored, if_pos hw, hs]

end HostErrored

/-- Settles O23: `forWaiter_live` finds what waits, and the error ends it as its kind of master says. -/
theorem accessesEndInErrors : Obligations.AccessesEndInErrors := by
  unfold Obligations.AccessesEndInErrors
  intro s id code
  refine ⟨?slot, ?forager, ?host⟩
  case slot =>
    intro u hu ho
    refine ⟨_, errorCompletion_isMaster (m := .worker u.comb u.cell u.slot) hu id code s, ?_⟩
    rw [completeErr_worker code ho]
    beta_reduce
    rw [slot_accessFault, events_accessFault]
    exact ⟨rfl, rfl, rfl, rollback_outst _, rfl⟩
  case forager =>
    intro c f k hc hf hw hk hfault hunits m
    have hm : isMaster (.forager c f) = true := by simp [isMaster, hc, hf]
    rw [errorCompletion_isMaster hm, completeErr_forager hw hk hfault hunits]
  case host =>
    intro f hf
    refine ⟨_, errorCompletion_isMaster (m := .host f) hf id code s, ?_⟩
    rw [completeErr_host]
    beta_reduce
    rw [State.ring_setRing_same]
    refine ⟨rfl, ?_, ?_⟩
    · simp only [List.map_map, Function.comp_def, hostErrored_words, hostErrored_outst]
    · intro k h hk hw hs
      exact ⟨_, by rw [List.getElem?_map, hk, Option.map_some], hostErrored_status code _ _ hw hs⟩

end Sys2Proof.Proofs
end

section
/-! PROOFS. A narrow write to a Comb's memory that holds no bad word and no poisoned line (R208, R209): it lays down its bytes and no
others. -/

open Sys2Proof Sys2Proof.Machine

namespace Sys2Proof.Proofs

/-! Ranges of lines -/

theorem line_mem_linesOf {a n i : Nat} (h : a ≤ i) (h' : i < a + n) : i / 64 ∈ linesOf a n := by
  have hn : n ≠ 0 := by omega
  rw [linesOf, if_neg hn, List.mem_map]
  exact ⟨i / 64 - a / 64, List.mem_range.2 (by omega), by omega⟩

/-- The bytes of a part of a write are those of the write that lie in the line. -/
theorem linePart_covers (a : Nat) (bs : List Byte) (l i : Nat) :
    ((linePart a bs l).1 ≤ i ∧ i < (linePart a bs l).1 + (linePart a bs l).2.length) ↔ i / 64 = l ∧ a ≤ i ∧ i < a + bs.length := by
  simp only [linePart, List.length_take, List.length_drop]
  omega

theorem lget_linePart {a : Nat} {bs : List Byte} {l i : Nat} (hl : i / 64 = l) (h : a ≤ i) (h' : i < a + bs.length) :
    lget 0 (linePart a bs l).2 (i - (linePart a bs l).1) = lget 0 bs (i - a) := by
  have inside : i - max a (64 * l) < min (a + bs.length) (64 * l + 64) - max a (64 * l) := by omega
  have place : max a (64 * l) - a + (i - max a (64 * l)) = i - a := by omega
  simp only [linePart, lget, List.getElem?_take_of_lt inside, List.getElem?_drop, place]

theorem byte_put_linePart (m : PMem) (a : Nat) (bs : List Byte) (ep : Bool) (l i : Nat) :
    (m.put (linePart a bs l).1 (linePart a bs l).2 ep).byte i
      = if i / 64 = l ∧ a ≤ i ∧ i < a + bs.length then lget 0 bs (i - a) else m.byte i := by
  rw [PMem.byte, PMem.put, tget_cellsWrite, if_congr (linePart_covers a bs l i) rfl rfl]
  split
  · next h =>
    obtain ⟨hl, hlo, hhi⟩ := h
    exact lget_linePart hl hlo hhi
  · rfl

/-! A memory without poison -/

section Clean

variable {m : PMem} (hp : m.poison = [])
include hp

theorem clearPoison_clean (ls : List Nat) : m.clearPoison ls = m := by
  induction ls with
  | nil => rfl
  | cons l ls ih =>
    rw [PMem.clearPoison, List.foldl_cons, if_pos (by rw [hp]; rfl)]
    exact ih

/-- The lines of a write, one by one: none stops it. -/
theorem writeLines_clean (a : Nat) (bs : List Byte) (ep : Bool) (ls : List Nat) : ∃ m', m.writeLines a bs ep ls = (m', none)
    ∧ m'.ecc = m.ecc ∧ ∀ i, m'.byte i = if i / 64 ∈ ls ∧ a ≤ i ∧ i < a + bs.length then lget 0 bs (i - a) else m.byte i := by
  induction ls generalizing m with
  | nil => exact ⟨m, rfl, rfl, fun i => by simp⟩
  | cons l ls ih =>
    have hp' : (m.put (linePart a bs l).1 (linePart a bs l).2 ep).poison = [] := hp
    obtain ⟨m', hw, hecc, hbyte⟩ := ih hp'
    refine ⟨m', ?_, hecc, fun i => ?_⟩
    · rw [PMem.writeLines, clearPoison_clean hp', hp]
      exact hw
    · rw [hbyte i, byte_put_linePart, ← ite_or]
      exact if_congr (by rw [← or_and_right, or_comm, List.mem_cons]) rfl rfl

theorem write_clean (a : Nat) (bs : List Byte) (ep : Bool) : ∃ m', m.write a bs ep = (m', none)
    ∧ m'.ecc = m.ecc ∧ ∀ i, m'.byte i = if a ≤ i ∧ i < a + bs.length then lget 0 bs (i - a) else m.byte i := by
  obtain ⟨m', hw, hecc, hbyte⟩ := writeLines_clean hp a bs ep (linesOf a bs.length)
  refine ⟨m', hw, hecc, fun i => (hbyte i).trans (if_congr ?_ rfl rfl)⟩
  exact and_iff_right_of_imp fun h => line_mem_linesOf h.1 h.2

end Clean

theorem scanWords_clean {m : PMem} (he : m.ecc = []) (a n : Nat) : m.scanWords a n = (m, []) := by
  unfold PMem.scanWords
  generalize (if n = 0 then [] else _ : List Nat) = ws
  induction ws with
  | nil => rfl
  | cons w ws ih =>
    rw [List.foldl_cons, if_pos (by rw [he]; rfl)]
    exact ih

/-! The resident context's access -/

section Resident

variable {s : State} {k c : Nat}

theorem areaAt_resident (hr : (s.ctx k).resident = true) : s.areaAt (some k) c = s.area c := by
  rw [State.areaAt, State.areaOf, if_pos hr]

theorem setAreaAt_resident (hr : (s.ctx k).resident = true) (a : Area) : s.setAreaAt (some k) c a = s.setArea c a := by
  rw [State.setAreaAt, State.setAreaOf, if_pos hr]

theorem pmem0_resident (hr : (s.ctx k).resident = true) : s.pmem (some k) c 0 = (s.area c).mem := by
  rw [State.pmem, if_neg (by decide), areaAt_resident hr]

theorem setPmem0_resident (hr : (s.ctx k).resident = true) (m : PMem) :
    s.setPmem (some k) c 0 m = s.setArea c { s.area c with mem := m } := by
  rw [State.setPmem, if_neg (by decide), areaAt_resident hr, setAreaAt_resident hr]

/-- An access that finds nothing leaves the area as it was (R208). -/
theorem found0_clean (hr : (s.ctx k).resident = true) (ls : List Nat) :
    s.found0 (some k) c ls ((s.area c).mem, []) = s.setArea c (s.area c) := by
  have new : ls.filter (fun l => tget 0 (s.area c).mem.poison l = 0 && tget 0 (s.area c).mem.poison l = 0x3007#16) = [] := by
    refine List.filter_eq_nil_iff.2 fun l _ h => ?_
    rw [Bool.and_eq_true, decide_eq_true_eq, decide_eq_true_eq] at h
    exact absurd (h.1.symm.trans h.2) (by decide)
  simp only [State.found0, areaAt_resident hr, new, setAreaAt_resident hr]
  rfl

variable (hr : (s.ctx k).resident = true) (hp : (s.area c).mem.poison = []) (he : (s.area c).mem.ecc = [])
include hr hp he

theorem store0_clean (off : Nat) {bs : List Byte} (hbs : bs ≠ []) (ep : Bool) : ∃ m',
    s.store0 (some k) c off bs ep = (s.setArea c { s.area c with mem := m' }, none)
      ∧ ∀ i, m'.byte i = if off ≤ i ∧ i < off + bs.length then lget 0 bs (i - off) else (s.area c).mem.byte i := by
  obtain ⟨m', hw, hecc, hbyte⟩ := write_clean hp off bs ep
  refine ⟨m', ?_, hbyte⟩
  have hne : bs.isEmpty = false := List.isEmpty_eq_false_iff.2 hbs
  have hr' : ((s.setArea c (s.area c)).ctx k).resident = true := hr
  have hm : { m' with ecc := [] } = m' := by rw [← hecc.trans he]
  simp only [State.store0, hne, Bool.false_eq_true, if_false, areaAt_resident hr, scanWords_clean he, found0_clean hr, areaAt_resident hr',
    setAreaAt_resident hr', State.area_setArea_same, hw, setArea_setArea, hecc, he, List.filter_nil, hm]

/-- No Clause runs, so no bank group is in wide use and nothing clashes (R204). -/
theorem narrow0_clean (hw : (s.area c).eng.runs = []) (off : Nat) {bs : List Byte} (hbs : bs ≠ []) (ep : Bool) : ∃ m',
    s.narrow0 (some k) c off bs ep = (s.setArea c { s.area c with mem := m' }, none)
      ∧ ∀ i, m'.byte i = if off ≤ i ∧ i < off + bs.length then lget 0 bs (i - off) else (s.area c).mem.byte i := by
  obtain ⟨m', hst, hbyte⟩ := store0_clean hr hp he off hbs ep
  refine ⟨m', ?_, hbyte⟩
  have clash : s.narrowClash k c off = (false, s) := by simp [State.narrowClash, Area.inWide, hw]
  simp only [State.narrow0, clash, hst, Bool.false_eq_true, if_false]

end Resident

end Sys2Proof.Proofs
end

section
/-! PROOFS. The operation unit of a Comb (R208, R211 to R214): what its oldest operation does while it has not finished, and how a finished
one is reported. -/

open Sys2Proof Sys2Proof.Machine

namespace Sys2Proof.Proofs

/-- The context an operation runs for; 16 is the operator. -/
def opCtx (o : Op) : Option Nat := if o.ctx < 16 then some o.ctx else none

/-- The finished operation, with where it stopped (R212, R213). -/
def opEnded (o : Op) : OpStop → Op
  | some (code, adr, src) => { o with fin := true, fault := code, addr := adr, atSrc := src }
  | none => { o with fin := true }

/-- The operations that `OP_FILL` runs, and those that `OP_COPY` runs. -/
def opRunsIn (isFill : Bool) : OpKind → Bool
  | .fill _ _ _ => isFill
  | .copy _ _ _ => !isFill
  | _ => false

/-- What a fill or copy does to the memory, and where it stops. -/
def opEffect (s : State) (c : Nat) (o : Op) : State × OpStop :=
  match o.kind with
  | .fill d n pat => s.opFill (opCtx o) c d n pat
  | .copy x d n => s.opCopy (opCtx o) c x d n
  | .reduce _ => (s, none)

/-! A fill's bytes -/

theorem computed_bytes (bs : List Nat) (m : PMem) : (m.computed bs).bytes = m.bytes := by
  induction bs generalizing m with
  | nil => rfl
  | cons b bs ih => exact ih _

theorem patBytes_length (d n : Nat) (pat : W32) : (patBytes d n pat).length = n := by rw [patBytes, List.length_map, List.length_range]

theorem lget_patBytes {d n i : Nat} (pat : W32) (h : d ≤ i) (h' : i < d + n) :
    lget 0 (patBytes d n pat) (i - d) = BitVec.ofNat 8 (pat.toNat / 2 ^ (8 * (i % 4))) := by
  have hi : i - d < n := by omega
  have place : d + (i - d) = i := by omega
  simp [lget, patBytes, hi, place]

theorem opForm_pos {a d n : Nat} (h : opForm a d n = true) : 0 < n := by
  simp only [opForm, Bool.and_eq_true, decide_eq_true_eq] at h
  omega

variable {c : Nat} {s : State}

theorem opFill_malformed {d n : Nat} (h : opForm d d n = false) (k : Option Nat) (pat : W32) :
    s.opFill k c d n pat = (s, some (0x3008#16, d, false)) := by rw [State.opFill, h]; rfl

theorem opFill_lays {k d n : Nat} (hr : (s.ctx k).resident = true) (hp : (s.area c).mem.poison = []) (he : (s.area c).mem.ecc = [])
    (hw : (s.area c).eng.runs = []) (hf : opForm d d n = true) (pat : W32) : ∃ m,
    s.opFill (some k) c d n pat = (s.setArea c { s.area c with mem := m }, none)
      ∧ ∀ i, m.byte i = if d ≤ i ∧ i < d + n then BitVec.ofNat 8 (pat.toNat / 2 ^ (8 * (i % 4))) else (s.area c).mem.byte i := by
  have hne : patBytes d n pat ≠ [] := List.ne_nil_of_length_pos (by rw [patBytes_length]; exact opForm_pos hf)
  obtain ⟨m, hn, hbyte⟩ := narrow0_clean hr hp he hw d hne (s.epLow (some k))
  refine ⟨m.computed (wholeBlocks d n), ?_, fun i => ?_⟩
  · have hr' : ((s.setArea c { s.area c with mem := m }).ctx k).resident = true := hr
    simp only [State.opFill, hf, Bool.not_true, Bool.false_eq_true, if_false, hn, pmem0_resident hr', setPmem0_resident hr',
      State.area_setArea_same, setArea_setArea]
  · rw [PMem.byte, computed_bytes, ← PMem.byte, hbyte i, patBytes_length]
    split
    · next h => exact lget_patBytes pat h.1 h.2
    · rfl

theorem opCopy_malformed {x d n : Nat} (h : opForm x d n = false) (k : Option Nat) :
    s.opCopy k c x d n = (s, some (0x3008#16, x, true)) := by rw [State.opCopy, h]; rfl

theorem opCopy_overlapping {x d n : Nat} (h : opForm x d n = true) (h1 : x < d + n) (h2 : d < x + n) (k : Option Nat) :
    s.opCopy k c x d n = (s, some (0x3009#16, x, true)) := by
  rw [State.opCopy, h, if_neg (by decide), if_pos ⟨h1, h2⟩]

/-! The commands of a Comb whose context is settled -/

section Commands

variable (hc : isComb c = true) (hs : s.settled c = true)
include hc hs

theorem opUnitDone_settled : exec (.opUnitDone c) s = .next (s.opDone c) := by
  change execOpUnitDone c s = _
  rw [execOpUnitDone, hs, onUnit_comb hc, if_pos rfl]

variable (hd : s.dead c = false)
include hd

theorem opFill_settled : exec (.opFill c) s = .next (s.opRun c true) := by
  change execOpFill c s = _
  rw [execOpFill, hs, hd, onUnit_comb hc]; rfl

theorem opCopy_settled : exec (.opCopy c) s = .next (s.opRun c false) := by
  change execOpCopy c s = _
  rw [execOpCopy, hs, hd, onUnit_comb hc]; rfl

theorem reduceOnArrivalAdd_settled : exec (.reduceOnArrivalAdd c) s = .next (s.reduceStep c) := by
  change execReduceOnArrivalAdd c s = _
  rw [execReduceOnArrivalAdd, hs, hd, onUnit_comb hc]; rfl

end Commands

/-- A unit without operations stands still, whether or not its Comb computes. -/
theorem opUnit_idle (hc : isComb c = true) (ho : (s.area c).ops = []) : exec (.opFill c) s = .next s ∧ exec (.opCopy c) s = .next s
    ∧ exec (.opUnitDone c) s = .next s ∧ exec (.reduceOnArrivalAdd c) s = .next s := by
  have run (b : Bool) : s.opRun c b = s := by rw [State.opRun, ho]; rfl
  have done : s.opDone c = s := by rw [State.opDone, ho]; rfl
  have step : s.reduceStep c = s := by rw [State.reduceStep, ho]; rfl
  refine ⟨?_, ?_, ?_, ?_⟩
  · change execOpFill c s = _
    rw [execOpFill, run, ite_self, onUnit_comb hc]
  · change execOpCopy c s = _
    rw [execOpCopy, run, ite_self, onUnit_comb hc]
  · change execOpUnitDone c s = _
    rw [execOpUnitDone, done, ite_self, onUnit_comb hc]
  · change execReduceOnArrivalAdd c s = _
    rw [execReduceOnArrivalAdd, step, ite_self, onUnit_comb hc]

/-! The oldest operation -/

theorem opEffect_fill {o : Op} {d n : Nat} {pat : W32} (hk : o.kind = .fill d n pat) :
    opEffect s c o = s.opFill (opCtx o) c d n pat := by rw [opEffect, hk]

theorem opEffect_copy {o : Op} {x d n : Nat} (hk : o.kind = .copy x d n) : opEffect s c o = s.opCopy (opCtx o) c x d n := by
  rw [opEffect, hk]

theorem lfind_head {α : Type} {p : α → Bool} {x : α} (h : p x = true) (l : List α) : lfind p (x :: l) = some 0 := by rw [lfind, if_pos h]

section Oldest

variable {o : Op} {l : List Op} (ho : (s.area c).ops = o :: l)
include ho

section Unfinished

variable (hf : o.fin = false)
include hf

theorem opRun_oldest {isFill : Bool} (hk : opRunsIn isFill o.kind = true) {t : State} {st : OpStop} (ht : opEffect s c o = (t, st)) :
    s.opRun c isFill = t.setArea c { t.area c with ops := lset (t.area c).ops 0 (opEnded o st) } := by
  rw [State.opRun, ho, lfind_head (by rw [hf]; exact hk)]
  change (opEffect s c o).1.setArea c { (opEffect s c o).1.area c with
    ops := lset ((opEffect s c o).1.area c).ops 0 (opEnded o (opEffect s c o).2) } = _
  rw [ht]

/-- An operation that stops before its first byte changes nothing but itself. -/
theorem opRun_stops {isFill : Bool} (hk : opRunsIn isFill o.kind = true) {st : OpStop} (ht : opEffect s c o = (s, st)) :
    s.opRun c isFill = s.setArea c { s.area c with ops := opEnded o st :: l } := by
  rw [opRun_oldest ho hf hk ht, ho]
  rfl

theorem reduceStep_adds {p : Pkt} (hk : o.kind = .reduce p) {adr : Nat} {bs : List Byte}
    (hl : (lineParts p.off p.payload)[o.pos]? = some (adr, bs)) {t : State}
    (ht : s.reduceLine (opCtx o) c (p.ptype = 2) p.epochLo adr bs = (t, none)) :
    s.reduceStep c = t.setArea c { t.area c with
      ops := lset (t.area c).ops 0 { o with pos := o.pos + 1, fin := decide ((lineParts p.off p.payload).length ≤ o.pos + 1) } } := by
  rw [opCtx] at ht
  rw [State.reduceStep, ho, lfind_head (by rw [hf, hk]; rfl)]
  simp only [List.getElem?_cons_zero, hk, hl, ht]

end Unfinished

section Finished

variable (hf : o.fin = true) {d n : Nat} {pat : W32} (hk : o.kind = .fill d n pat)
include hf hk

theorem opDone_keeper (hw : o.who = none) : s.opDone c = s.setArea c { s.area c with ops := l } := by
  rw [State.opDone, ho, lfind_head hf]
  simp only [List.getElem?_cons_zero, hk, hw]
  rfl

theorem opDone_forager (h0 : o.fault = 0) {f k : Nat} (hw : o.who = some (f, k))
    (hsl : (((s.area c).forager f).slots.find? (fun e => e.1 = k)).isSome = true) :
    s.opDone c = (((s.setArea c { s.area c with ops := l }).setForager c f { (s.area c).forager f with
      slots := tput ((s.area c).forager f).slots k { tget {} ((s.area c).forager f).slots k with opDone := true } }).writeDone (opCtx o) o.ep) := by
  have fg : (s.setArea c { s.area c with ops := l }).forager c f = (s.area c).forager f := by
    rw [State.forager, State.area_setArea_same]; rfl
  rw [State.opDone, ho, lfind_head hf]
  simp only [List.getElem?_cons_zero, hk, hw, ldel, fg, Option.isNone_eq_false_iff.2 hsl, h0, ne_eq, not_true_eq_false,
    Bool.false_eq_true, if_false]
  rfl

end Finished

end Oldest

/-! Corrected words -/

theorem eccWriteback_writes (hc : isComb c = true) {w : Nat} (hw : w < 0x600000) (he : tget 0 (s.area c).mem.ecc w = 1) :
    exec (.eccWriteback c w) s = .next (s.setArea c { s.area c with mem := { (s.area c).mem with
      ecc := tset 0 (s.area c).mem.ecc w 0 } }) := by
  change execEccWriteback c w s = _
  rw [execEccWriteback, hc, decide_eq_true hw, Bool.true_and, onUnit_true, if_pos he]

theorem eccWriteback_sound (hc : isComb c = true) {w : Nat} (hw : w < 0x600000) (he : tget 0 (s.area c).mem.ecc w ≠ 1) :
    exec (.eccWriteback c w) s = .next s := by
  change execEccWriteback c w s = _
  rw [execEccWriteback, hc, decide_eq_true hw, Bool.true_and, onUnit_true, if_neg he]

/-- Settles O30: the oldest operation runs (`opRun_oldest`, `reduceStep_adds`) or is reported (`opDone_keeper`,
`opDone_forager`); the bytes of a fill are those of `narrow0_clean`. -/
theorem operationUnit : Obligations.OperationUnit := by
  unfold Obligations.OperationUnit
  intro c s hc hs a
  refine ⟨?fill, ?copy, ?reduce, ?doneKeeper, ?doneForager, ?idle, ?corrected, ?sound⟩
  case fill =>
    intro o l d n pat hd ho hf hk
    have kind : opRunsIn true o.kind = true := by rw [hk]; rfl
    refine ⟨fun k hctx h16 _ hr hform hp he hw => ?_, fun hform => ?_⟩
    · obtain ⟨m, hfill, hbyte⟩ := opFill_lays hr hp he hw hform pat
      have ctx : opCtx o = some k := by rw [opCtx, hctx, if_pos h16]
      have run := opRun_oldest ho hf kind ((opEffect_fill hk).trans (ctx ▸ hfill))
      refine ⟨_, (opFill_settled hc hs hd).trans (congrArg _ run), ?_⟩
      beta_reduce
      rw [State.area_setArea_same, State.area_setArea_same]
      refine ⟨?_, rfl, rfl, hbyte⟩
      exact congrArg (lset · 0 (opEnded o none)) ho
    · rw [opFill_settled hc hs hd, opRun_stops ho hf kind ((opEffect_fill hk).trans (opFill_malformed hform _ pat))]
      rfl
  case copy =>
    intro o l x d n hd ho hf hk
    have kind : opRunsIn false o.kind = true := by rw [hk]; rfl
    rw [opCopy_settled hc hs hd]
    refine ⟨?_, fun hform => ?_, fun hform h1 h2 => ?_⟩
    · rintro k t st rfl ht
      rw [opRun_oldest ho hf kind ((opEffect_copy hk).trans ht)]
      rfl
    · rw [opRun_stops ho hf kind ((opEffect_copy hk).trans (opCopy_malformed hform _))]
      rfl
    · rw [opRun_stops ho hf kind ((opEffect_copy hk).trans (opCopy_overlapping hform h1 h2 _))]
      rfl
  case reduce =>
    intro o l p adr bs hd ho hf hk hl t ht
    rw [reduceOnArrivalAdd_settled hc hs hd, reduceStep_adds ho hf hk hl ht]
  case doneKeeper =>
    intro o l d n pat ho hf hk hw
    rw [opUnitDone_settled hc hs, opDone_keeper ho hf hk hw]
  case doneForager =>
    intro o l d n pat f k ho hf h0 hk hw hsl
    rw [opUnitDone_settled hc hs, opDone_forager ho hf hk h0 hw hsl]
    rfl
  case idle => exact opUnit_idle hc
  case corrected => exact fun w hw he => eccWriteback_writes hc hw he
  case sound => exact fun w hw he => eccWriteback_sound hc hw he

end Sys2Proof.Proofs
end

section
/-! PROOFS. Owner changes, diagonal windows and the check of a digested contribution (R205 to R207, R219, R305). -/

open Sys2Proof Sys2Proof.Machine Sys2Proof.Claims Sys2Proof.Laws

namespace Sys2Proof.Proofs

variable {s : State} {c : Nat}

/-! Owner changes (R219) -/

theorem ownerChangeFill_unowned (hc : isComb c = true) (hr : s.residentAt c = none) (ho : s.ownedByAny c = false) :
    exec (.ownerChangeFill c) s = .next (s.setArea c { s.area c with mem := {} }) := by
  change execOwnerChangeFill c s = _
  simp only [execOwnerChangeFill, onUnit_comb hc, hr, ho, Bool.false_eq_true, if_false]

theorem ownerChangeFill_running (hc : isComb c = true) {n : Nat} (hr : s.residentAt c = some n) (hst : (s.ctx n).st = 3) :
    exec (.ownerChangeFill c) s = .next s := by
  have busy : ¬ ((s.ctx n).st = 1 ∨ (s.ctx n).st = 6) := by omega
  change execOwnerChangeFill c s = _
  simp only [execOwnerChangeFill, onUnit_comb hc, hr, if_neg busy]

/-! Windows (R205 to R207) -/

/-- The context's other windows that are enabled lie apart from `v`. -/
theorem no_window_meets {i n v : Nat} (h : ∀ k, k < 8 → k ≠ n → dwMeet v (s.obj i 0x2710 (k + 1) 0) = false) :
    (List.range 8).any (fun k => k != n && dwMeet v (s.obj i 0x2710 (k + 1) 0)) = false := by
  refine List.any_eq_false.2 fun k hk hmeet => ?_
  obtain ⟨hkn, hm⟩ := (Bool.and_eq_true _ _).mp hmeet
  rw [h k (List.mem_range.1 hk) (bne_iff_ne.1 hkn)] at hm
  exact Bool.false_ne_true hm

section Window

variable {p : Path} {n : Nat} {v : W64}

theorem dwEff_badForm (h : dwOk v.toNat = false) : dwEff p n v s = (some badValue, s) := by
  simp only [dwEff, h, Bool.not_false, Bool.true_or, if_true]

theorem dwEff_meets {k : Nat} (hk : k < 8) (hn : k ≠ n) (h : dwMeet v.toNat (s.obj (s.instOf p 0x2710 (n + 1)) 0x2710 (k + 1) 0) = true) :
    dwEff p n v s = (some badValue, s) := by
  have meets : (List.range 8).any (fun j => j != n && dwMeet v.toNat (s.obj (s.instOf p 0x2710 (n + 1)) 0x2710 (j + 1) 0)) = true :=
    List.any_eq_true.2 ⟨k, List.mem_range.2 hk, by rw [h, bne_iff_ne.2 hn]; rfl⟩
  simp only [dwEff, meets, Bool.or_true, if_true]

/-- The effect of a window of the right form that meets no other: the lines of a resident context's Combs move (R207). -/
theorem dwEff_takes (hf : dwOk v.toNat = true)
    (hm : ∀ k, k < 8 → k ≠ n → dwMeet v.toNat (s.obj (s.instOf p 0x2710 (n + 1)) 0x2710 (k + 1) 0) = false) :
    dwEff p n v s = (none,
      if (s.ctx (s.instOf p 0x2710 (n + 1) - 1)).resident then
        (s.setObj (s.instOf p 0x2710 (n + 1)) 0x2710 (n + 1) v.toNat).onAreas (s.instOf p 0x2710 (n + 1) - 1)
          (fun _ a => { a with mem := a.mem.rewindow (s.obj (s.instOf p 0x2710 (n + 1)) 0x2710 (n + 1) 0) v.toNat })
      else s.setObj (s.instOf p 0x2710 (n + 1)) 0x2710 (n + 1) v.toNat) := by
  simp only [dwEff, hf, no_window_meets hm, Bool.not_true, Bool.or_self, Bool.false_eq_true, if_false]

variable (hp : isPath p = true) (hn : n < 8) (hw : writable p 0x2710 (n + 1) v s)
include hp hn hw

theorem cmDwWrite_accepts {t : State} (he : dwEff p n v s = (none, t)) : exec (.cmDwWrite p n v) s = accepts p 0x2710 (n + 1) t := by
  change execCmDwWrite p n v s = _
  rw [execCmDwWrite, decide_eq_true hn, Bool.and_true, onUnit_write_accepts hp hw he]

theorem cmDwWrite_refuses {r : Refuse} {t : State} (he : dwEff p n v s = (some r, t)) :
    exec (.cmDwWrite p n v) s = refuses p 0x2710 (n + 1) r t := by
  change execCmDwWrite p n v s = _
  rw [execCmDwWrite, decide_eq_true hn, Bool.and_true, onUnit_write_refuses hp hw he]

end Window

/-! Digested contributions (R305) -/

theorem digestCheck_idle (hc : isComb c = true) (ht : (s.area c).trailers = []) : exec (.digestCheck c) s = .next s := by
  have idle : s.digestCheck c = s := by rw [State.digestCheck, ht]
  change execDigestCheck c s = _
  rw [execDigestCheck, idle, ite_self, onUnit_comb hc]

theorem digestCheck_settled (hc : isComb c = true) (hs : s.settled c = true) (hd : s.dead c = false) :
    exec (.digestCheck c) s = .next (s.digestCheck c) := by
  change execDigestCheck c s = _
  rw [execDigestCheck, hs, hd, onUnit_comb hc]; rfl

section Trailer

variable {p : Pkt} {l : List Pkt} (ht : (s.area c).trailers = p :: l)
include ht

theorem digestCheck_unclaimed (hk : (s.area c).claims.find? (claimOf p) = none) :
    s.digestCheck c = (s.setArea c { s.area c with trailers := l }).rxHalt c p 0x500A#16 := by
  simp only [State.digestCheck, ht, hk]

/-- The state in which the payload of the oldest trailer is read: trailer and claim are gone. -/
abbrev claimTaken (s : State) (c : Nat) (p : Pkt) (l : List Pkt) : State :=
  s.setArea c { s.area c with trailers := l, claims := (s.area c).claims.filter (fun e => !(claimOf p e)) }

/-- The digest of a claim agrees with the trailer's words `w`, and so does its length. -/
abbrev digestAgrees (s : State) (c : Nat) (p : Pkt) (k : Claim) (w : List W64) : Prop :=
  crc64From k.crc (digestTail (lget 0 w 1) p.src (leNat (cellsRead (s.area c).mem.bytes k.stage 4))) = lget 0 w 3
    ∧ k.len = (lget 0 w 2).toNat % 2 ^ 32

variable {k : Claim} {w : List W64} (hk : (s.area c).claims.find? (claimOf p) = some k) (hw : p.clitic 2 = some w)
  (ha : digestAgrees s c p k w)
include hk hw ha

theorem digestCheck_performs {bs : List Byte} {t t' : State}
    (hr : (claimTaken s c p l).performRead (s.residentAt c) c 0 (k.stage + 1024) k.len [] = (.ok bs, t))
    (hp : t.applyPayload (s.residentAt c) c k p bs = (t', none)) :
    s.digestCheck c = (t'.arrival c (s.residentAt c) p).rxDone c p := by
  simp only [State.digestCheck, ht, hk, hw, if_pos ha, hr, hp]

theorem digestCheck_unreadable {code : W16} {t : State}
    (hr : (claimTaken s c p l).performRead (s.residentAt c) c 0 (k.stage + 1024) k.len [] = (.error code, t)) :
    s.digestCheck c = t.rxHalt c p code := by
  simp only [State.digestCheck, ht, hk, hw, if_pos ha, hr]

end Trailer

/-- Settles O31: the clauses are the ways in which an owner change, a write of a window and the check of the oldest trailer end. -/
theorem ownerChangeWindowsDigests : Obligations.OwnerChangeWindowsDigests := by
  unfold Obligations.OwnerChangeWindowsDigests
  refine ⟨?unowned, ?running, ?window, ?trailer, ?idle⟩
  case unowned => exact fun c s hc hr ho => ownerChangeFill_unowned hc hr ho
  case running => exact fun c n s hc hr hst => ownerChangeFill_running hc hr hst
  case window =>
    intro p n v s hp hn hw i
    refine ⟨fun hf hm hres => ?_, fun hf hm hres => ?_, fun hf => ?_, fun k hk hkn hm => ?_⟩
    · rw [cmDwWrite_accepts hp hn hw (dwEff_takes hf hm), hres]; rfl
    · rw [cmDwWrite_accepts hp hn hw (dwEff_takes hf hm), if_pos hres]
    · exact cmDwWrite_refuses hp hn hw (dwEff_badForm hf)
    · exact cmDwWrite_refuses hp hn hw (dwEff_meets hk hkn hm)
  case trailer =>
    intro c s p l hc hs hd ht a
    rw [digestCheck_settled hc hs hd]
    refine ⟨fun hk => congrArg _ (digestCheck_unclaimed ht hk), ?_⟩
    intro k w hk hw hdig hlen s0 n
    refine ⟨fun bs t hr t' hp => ?_, fun code t hr => ?_⟩
    · exact congrArg _ (digestCheck_performs ht hk hw ⟨hdig, hlen⟩ hr hp)
    · exact congrArg _ (digestCheck_unreadable ht hk hw ⟨hdig, hlen⟩ hr)
  case idle => exact fun c s hc ht => digestCheck_idle hc ht

end Sys2Proof.Proofs
end

section
/-! PROOFS. Step epochs: the oldest fence of a context is accepted, completes or fails, and a rewind opens the epoch that follows
the committed one (R257 to R259). -/

open Sys2Proof Sys2Proof.Machine Sys2Proof.Claims Sys2Proof.Laws

namespace Sys2Proof.Proofs

variable {s : State} {n : Nat}

/-! What the end of a fence leaves unchanged: `fenceEnd` writes the ring of the fence's host master only (R349), step-sync out
the pins and what the module puts out (R530) -/

section FenceEnd

variable (f : Fence) (st : Nat) (code : W16)

@[simp] theorem fenceEnd_combs : (s.fenceEnd f n st code).combs = s.combs := rfl
@[simp] theorem fenceEnd_events : (s.fenceEnd f n st code).events = s.events := rfl
@[simp] theorem fenceEnd_ctx (k : Nat) : (s.fenceEnd f n st code).ctx k = s.ctx k := rfl

end FenceEnd

theorem stepSyncOut_keeps (s : State) (n : Nat) : (s.stepSyncOut n).combs = s.combs ∧ (s.stepSyncOut n).ctxs = s.ctxs
    ∧ (s.stepSyncOut n).events = s.events := by
  unfold State.stepSyncOut
  dsimp only
  split
  · exact ⟨rfl, rfl, rfl⟩
  · exact List.foldlRecOn (motive := fun t : State => t.combs = s.combs ∧ t.ctxs = s.ctxs ∧ t.events = s.events)
      _ _ ⟨rfl, rfl, rfl⟩ fun _ ht _ _ => ht

@[simp] theorem stepSyncOut_combs : (s.stepSyncOut n).combs = s.combs := (stepSyncOut_keeps s n).1
@[simp] theorem stepSyncOut_events : (s.stepSyncOut n).events = s.events := (stepSyncOut_keeps s n).2.2
@[simp] theorem stepSyncOut_ctx (k : Nat) : (s.stepSyncOut n).ctx k = s.ctx k := by
  obtain ⟨-, hctxs, -⟩ := stepSyncOut_keeps s n
  rw [State.ctx, State.ctx, hctxs]

/-! The commands of a fence (R258, R259) -/

section Fences

variable (hn : isCtx n = true)
include hn

theorem hcCommit_runs : exec (.hcCommit n) s = .next (s.fenceAccept n) := by
  change execHcCommit n s = _
  rw [execHcCommit, hn, onUnit_true]

theorem commitComplete_runs : exec (.commitComplete n) s = .next (s.fenceComplete n) := by
  change execCommitComplete n s = _
  rw [execCommitComplete, hn, onUnit_true]

theorem commitFail_runs (code : W16) : exec (.commitFail n code) s = .next (s.fenceFail n code) := by
  change execCommitFail n code s = _
  rw [execCommitFail, hn, onUnit_true]

theorem fences_idle (hx : (s.ctx n).fences = []) : exec (.hcCommit n) s = .next s ∧ exec (.commitComplete n) s = .next s
    ∧ ∀ code, exec (.commitFail n code) s = .next s := by
  refine ⟨?_, ?_, fun code => ?_⟩
  · rw [hcCommit_runs hn, State.fenceAccept, hx]
  · rw [commitComplete_runs hn, State.fenceComplete, hx]
  · rw [commitFail_runs hn, State.fenceFail, hx]

variable {f : Fence} {l : List Fence} (hx : (s.ctx n).fences = f :: l)
include hx

section Offered

variable (ha : f.accepted = false)
include ha

theorem hcCommit_accepts (hc : (s.ctx n).cstat = 0) (he : f.epoch = (s.ctx n).epOpen) : exec (.hcCommit n) s =
    .next (s.setCtx n { s.ctx n with fences := { f with accepted := true } :: l, epOpen := (s.ctx n).epOpen + 1 }) := by
  rw [hcCommit_runs hn, State.fenceAccept]
  simp only [hx, ha, hc, he, ne_eq, not_true_eq_false, Bool.false_eq_true, if_false]

theorem hcCommit_wrongEpoch (hc : (s.ctx n).cstat = 0) (he : f.epoch ≠ (s.ctx n).epOpen) : exec (.hcCommit n) s =
    .next ((s.setCtx n { s.ctx n with fences := l }).fenceEnd f n 1 0x4301#16) := by
  rw [hcCommit_runs hn, State.fenceAccept]
  simp only [hx, ha, hc, ne_eq, not_true_eq_false, Bool.false_eq_true, if_false, if_pos he]

theorem hcCommit_afterFailure (hc : (s.ctx n).cstat ≠ 0) : exec (.hcCommit n) s =
    .next ((s.setCtx n { s.ctx n with fences := l }).fenceEnd f n 1 0x4302#16) := by
  rw [hcCommit_runs hn, State.fenceAccept]
  simp only [hx, ha, Bool.false_eq_true, if_false, if_pos hc]

end Offered

theorem commitComplete_waits (ho : tget 0 (s.ctx n).outst (b2n (f.epoch.getLsbD 0)) ≠ 0) : exec (.commitComplete n) s = .next s := by
  rw [commitComplete_runs hn, State.fenceComplete]
  simp only [hx, if_pos (Or.inr (Or.inl ho))]

section Accepted

variable (ha : f.accepted = true)
include ha

theorem commitComplete_commits (ho : tget 0 (s.ctx n).outst (b2n (f.epoch.getLsbD 0)) = 0)
    (h0 : tget 0 (s.ctx n).failed f.epoch.toNat = 0) : exec (.commitComplete n) s =
    .next (((s.setCtx n { s.ctx n with fences := l, epDone := f.epoch, failed := tdel (s.ctx n).failed f.epoch.toNat }).fenceEnd
      f n 0 0).stepSyncOut n) := by
  rw [commitComplete_runs hn, State.fenceComplete]
  simp only [hx, ha, ho, h0, Bool.not_true, Bool.false_eq_true, ne_eq, not_true_eq_false, or_self, if_false]

theorem commitFail_fails {code : W16} (hc : code ≠ 0) (h : tget 0 (s.ctx n).failed f.epoch.toNat = code) :
    exec (.commitFail n code) s =
    .next (((s.setCtx n { s.ctx n with fences := l, cstat := BitVec.ofNat 32 (0x4302 + code.toNat * 65536) }).fenceEnd f n 2
      0x4302#16).event (some n) 0x4302#16 0 (masterField (.host f.fn)) (BitVec.ofNat 64 code.toNat)) := by
  rw [commitFail_runs hn, State.fenceFail]
  simp only [hx, ha, hc, h, Bool.not_true, Bool.false_eq_true, ne_eq, not_true_eq_false, or_self, if_false]

end Accepted

end Fences

/-! The rewind (R259) -/

section Rewind

variable {p : Path} {v : W64}

theorem rewindEff_wrongValue (hst : (s.ctx n).st ≠ 0) (hv : v ≠ (s.ctx n).epDone + 1) : rewindEff n v s = (some badValue, s) := by
  simp only [rewindEff, if_neg hst, if_pos hv]

section NextEpoch

variable (hst : (s.ctx n).st ≠ 0) (hv : v = (s.ctx n).epDone + 1)
include hst hv

theorem rewindEff_running (hr : s.anyRunning n = true) : rewindEff n v s = (some badState, s) := by
  simp only [rewindEff, if_neg hst, if_neg (not_not.2 hv), hr, if_true]

theorem rewindEff_rewinds (hr : s.anyRunning n = false) :
    rewindEff n v s = (none, s.setCtx n { s.ctx n with epOpen := v, cstat := 0, failed := [] }) := by
  simp only [rewindEff, if_neg hst, if_neg (not_not.2 hv), hr, Bool.false_eq_true, if_false]

end NextEpoch

variable (hn : isCtx n = true) (hp : isPath p = true) (hw : writable p 0x2720 (n + 1) v s)
include hn hp hw

theorem epochRewind_accepts {t : State} (he : rewindEff n v s = (none, t)) :
    exec (.epochRewind p n v) s = accepts p 0x2720 (n + 1) t := by
  change execEpochRewind p n v s = _
  rw [execEpochRewind, hn, Bool.and_true, onUnit_write_accepts hp hw he]

theorem epochRewind_refuses {r : Refuse} {t : State} (he : rewindEff n v s = (some r, t)) :
    exec (.epochRewind p n v) s = refuses p 0x2720 (n + 1) r t := by
  change execEpochRewind p n v s = _
  rw [execEpochRewind, hn, Bool.and_true, onUnit_write_refuses hp hw he]

end Rewind

/-- Settles O27: the clauses are the ways in which the oldest fence of a context and a rewind of its epochs can end. -/
theorem epochsCommitAndFail : Obligations.EpochsCommitAndFail := by
  unfold Obligations.EpochsCommitAndFail
  intro n s hn x
  refine ⟨?fence, fences_idle hn, ?rewind⟩
  case fence =>
    intro f l hx
    refine ⟨hcCommit_accepts hn hx, hcCommit_wrongEpoch hn hx, hcCommit_afterFailure hn hx, fun ha ho h0 => ?committed,
      commitComplete_waits hn hx, fun code ha hc h => ?failed⟩
    case committed =>
      refine ⟨_, commitComplete_commits hn hx ha ho h0, ?_⟩
      simp only [stepSyncOut_ctx, fenceEnd_ctx, State.ctx_setCtx_same, stepSyncOut_combs, fenceEnd_combs, State.setCtx_combs,
        stepSyncOut_events, fenceEnd_events, State.setCtx_events, and_self, x]
    case failed =>
      refine ⟨_, commitFail_fails hn hx ha hc h, ?_⟩
      simp only [event_ctx, event_events, fenceEnd_ctx, fenceEnd_events, State.setCtx_events, State.faultEpoch,
        State.ctx_setCtx_same, and_self, x]
  case rewind =>
    intro p v hp hw hst
    exact ⟨fun hv hr => epochRewind_accepts hn hp hw (rewindEff_rewinds hst hv hr),
      fun hv => epochRewind_refuses hn hp hw (rewindEff_wrongValue hst hv),
      fun hv hr => epochRewind_refuses hn hp hw (rewindEff_running hst hv hr)⟩

end Sys2Proof.Proofs
end

section
/-! PROOFS. Messages and sync counters of a Worker slot that no release holds (R262 to R266, R271, R275): one lemma for each way an
instruction ends. -/

open Sys2Proof Sys2Proof.Machine Sys2Proof.Claims

namespace Sys2Proof.Proofs

/-- The request that slot `u` makes in state `f`: it takes the next identifier, and the slot remembers it (log entry 18). -/
abbrev requested (f : State) (u : SlotRef) : State := f.newReq.2.setSlot u ((f.newReq.2.slot u).issue f.newReq.1)

/-- The message with header `h` that slot `u` sends to Comb `c` of module `rem`, or of its own module (R262, R263). -/
abbrev messageOf (f : State) (u : SlotRef) (x : WSlot) (w h : Nat) (rem : Option Nat) (c8 c : Nat) : Pkt :=
  { dst := dstField (rem.getD f.ownModule) c, src := dstField f.ownModule u.comb, master := masterField (.worker u.comb u.cell u.slot),
    cls := fld h 4 2, ptype := 5, ctx := c8,
    payload := msgBytes h c8 (dstField (rem.getD f.ownModule) c) ((x.vec (wB w)).take (fld h 10 2 + 1)), reqId := f.newReq.1 }

/-- The counter add of slot `u` to target `t` (R275). -/
abbrev addOf (f : State) (u : SlotRef) (x : WSlot) (w : Nat) (t : Tgt) : Pkt :=
  { dst := f.dstOf t, src := dstField f.ownModule u.comb, master := masterField (.worker u.comb u.cell u.slot), cls := 0, ptype := 6,
    ctx := t.ctx, space := 3, off := t.off, payload := leBytes (accBytes w) (caddAmt w x), reqId := f.newReq.1 }

section Signals

variable {u : SlotRef} {s : State} {w : Nat}

/-! Messages (R262, R263, R266) -/

section Messages

variable (hh : (now s u).held = false) (hi : issues .wsnd u s w)
include hh hi

theorem wsnd_untargeted {e : W16}
    (ht : (fetched s u).msgTarget ((fetched s u).residentAt u.comb) ((now s u).pair (wA w)).toNat = .error e) :
    exec (.cWsnd u) s = stops s u e := by
  change execCWsnd u s = _
  rw [execCWsnd, cellRun_fetched hi, slot_fetched, heldOr_free hh, ht, cellEnd_fault]

variable {rem : Option Nat} {c8 c : Nat}
  (ht : (fetched s u).msgTarget ((fetched s u).residentAt u.comb) ((now s u).pair (wA w)).toNat = .ok (rem, c8, c))
include ht

theorem wsnd_own_comb (hr : rem = none) (hc : c = u.comb)
    (hl : ((fetched s u).comb u.comb).landRoom (fld ((now s u).pair (wA w)).toNat 4 2) = true) :
    exec (.cWsnd u) s = done s u ((requested (fetched s u) u).landLocal u.comb (fld ((now s u).pair (wA w)).toNat 4 2)
      (messageOf (fetched s u) u (now s u) w ((now s u).pair (wA w)).toNat none c8 u.comb)) := by
  subst hr hc
  change execCWsnd u s = _
  rw [execCWsnd, cellRun_fetched hi, slot_fetched, heldOr_free hh, ht]
  simp only [Option.isNone_none, and_self, if_true, hl, Bool.not_true, Bool.false_eq_true, if_false, cellEnd_next]

theorem wsnd_other_comb (ho : rem ≠ none ∨ c ≠ u.comb)
    (hs : (fetched s u).canSend (.worker u.comb u.cell u.slot) (dstField (rem.getD (fetched s u).ownModule) c)
      (fld ((now s u).pair (wA w)).toNat 4 2) = true) :
    exec (.cWsnd u) s = done s u ((requested (fetched s u) u).sendPkt (.worker u.comb u.cell u.slot)
      (messageOf (fetched s u) u (now s u) w ((now s u).pair (wA w)).toNat rem c8 c)) := by
  have away : ¬ (rem.isNone = true ∧ c = u.comb) := by rwa [Option.isNone_iff_eq_none, not_and_or]
  change execCWsnd u s = _
  rw [execCWsnd, cellRun_fetched hi, slot_fetched, heldOr_free hh, ht]
  simp only [if_neg away, hs, Bool.not_true, Bool.false_eq_true, if_false, cellEnd_next]

end Messages

/-! Counter adds (R266, R271, R275) -/

theorem cadd_passes (hh : (now s u).held = false) (hi : issues .cadd u s w) (hb : (fetched s u).ownBehind u = false) :
    exec (.cCadd u) s = done s u ((requested (fetched s u) u).passAdd u.comb
      { ctx := ((fetched s u).residentAt u.comb).getD 16, ix := wIdx w, amt := caddAmt w (now s u),
        who := some (.worker u.comb u.cell u.slot), id := (fetched s u).newReq.1 }) := by
  change execCCadd u s = _
  rw [execCCadd, cellRun_fetched hi, slot_fetched, heldOr_free hh, hb, if_neg Bool.false_ne_true, cellEnd_next]

section RemoteAdds

variable (hh : (now s u).held = false) (hi : issues .caddRemote u s w) {t : Tgt}
  (ht : (fetched s u).translate ((fetched s u).residentAt u.comb) ((now s u).pair (wD w)) (accBytes w) = .ok t)
include hh hi ht

theorem caddRemote_noCounter (hs : t.space ≠ 3) : exec (.cCaddRemote u) s = stops s u 0x4403#16 := by
  change execCCaddRemote u s = _
  rw [execCCaddRemote, cellRun_fetched hi, slot_fetched, heldOr_free hh, ht]
  simp only [if_pos hs, cellEnd_fault]

theorem caddRemote_other_comb (hs : t.space = 3) (ho : t.own u.comb = false)
    (hc : (fetched s u).canSend (.worker u.comb u.cell u.slot) ((fetched s u).dstOf t) 0 = true) :
    exec (.cCaddRemote u) s = done s u ((requested (fetched s u) u).sendPkt (.worker u.comb u.cell u.slot)
      (addOf (fetched s u) u (now s u) w t)) := by
  change execCCaddRemote u s = _
  rw [execCCaddRemote, cellRun_fetched hi, slot_fetched, heldOr_free hh, ht]
  simp only [if_neg (not_not.2 hs), ho, hc, Bool.not_true, Bool.false_eq_true, if_false, cellEnd_next]

theorem caddRemote_own_comb (hs : t.space = 3) (ho : t.own u.comb = true) (hl : ((fetched s u).comb u.comb).landRoom 0 = true) :
    exec (.cCaddRemote u) s = done s u ((requested (fetched s u) u).landLocal u.comb 0 (addOf (fetched s u) u (now s u) w t)) := by
  change execCCaddRemote u s = _
  rw [execCCaddRemote, cellRun_fetched hi, slot_fetched, heldOr_free hh, ht]
  simp only [if_neg (not_not.2 hs), ho, hl, Bool.not_true, Bool.false_eq_true, if_false, if_true, cellEnd_next]

end RemoteAdds

/-! The own Comb's counters (R262, R265) -/

/-- The instruction retires with the slot as it was when it issued. -/
theorem cellEnd_stay (s : State) (u : SlotRef) :
    (.next ((fetched s u).cellEnd u (s.slot u).pc (.next (fetched s u))) : Res) = .next (retire s u (now s u)) := cellEnd_retire s u _

theorem cwait_reached (hi : issues .cwait u s w)
    (hv : ((now s u).pair (wA w)).toNat ≤ ((fetched s u).area u.comb).counter (wIdx w)) :
    exec (.cCwait u) s = .next (retire s u (now s u)) := by
  change execCCwait u s = _
  rw [execCCwait, cellRun_fetched hi, slot_fetched, if_pos hv, cellEnd_stay]

theorem cwait_waits (hi : issues .cwait u s w)
    (hv : ((fetched s u).area u.comb).counter (wIdx w) < ((now s u).pair (wA w)).toNat) :
    exec (.cCwait u) s = .next ((fetched s u).deschedule u (.counter (wIdx w) ((now s u).pair (wA w)))) := by
  change execCCwait u s = _
  rw [execCCwait, cellRun_fetched hi, slot_fetched, if_neg (Nat.not_le.2 hv), cellEnd_wait]

theorem ctest_compares (hh : (now s u).held = false) (hi : issues .ctest u s w) : exec (.cCtest u) s = setsS s u (wD w)
    (if ((now s u).pair (wA w)).toNat ≤ ((fetched s u).area u.comb).counter (wIdx w) then 1 else 0) := by
  change execCCtest u s = _
  rw [execCCtest, cellRun_fetched hi, slot_fetched, heldOr_free hh, setSlot_fetched, cellEnd_retire, setsS]

theorem crd_reads (hh : (now s u).held = false) (hi : issues .crd u s w) : exec (.cCrd u) s =
    .next (retire s u ((now s u).setPair (wD w) (BitVec.ofNat 64 (((fetched s u).area u.comb).counter (wIdx w))))) := by
  change execCCrd u s = _
  rw [execCCrd, cellRun_fetched hi, slot_fetched, heldOr_free hh, setSlot_fetched, cellEnd_retire]

end Signals

/-- Settles O14: the clauses are the ways in which a message, an add or an access to a counter of a slot that no release holds ends. -/
theorem messagesAndCounters : Obligations.MessagesAndCounters := by
  unfold Obligations.MessagesAndCounters
  intro u s w held x f r m cn h n amt v ctr msg add
  have hh : (now s u).held = false := (now_held s u).trans held
  refine ⟨?untargeted, ?ownMessage, ?otherMessage, ?ownAdd, ?otherAdd, ?addByAddress, ?noCounter, ?reached, ?waits, ?compares, ?reads⟩
  case untargeted => exact fun hi e ht => wsnd_untargeted hh hi ht
  case ownMessage => exact fun hi c8 ht hl => wsnd_own_comb hh hi ht rfl rfl hl
  case otherMessage => exact fun hi rem c8 c ht ho hs => wsnd_other_comb hh hi ht ho hs
  case ownAdd => exact fun hi hb => cadd_passes hh hi hb
  case otherAdd => exact fun hi t ht hs ho hc => caddRemote_other_comb hh hi ht hs ho hc
  case addByAddress => exact fun hi t ht hs ho hl => caddRemote_own_comb hh hi ht hs ho hl
  case noCounter => exact fun hi t ht hs => caddRemote_noCounter hh hi ht hs
  case reached => exact fun hi hv => cwait_reached hi hv
  case waits => exact fun hi hv => cwait_waits hi hv
  case compares => exact fun hi => ctest_compares hh hi
  case reads => exact fun hi => crd_reads hh hi

end Sys2Proof.Proofs
end

section
/-! PROOFS. Delivery of messages and the counter unit of a Comb (R264, R267 to R269, R271 to R273, R276). -/

open Sys2Proof Sys2Proof.Machine

namespace Sys2Proof.Proofs

variable {s : State} {c : Nat}

/-! The area of a context on a Comb, live or saved (R218) -/

@[simp] theorem areaOf_setAreaOf_same (s : State) (n c : Nat) (a : Area) : (s.setAreaOf n c a).areaOf n c = a := by
  by_cases h : (s.ctx n).resident = true
  · rw [State.setAreaOf, if_pos h, State.areaOf, State.ctx_setArea', if_pos h, State.area_setArea_same]
  · rw [State.setAreaOf, if_neg h, State.areaOf, State.ctx_setComb', if_neg h, State.comb_setComb_same, tget_tput_same,
      Option.getD_some]

/-- A change of a Comb outside its areas leaves the areas. -/
theorem areaOf_setComb {m : Comb} (hl : m.live = (s.comb c).live) (hs : m.saved = (s.comb c).saved) (n : Nat) :
    (s.setComb c m).areaOf n c = s.areaOf n c := by
  simp only [State.areaOf, State.area, State.comb_setComb_same, State.ctx_setComb', hl, hs]

@[simp] theorem setAreaOf_ctxs (s : State) (n c : Nat) (a : Area) : (s.setAreaOf n c a).ctxs = s.ctxs := by
  rw [State.setAreaOf]; split <;> rfl
@[simp] theorem setAreaOf_rx (s : State) (n c : Nat) (a : Area) : (s.setAreaOf n c a).rx = s.rx := by
  rw [State.setAreaOf]; split <;> rfl
@[simp] theorem setAreaOf_landing (s : State) (n c : Nat) (a : Area) : ((s.setAreaOf n c a).comb c).landing = (s.comb c).landing := by
  rw [State.setAreaOf]
  split
  · rw [State.setArea, State.comb_setComb_same]
  · rw [State.comb_setComb_same]

/-! A packet performed in its stream changes the stream's entry, and may send an acknowledgement (R325) -/

theorem rxDone_keeps (s : State) (c : Nat) (p : Pkt) : (s.rxDone c p).combs = s.combs ∧ (s.rxDone c p).ctxs = s.ctxs := by
  unfold State.rxDone State.rxSet
  dsimp only
  split
  · exact ⟨rfl, rfl⟩
  · split
    · exact ⟨rfl, rfl⟩
    · split_ifs <;> exact ⟨rfl, rfl⟩

@[simp] theorem rxDone_combs (s : State) (c : Nat) (p : Pkt) : (s.rxDone c p).combs = s.combs := (rxDone_keeps s c p).1
@[simp] theorem rxDone_ctxs (s : State) (c : Nat) (p : Pkt) : (s.rxDone c p).ctxs = s.ctxs := (rxDone_keeps s c p).2
@[simp] theorem rxDone_comb (s : State) (c : Nat) (p : Pkt) (j : Nat) : (s.rxDone c p).comb j = s.comb j := by simp [State.comb]
@[simp] theorem rxDone_ctx (s : State) (c : Nat) (p : Pkt) (j : Nat) : (s.rxDone c p).ctx j = s.ctx j := by simp [State.ctx]
@[simp] theorem rxDone_areaOf (s : State) (c : Nat) (p : Pkt) (n j : Nat) : (s.rxDone c p).areaOf n j = s.areaOf n j := by
  simp only [State.areaOf, State.area, rxDone_ctx, rxDone_comb]

/-! The landing unit (R267 to R269) -/

/-- The Comb after entry `i` has left its landing buffer. -/
def landTaken (s : State) (c i : Nat) : State := s.setComb c { s.comb c with landing := ldel (s.comb c).landing i }

@[simp] theorem landTaken_landing (i : Nat) : ((landTaken s c i).comb c).landing = ldel (s.comb c).landing i := by
  rw [landTaken, State.comb_setComb_same]
@[simp] theorem landTaken_areaOf (i n : Nat) : (landTaken s c i).areaOf n c = s.areaOf n c :=
  areaOf_setComb (m := { s.comb c with landing := ldel (s.comb c).landing i }) rfl rfl n
@[simp] theorem landTaken_ctxs (i : Nat) : (landTaken s c i).ctxs = s.ctxs := rfl
@[simp] theorem landTaken_rx (i : Nat) : (landTaken s c i).rx = s.rx := rfl

/-- A message from the Fabric for a Worker Cell joins the cell's queue, and is performed in its stream (R264, R267). -/
theorem deliver_workerQueue {l : Land} (hl : l.loc = false) (hk : l.pkt.msgKind = 0) (hi : fld l.pkt.msgHead 28 10 ≤ 639)
    (hw : isStore (fld l.pkt.msgHead 28 10) = false) : s.deliver c l =
    (s.setAreaOf l.pkt.ctx c ((s.areaOf l.pkt.ctx c).setWorker (fld l.pkt.msgHead 28 10)
      { (s.areaOf l.pkt.ctx c).worker (fld l.pkt.msgHead 28 10) with
        wq := ((s.areaOf l.pkt.ctx c).worker (fld l.pkt.msgHead 28 10)).wq
          ++ [⟨BitVec.ofNat 16 (fld l.pkt.msgHead 12 16), l.pkt.msgWords, 0⟩] })).rxDone c l.pkt := by
  have isWorker : ¬ (639 < fld l.pkt.msgHead 28 10 ∨ isStore (fld l.pkt.msgHead 28 10) = true) := by
    rw [hw, not_or]; exact ⟨Nat.not_lt.2 hi, Bool.false_ne_true⟩
  simp only [State.deliver, hk, if_neg isWorker, State.landDone, hl, Bool.false_eq_true, if_false]

section Landing

variable (hc : isComb c = true) (hd : s.dead c = false)
include hc hd

theorem msgDeliver_runs {k : Nat} (hk : k < 4) : exec (.msgDeliver c k) s = .next (s.msgDeliver c k) := by
  change execMsgDeliver c k s = _
  rw [execMsgDeliver, hc, decide_eq_true hk, hd]; rfl

theorem msgDeliver_idle {k : Nat} (hk : k < 4) (hn : s.landNext c k (s.comb c).landing 0 = none) :
    exec (.msgDeliver c k) s = .next s := by
  rw [msgDeliver_runs hc hd hk, State.msgDeliver, hn]

theorem msgDeliver_delivers {k i : Nat} {l : Land} (hk : k < 4) (hn : s.landNext c k (s.comb c).landing 0 = some (i, l, false)) :
    exec (.msgDeliver c k) s = .next ((landTaken s c i).deliver c l) := by
  rw [msgDeliver_runs hc hd hk, State.msgDeliver, hn]; rfl

theorem msgDeliver_spills {k i : Nat} {l : Land} (hk : k < 4) (hn : s.landNext c k (s.comb c).landing 0 = some (i, l, true)) :
    exec (.msgDeliver c k) s = .next ((landTaken s c i).setAreaOf l.pkt.ctx c
      { s.areaOf l.pkt.ctx c with spill := (s.areaOf l.pkt.ctx c).spill ++ [l.pkt] }) := by
  rw [msgDeliver_runs hc hd hk, State.msgDeliver, hn, ← landTaken_areaOf i]; rfl

theorem spillDeliver_oldest (hs : s.settled c = true) {p : Pkt} {l : List Pkt} (hp : (s.area c).spill = p :: l)
    (ht : s.turn c p = true) (hcr : (s.area c).credit p = true) :
    exec (.spillDeliver c) s = .next ((s.setArea c { s.area c with spill := l }).deliver c ⟨p.cls, p, false⟩) := by
  change execSpillDeliver c s = _
  rw [execSpillDeliver, hs, hd, onUnit_comb hc, State.spillDeliver, hp, lfind_head (by rw [ht, hcr]; rfl)]
  rfl

end Landing

theorem spillDeliver_empty (hc : isComb c = true) (hp : (s.area c).spill = []) : exec (.spillDeliver c) s = .next s := by
  change execSpillDeliver c s = _
  have stays : s.spillDeliver c = s := by rw [State.spillDeliver, hp]; rfl
  rw [execSpillDeliver, stays, ite_self, onUnit_comb hc]

/-! The counter unit (R271 to R273, R276) -/

/-- The machine once the operations `l` are left to the counter unit of Comb `c`. -/
abbrev ctrRest (s : State) (c : Nat) (l : List CtrOp) : State := s.setComb c { s.comb c with ctrOps := l }

theorem ctrRest_area (l : List CtrOp) : (ctrRest s c l).area c = s.area c := by rw [State.area, State.comb_setComb_same]; rfl
theorem ctrRest_areaOf (l : List CtrOp) (n : Nat) : (ctrRest s c l).areaOf n c = s.areaOf n c :=
  areaOf_setComb (m := { s.comb c with ctrOps := l }) rfl rfl n

section CounterUnit

variable (hc : isComb c = true) (hd : s.dead c = false)
include hc hd

theorem counterAdd_runs : exec (.counterAdd c) s = .next (s.counterAdd c) := by
  change execCounterAdd c s = _
  rw [execCounterAdd, hd, onUnit_comb hc]; rfl

theorem counterAdd_idle (ho : (s.comb c).ctrOps = []) : exec (.counterAdd c) s = .next s := by
  rw [counterAdd_runs hc hd, State.counterAdd, ho]

variable {o : CtrOp} {l : List CtrOp} (ho : (s.comb c).ctrOps = o :: l)
include ho

/-- Only an operation of a context that is being moved waits (R218). -/
theorem counterAdd_oldest (hm : (s.ctx o.ctx).moving = 0 ∨ 16 ≤ o.ctx ∨ (s.ctx o.ctx).resident = true) :
    exec (.counterAdd c) s = .next ((ctrRest s c l).applyAdd c o) := by
  have stands : ¬ (o.ctx < 16 ∧ (s.ctx o.ctx).moving ≠ 0 ∧ (!(s.ctx o.ctx).resident) = true) := by
    rintro ⟨h16, hmv, hr⟩
    rw [Bool.not_eq_true'] at hr
    rcases hm with h | h | h
    · exact hmv h
    · exact absurd h (Nat.not_le.2 h16)
    · exact absurd h (by rw [hr]; exact Bool.false_ne_true)
  rw [counterAdd_runs hc hd, State.counterAdd]
  simp only [ho, if_neg stands]

end CounterUnit

section Adds

variable {o : CtrOp}

section Live

variable (hl : 16 ≤ o.ctx ∨ (s.ctx o.ctx).resident = true)
include hl

theorem applyAdd_sums (h : (tget 0 (s.area c).ctr o.ix).toNat + o.amt < 2 ^ 64) : s.applyAdd c o =
    (s.setArea c { s.area c with
      ctr := tset 0 (s.area c).ctr o.ix (BitVec.ofNat 64 ((tget 0 (s.area c).ctr o.ix).toNat + o.amt)) }).addDone c o := by
  have live : (decide (16 ≤ o.ctx) || (s.ctx o.ctx).resident) = true := by rwa [Bool.or_eq_true, decide_eq_true_eq]
  have fits : (tget 0 (s.area c).ctr o.ix).toNat + o.amt ≤ 2 ^ 64 - 1 := Nat.le_pred_of_lt h
  rw [State.applyAdd]
  simp only [live, if_true, if_neg (Nat.not_le.2 h), Nat.min_eq_left fits]

theorem applyAdd_saturates (h : 2 ^ 64 ≤ (tget 0 (s.area c).ctr o.ix).toNat + o.amt) : s.applyAdd c o =
    (s.setArea c { s.area c with ctr := tset 0 (s.area c).ctr o.ix (BitVec.ofNat 64 (2 ^ 64 - 1)) }).satFault c o := by
  have live : (decide (16 ≤ o.ctx) || (s.ctx o.ctx).resident) = true := by rwa [Bool.or_eq_true, decide_eq_true_eq]
  rw [State.applyAdd]
  simp only [live, if_true, if_pos h, Nat.min_eq_right ((Nat.sub_le _ _).trans h)]

end Live

theorem applyAdd_pending (h16 : o.ctx < 16) (hr : (s.ctx o.ctx).resident = false) : s.applyAdd c o =
    (s.setAreaOf o.ctx c { s.areaOf o.ctx c with
      pendSum := tset 0 (s.areaOf o.ctx c).pendSum o.ix (tget 0 (s.areaOf o.ctx c).pendSum o.ix + o.amt) }).addDone c o := by
  have away : (decide (16 ≤ o.ctx) || (s.ctx o.ctx).resident) = false := by rw [decide_eq_false (Nat.not_le.2 h16), hr]; rfl
  rw [State.applyAdd]
  simp only [away, Bool.false_eq_true, if_false]

end Adds

/-- Settles O28: the landing unit takes out the next entry (`msgDeliver_delivers`, `msgDeliver_spills`), and the counter unit applies
the oldest operation (`counterAdd_oldest`). -/
theorem messagesAndAddsLand : Obligations.MessagesAndAddsLand := by
  unfold Obligations.MessagesAndAddsLand
  intro c s hc hd m
  refine ⟨?toQueue, ?toSpill, ?noEntry, ?spilled, ?noSpilled, ?add, ?noAdd⟩
  case toQueue =>
    intro k i l hk hn hl hkind hi hw
    refine ⟨_, msgDeliver_delivers hc hd hk hn, ?_⟩
    rw [deliver_workerQueue hl hkind hi hw]
    simp only [rxDone_areaOf, areaOf_setAreaOf_same, Area.worker_setWorker, if_true, landTaken_areaOf, rxDone_comb, setAreaOf_landing,
      landTaken_landing, rxDone_ctxs, setAreaOf_ctxs, landTaken_ctxs, and_self, m]
  case toSpill =>
    intro k i l hk hn
    refine ⟨_, msgDeliver_spills hc hd hk hn, ?_⟩
    simp only [areaOf_setAreaOf_same, setAreaOf_landing, landTaken_landing, setAreaOf_rx, landTaken_rx, and_self, m]
  case noEntry => exact fun k hk hn => msgDeliver_idle hc hd hk hn
  case spilled => exact fun p l hs hp ht hcr => spillDeliver_oldest hc hd hs hp ht hcr
  case noSpilled => exact spillDeliver_empty hc
  case add =>
    intro o l ho v s1
    refine ⟨fun hl h => ?sums, fun hl h => ?saturates, fun h16 hr hm => ?pending⟩
    case sums => rw [counterAdd_oldest hc hd ho (.inr hl), applyAdd_sums (s := ctrRest s c l) hl (by rwa [ctrRest_area]), ctrRest_area]
    case saturates =>
      rw [counterAdd_oldest hc hd ho (.inr hl), applyAdd_saturates (s := ctrRest s c l) hl (by rwa [ctrRest_area]), ctrRest_area]
    case pending => rw [counterAdd_oldest hc hd ho (.inl hm), applyAdd_pending (s := ctrRest s c l) h16 hr, ctrRest_areaOf]
  case noAdd => exact counterAdd_idle hc hd

end Sys2Proof.Proofs
end

section
/-! PROOFS. Watches: their registration, their wakes and the acknowledgements, and a wake at its source (R274, R278, R328). -/

open Sys2Proof Sys2Proof.Machine

namespace Sys2Proof.Proofs

/-- The first entry that satisfies `p` is the one found. -/
theorem lfind_first {α : Type} {p : α → Bool} : ∀ {l : List α} {i : Nat} {x : α}, l[i]? = some x → p x = true →
    (∀ j e, j < i → l[j]? = some e → p e = false) → lfind p l = some i
  | [], _, _, hx, _, _ => by simp at hx
  | y :: l, 0, x, hx, hp, _ => by
    obtain rfl : y = x := by simpa using hx
    exact lfind_head hp l
  | y :: l, i + 1, x, hx, hp, hb => by
    have hy : p y = false := hb 0 y (Nat.succ_pos i) rfl
    have ih : lfind p l = some i := lfind_first hx hp fun j e hj he => hb (j + 1) e (Nat.succ_lt_succ hj) he
    rw [lfind, hy, ih]; rfl

variable {s : State} {c : Nat}

/-! The table of watches of a Comb (R274, R328) -/

/-- A registration that enters the table now: it is the stream's next, its context stands and has one of its 64 entries free. -/
def registers (s : State) (c : Nat) (l : Land) : Bool :=
  l.pkt.ptype = 7 && s.turn c l.pkt && (s.ctx l.pkt.ctx).moving = 0
    && decide (((s.comb c).watches.filter (fun w => w.ctx = l.pkt.ctx)).length < 64)

/-- The value that a registration asks for. -/
def watchedValue (p : Pkt) : W64 := match p.clitic 1 with | some w => lget 0 w 1 | none => 0

section Table

variable (hc : isComb c = true)
include hc

theorem watchRegister_enters (hd : s.dead c = false) {i : Nat} {l : Land} (hl : (s.comb c).landing[i]? = some l)
    (hr : registers s c l = true) (hb : ∀ j e, j < i → (s.comb c).landing[j]? = some e → registers s c e = false) :
    exec (.watchRegister c) s = .next ((s.setComb c { s.comb c with
      landing := ldel (s.comb c).landing i
      watches := (s.comb c).watches ++ [{ ctx := l.pkt.ctx, ctr := l.pkt.off / 8 % 4096, val := watchedValue l.pkt, pkt := l.pkt }]
      }).landDone c l) := by
  have found : lfind (registers s c) (s.comb c).landing = some i := lfind_first hl hr hb
  unfold registers at found
  change execWatchRegister c s = _
  rw [execWatchRegister, hd, onUnit_comb hc, State.watchRegister]
  simp only [found, hl]
  rfl

theorem watchWake_runs (k : Nat) : exec (.watchWake c k) s = .next (s.watchWake c k) := by
  change execWatchWake c k s = _
  rw [execWatchWake, onUnit_comb hc]

variable {k : Nat} {w : Watch} (hw : (s.comb c).watches[k]? = some w)
include hw

section Unsent

variable (hs : w.sent = false)
include hs

theorem watchWake_sends {st : W16} (h : s.wakes c w = some st) : exec (.watchWake c k) s =
    .next ((s.setComb c { s.comb c with watches := lset (s.comb c).watches k { w with woken := some st, sent := true } }).reply c w.pkt
      0x14 0 0 st []) := by
  rw [watchWake_runs hc, State.watchWake]
  simp only [hw, hs, h, Bool.false_eq_true, if_false]
  rfl

theorem watchWake_waits (h : s.wakes c w = none) : exec (.watchWake c k) s = .next s := by
  rw [watchWake_runs hc, State.watchWake]
  simp only [hw, hs, h, Bool.false_eq_true, if_false]

end Unsent

section Sent

variable (hs : w.sent = true)
include hs

theorem watchWake_sent : exec (.watchWake c k) s = .next s := by
  rw [watchWake_runs hc, State.watchWake]
  simp only [hw, hs, if_true]

theorem wakeResend_repeats {st : W16} (h : w.woken = some st) : exec (.wakeResend c k) s = .next (s.reply c w.pkt 0x14 0 0 st []) := by
  change execWakeResend c k s = _
  rw [execWakeResend, onUnit_comb hc]
  simp only [hw, h, hs, if_true]
  rfl

/-- The first acknowledgement in the landing buffer is the one that the watch waits for. -/
theorem wakeAck_removes {i : Nat} {l : Land} (hl : (s.comb c).landing[i]? = some l) (ht : l.pkt.ptype = 9) (hsrc : l.pkt.src = w.pkt.src)
    (hid : l.pkt.reqId = w.pkt.reqId) (hb : ∀ j e, j < i → (s.comb c).landing[j]? = some e → e.pkt.ptype ≠ 9) :
    exec (.wakeAck c k) s = .next ((s.setComb c { s.comb c with
      landing := ldel (s.comb c).landing i, watches := ldel (s.comb c).watches k }).landDone c l) := by
  have found : lfind (fun l : Land => l.pkt.ptype = 9 && w.sent && l.pkt.src = w.pkt.src && l.pkt.reqId = w.pkt.reqId)
      (s.comb c).landing = some i :=
    lfind_first hl (by simp [ht, hs, hsrc, hid]) fun j e hj he => by simp [hb j e hj he]
  change execWakeAck c k s = _
  rw [execWakeAck, onUnit_comb hc, State.wakeAcked]
  simp only [hw, found, hl]

end Sent

end Table

/-! What sending a packet leaves, and the packet that leaves (R320, R508) -/

@[simp] theorem trace_rings (s : State) (c kind unit index arg : Nat) : (s.trace c kind unit index arg).rings = s.rings := by
  unfold State.trace
  split
  · rfl
  · dsimp only
    split <;> rfl

/-- Sampling may add a clitic to the packet and count it in its Comb. -/
theorem sampled_keeps (s : State) (c : Nat) (p : Pkt) :
    (∃ cl n k, (s.sampled c p).1 = { p with clitics := cl, clWords := n, clNext := k }) ∧ (s.sampled c p).2.rings = s.rings := by
  unfold State.sampled
  dsimp only
  split
  · exact ⟨⟨_, _, _, rfl⟩, rfl⟩
  · split_ifs
    · exact ⟨⟨_, _, _, rfl⟩, rfl⟩
    · exact ⟨⟨_, _, _, rfl⟩, trace_rings ..⟩
    · exact ⟨⟨_, _, _, rfl⟩, rfl⟩

/-- The source router leaves the rings, and the packet it sends is for the same destination and request. -/
theorem sendPkt_sends (s : State) (m : Master) (p : Pkt) : (s.sendPkt m p).rings = s.rings ∧ ∃ q : Flight,
    (s.sendPkt m p).net.getLast? = some q ∧ q.pkt.ptype = p.ptype ∧ q.pkt.dst = p.dst ∧ q.pkt.reqId = p.reqId := by
  obtain ⟨⟨cl, n, k, hp⟩, hr⟩ := sampled_keeps s (masterComb m) p
  unfold State.sendPkt
  dsimp only
  split
  · refine ⟨hr, _, List.getLast?_concat, ?_⟩
    rw [hp]; exact ⟨rfl, rfl, rfl⟩
  · refine ⟨hr, _, List.getLast?_concat, ?_⟩
    rw [hp]; exact ⟨rfl, rfl, rfl⟩

/-! A wake at its source (R274, R328, R348) -/

/-- A host command after wake `id` with status `st`; `ep` is the epoch of a fault. -/
def hostWokenCmd (id : Nat) (st : W16) (ep : W64) (h : HCmd) : HCmd :=
  if h.watch = some id then
    { h with watch := none, outst := h.outst.filter (· != id), epoch := if st = 0 then h.epoch else ep
             status := if st = 0 then h.status else match h.status with | none => some (2, 0x4402#16) | some x => some x }
  else h

theorem hostWokenCmd_ok (id : Nat) (ep : W64) (h : HCmd) : hostWokenCmd id 0 ep h =
    if h.watch = some id then { h with watch := none, outst := h.outst.filter (· != id) } else h := rfl

theorem hostWokenCmd_poisoned {id : Nat} {st : W16} (hst : st ≠ 0) (ep : W64) {h : HCmd} (hw : h.watch = some id) (hs : h.status = none) :
    (hostWokenCmd id st ep h).watch = none ∧ (hostWokenCmd id st ep h).status = some (2, 0x4402#16) := by
  simp only [hostWokenCmd, hw, hs, hst, if_true, if_false, and_self]

/-- The machine after host function `f` has taken wake `p`, reply `i`, and acknowledged it. -/
def hostWakeTaken (s : State) (i f : Nat) (p : Pkt) : State :=
  (({ s with net := ldel s.net i } : State).hostWoken f p.reqId p.status).sendPkt (.host f)
    { dst := p.src, cls := p.cls, ptype := 9, ctx := p.ctx, reqId := p.reqId }

theorem hostWakeTaken_acknowledges (s : State) (i f : Nat) (p : Pkt) :
    ∃ q : Flight, (hostWakeTaken s i f p).net.getLast? = some q ∧ q.pkt.ptype = 9 ∧ q.pkt.dst = p.src ∧ q.pkt.reqId = p.reqId :=
  (sendPkt_sends ..).2

theorem hostWakeTaken_cmds (s : State) (i f : Nat) (p : Pkt) : ((hostWakeTaken s i f p).ring f).cmds =
    (s.ring f).cmds.map (hostWokenCmd p.reqId p.status (s.faultEpoch (s.masterCtx (.host f)))) := by
  rw [hostWakeTaken, State.ring, (sendPkt_sends ..).1, ← State.ring, State.hostWoken, State.ring_setRing_same]; rfl

theorem wakeReceive_host {i f : Nat} {p : Pkt} (hp : s.replyAt i 0x14 = some p) (hcrc : p.crc = p.e2e)
    (hm : masterOf p.dstComb p.master = .host f) : exec (.wakeReceive i) s = .next (hostWakeTaken s i f p) := by
  change execWakeReceive i s = _
  rw [execWakeReceive, State.wakeReceive]
  simp only [hp, hcrc, hm, bne_self_eq_false, Bool.false_eq_true, if_false]
  rfl

theorem wakeReceive_idle {i : Nat} (hp : s.replyAt i 0x14 = none) : exec (.wakeReceive i) s = .next s := by
  change execWakeReceive i s = _
  rw [execWakeReceive, State.wakeReceive, hp]

/-- Settles O29: a watch is registered (`watchRegister_enters`), wakes when `State.wakes` answers a status, and leaves with its
acknowledgement (`wakeAck_removes`); at the source `hostWokenCmd` says what becomes of a host command. -/
theorem watchesWake : Obligations.WatchesWake := by
  unfold Obligations.WatchesWake
  intro c s hc m reg
  refine ⟨?register, ?wake, ?resend, ?ack, ?source, ?idle⟩
  case register => exact fun i l hd hl hr hb => watchRegister_enters hc hd hl hr hb
  case wake =>
    intro k w hw hs
    refine ⟨fun hn hv => ?reached, fun hn hv => ?waits, fun st hst => ?poisoned⟩
    case reached => exact watchWake_sends hc hw hs (by rw [State.wakes, hn, if_pos hv])
    case waits => exact watchWake_waits hc hw hs (by rw [State.wakes, hn, if_neg (Nat.not_le.2 hv)])
    case poisoned => rw [watchWake_sends hc hw hs (st := st) (by rw [State.wakes, hst]), ← hst]
  case resend => exact fun k w st hw hs hst => ⟨wakeResend_repeats hc hw hs hst, watchWake_sent hc hw hs⟩
  case ack => exact fun k w i l hw hs hl ht hsrc hid hb => wakeAck_removes hc hw hs hl ht hsrc hid hb
  case source =>
    intro i p f hp hcrc hm
    refine ⟨_, wakeReceive_host hp hcrc hm, ?_⟩
    refine ⟨fun h0 => ?ok, fun k h hst hk hw hs => ?poisoned, hostWakeTaken_acknowledges s i f p⟩
    case ok =>
      rw [hostWakeTaken_cmds, h0]
      exact List.map_congr_left fun h _ => hostWokenCmd_ok p.reqId _ h
    case poisoned =>
      rw [hostWakeTaken_cmds, List.getElem?_map, hk]
      exact ⟨_, rfl, hostWokenCmd_poisoned hst _ hw hs⟩
  case idle => exact fun i hp => wakeReceive_idle hp

end Sys2Proof.Proofs
end

section
/-! PROOFS. Foragers: what tracing, counting and sending leave of a Forager, and the packet that it sends (R288, R320, R500, R505, R508). -/

open Sys2Proof Sys2Proof.Machine

namespace Sys2Proof.Proofs

variable (s : State) (c : Nat)

/-! Traces (R505), which are kept in the live area alone, and events (R350) -/

@[simp] theorem forager_trace (kind unit index arg j g : Nat) : (s.trace c kind unit index arg).forager j g = s.forager j g := by
  obtain ⟨q, l, m, h⟩ := area_trace s c kind unit index arg j
  rw [State.forager, h]; rfl

@[simp] theorem mem_trace (kind unit index arg j : Nat) : ((s.trace c kind unit index arg).area j).mem = (s.area j).mem := by
  obtain ⟨q, l, m, h⟩ := area_trace s c kind unit index arg j
  rw [h]

theorem comb_trace_rest (kind unit index arg j : Nat) :
    (s.trace c kind unit index arg).comb j = { s.comb j with live := (s.trace c kind unit index arg).area j } := by
  unfold State.trace
  split
  · rfl
  · dsimp only
    split_ifs
    · exact comb_setArea_rest ..
    · exact comb_setArea_rest ..
    · rfl

@[simp] theorem ctrOps_trace (kind unit index arg j : Nat) : ((s.trace c kind unit index arg).comb j).ctrOps = (s.comb j).ctrOps := by
  rw [comb_trace_rest]

@[simp] theorem trace_ctxs (kind unit index arg : Nat) : (s.trace c kind unit index arg).ctxs = s.ctxs := by
  unfold State.trace
  split
  · rfl
  · dsimp only
    split <;> rfl

@[simp] theorem trace_net (kind unit index arg : Nat) : (s.trace c kind unit index arg).net = s.net := by
  unfold State.trace
  split
  · rfl
  · dsimp only
    split <;> rfl

@[simp] theorem faultEpoch_trace (kind unit index arg : Nat) (n : Option Nat) :
    (s.trace c kind unit index arg).faultEpoch n = s.faultEpoch n := by
  simp only [State.faultEpoch, State.ctx, trace_ctxs]

@[simp] theorem forager_event (n : Option Nat) (code : W16) (d m : Nat) (res : W64) (j g : Nat) :
    (s.event n code d m res).forager j g = s.forager j g := rfl

/-! Outstanding writes (R257) and issue counters (R500) -/

@[simp] theorem forager_writeIssued (n : Option Nat) (ep : Bool) (g : Nat) : (s.writeIssued n ep).forager c g = s.forager c g := by
  cases n <;> rfl

@[simp] theorem writeIssued_net (n : Option Nat) (ep : Bool) : (s.writeIssued n ep).net = s.net := by
  cases n <;> rfl

@[simp] theorem forager_fgBump (f bytes g : Nat) : (s.fgBump c f bytes).forager c g = s.forager c g := by
  rw [State.forager, State.fgBump, State.area_setArea_same]; rfl

/-! The slot of a command -/

@[simp] theorem slot_setFg (f k : Nat) (m : FgCmd) : tget {} ((s.setFg c f k m).forager c f).slots k = m := by
  rw [State.setFg, State.forager_setForager_same, tget_tput_same]

/-! Sending (R320, R508) -/

@[simp] theorem forager_sampled (p : Pkt) (j g : Nat) : (s.sampled c p).2.forager j g = s.forager j g := by
  have inArea (a : Area) (h : a.fg = (s.area c).fg) : (s.setArea c a).forager j g = s.forager j g := by
    rw [State.forager, State.area_setArea]
    split
    · next hj => subst hj; rw [Area.forager, h]; rfl
    · rfl
  unfold State.sampled
  dsimp only
  split
  · rfl
  · split_ifs
    · rfl
    · rw [forager_trace]; exact inArea _ rfl
    · exact inArea _ rfl

@[simp] theorem sampled_net (p : Pkt) : (s.sampled c p).2.net = s.net := by
  unfold State.sampled
  dsimp only
  split
  · rfl
  · split_ifs
    · rfl
    · exact trace_net ..
    · rfl

/-- Flight `q` carries what request `p` says: the source router fills in only the stream's fields and the sampling clitic. -/
def Carries (q : Flight) (p : Pkt) : Prop :=
  q.pkt.ptype = p.ptype ∧ q.pkt.dst = p.dst ∧ q.pkt.cls = p.cls ∧ q.pkt.off = p.off ∧ q.pkt.payload = p.payload

/-- The source router appends one packet to the Fabric, and leaves the Foragers. -/
theorem sendPkt_appends (m : Master) (p : Pkt) : (∀ j g, (s.sendPkt m p).forager j g = s.forager j g) ∧
    ∃ q : Flight, (s.sendPkt m p).net = s.net ++ [q] ∧ Carries q p := by
  obtain ⟨⟨cl, n, k, hp⟩, -⟩ := sampled_keeps s (masterComb m) p
  have hf := forager_sampled s (masterComb m) p
  have hn := sampled_net s (masterComb m) p
  unfold State.sendPkt
  dsimp only
  split
  · refine ⟨hf, _, congrArg (· ++ [_]) hn, ?_⟩
    rw [hp]; exact ⟨rfl, rfl, rfl, rfl, rfl⟩
  · refine ⟨hf, _, congrArg (· ++ [_]) hn, ?_⟩
    rw [hp]; exact ⟨rfl, rfl, rfl, rfl, rfl⟩

section Send

variable (f k : Nat) (m : FgCmd) (p : Pkt) (u : Nat) (a : W64)

/-- The command with request `p` noted: unit `u` and address `a` are what a fault of it names (R295). -/
def noted : FgCmd :=
  if m.outst.contains p.reqId then m else { m with outst := m.outst ++ [p.reqId], units := (p.reqId, u, a) :: m.units }

@[simp] theorem phase_noted : (noted m p u a).phase = m.phase := by unfold noted; split <;> rfl

/-- The machine with request `p` noted and counted, before the source router takes the packet. -/
def readyToSend : State :=
  let t := (s.setFg c f k (noted m p u a)).fgBump c f p.payload.length
  if p.isWrite && p.ptype ≠ 8 then t.writeIssued (s.residentAt c) p.epochLo else t

theorem fgSend_eq : s.fgSend c f k m p u a = (readyToSend s c f k m p u a).sendPkt (.forager c f) p := rfl

theorem forager_readyToSend : (readyToSend s c f k m p u a).forager c f = (s.setFg c f k (noted m p u a)).forager c f := by
  unfold readyToSend
  dsimp only
  split
  · rw [forager_writeIssued, forager_fgBump]
  · rw [forager_fgBump]

theorem readyToSend_net : (readyToSend s c f k m p u a).net = s.net := by
  unfold readyToSend
  dsimp only
  split
  · exact writeIssued_net ..
  · rfl

/-- Sending a packet of a command leaves the command's phase. -/
theorem phase_fgSend : (tget {} ((s.fgSend c f k m p u a).forager c f).slots k).phase = m.phase := by
  rw [fgSend_eq, (sendPkt_appends ..).1, forager_readyToSend, slot_setFg, phase_noted]

theorem fgSend_appends : ∃ q : Flight, (s.fgSend c f k m p u a).net = s.net ++ [q] ∧ Carries q p := by
  rw [fgSend_eq, ← readyToSend_net s c f k m p u a]
  exact (sendPkt_appends ..).2

end Send

end Sys2Proof.Proofs
end

section
/-! PROOFS. Forager rings, takes and starts (R283 to R287, R296). -/

open Sys2Proof Sys2Proof.Machine Sys2Proof.Claims Sys2Proof.Laws

namespace Sys2Proof.Proofs

variable {s : State} {c f : Nat}

/-! A write of a ring register (R284) -/

section Ring

variable {p : Path} {v : W64}

/-- The value breaks the form of a ring register: a reserved bit or a misaligned base, or an enabled ring of a wrong size or past the end
of Comb Memory. -/
def ringMalformed (w : Nat) : Prop :=
  fld w 26 6 ≠ 0 ∨ fld w 36 4 ≠ 0 ∨ fld w 52 11 ≠ 0 ∨ (fgRing w).1 % 64 ≠ 0
    ∨ ((fgRing w).2.2.2 = true ∧ ((fgRing w).2.1 < 1 ∨ 12 < (fgRing w).2.1 ∨ 0x3000000 < (fgRing w).1 + 64 * 2 ^ (fgRing w).2.1))

theorem fgRingEff_malformed (h : ringMalformed v.toNat) : fgRingEff p f v s = (some badValue, s) := if_pos h

/-- An enabled ring whose Foragers hold commands cannot be replaced. -/
theorem fgRingEff_holding (hw : ¬ ringMalformed v.toNat) (ho : bit (s.obj (s.instOf p 0x2730 (f + 1)) 0x2730 (f + 1) 0) 63 = true)
    (hh : (s.ctx (s.instOf p 0x2730 (f + 1) - 1)).combs.any
      (fun c => !((s.areaOf (s.instOf p 0x2730 (f + 1) - 1) c).forager f).slots.isEmpty) = true) :
    fgRingEff p f v s = (some badState, s) :=
  (if_neg hw).trans (if_pos ⟨ho, hh⟩)

/-- A ring enabled where none was: each Forager takes from where its counter stands. -/
theorem fgRingEff_enables (hw : ¬ ringMalformed v.toNat) (ho : bit (s.obj (s.instOf p 0x2730 (f + 1)) 0x2730 (f + 1) 0) 63 = false)
    (he : (fgRing v.toNat).2.2.2 = true) :
    fgRingEff p f v s = (none, (s.setObj (s.instOf p 0x2730 (f + 1)) 0x2730 (f + 1) v.toNat).onAreas (s.instOf p 0x2730 (f + 1) - 1)
      (fun _ a => a.setForager f
        { a.forager f with taken := BitVec.ofNat 64 (a.counter (fgRing v.toNat).2.2.1), stuck := false })) :=
  (if_neg hw).trans ((if_neg fun h => Bool.eq_false_iff.1 ho h.1).trans (congrArg (Prod.mk none) (if_pos he)))

variable (hp : isPath p = true) (hf : f < 4) (hw : writable p 0x2730 (f + 1) v s)
include hp hf hw

theorem fgRingWrite_accepts {t : State} (he : fgRingEff p f v s = (none, t)) :
    exec (.fgRingWrite p f v) s = accepts p 0x2730 (f + 1) t := by
  change execFgRingWrite p f v s = _
  rw [execFgRingWrite, decide_eq_true hf, Bool.and_true, onUnit_write_accepts hp hw he]

theorem fgRingWrite_refuses {r : Refuse} {t : State} (he : fgRingEff p f v s = (some r, t)) :
    exec (.fgRingWrite p f v) s = refuses p 0x2730 (f + 1) r t := by
  change execFgRingWrite p f v s = _
  rw [execFgRingWrite, decide_eq_true hf, Bool.and_true, onUnit_write_refuses hp hw he]

end Ring

/-! What a Forager's commands run (R283) -/

section Forager

variable (hc : isComb c = true) (hf : f < 4)
include hc hf

theorem onUnit_forager (t : State) : onUnit (isComb c && decide (f < 4)) t = .next t := by
  rw [hc, decide_eq_true hf]; rfl

theorem onUnit_slot {k : Nat} (hk : k < 64) (t : State) : onUnit (isComb c && decide (f < 4 ∧ k < 64)) t = .next t := by
  rw [hc, decide_eq_true ⟨hf, hk⟩]; rfl

section Off

variable (h : s.fgOn c f = false)
include h

theorem fgTake_off : exec (.fgTake c f) s = .next s := by
  change execFgTake c f s = _
  rw [execFgTake, onUnit_forager hc hf, h]; rfl

theorem fgPacketIssue_off : exec (.fgPacketIssue c f) s = .next s := by
  change execFgPacketIssue c f s = _
  rw [execFgPacketIssue, onUnit_forager hc hf, h]; rfl

theorem fgStart_off {k : Nat} (hk : k < 64) : exec (.fgStart c f k) s = .next s := by
  change execFgStart c f k s = _
  rw [execFgStart, onUnit_slot hc hf hk, h]; rfl

theorem fgComplete_off {k : Nat} (hk : k < 64) : exec (.fgComplete c f k) s = .next s := by
  change execFgComplete c f k s = _
  rw [execFgComplete, onUnit_slot hc hf hk, h]; rfl

end Off

variable (h : s.fgOn c f = true)
include h

theorem fgTake_on : exec (.fgTake c f) s = .next (s.fgTake c f) := by
  change execFgTake c f s = _
  rw [execFgTake, onUnit_forager hc hf, h]; rfl

theorem fgPacketIssue_on : exec (.fgPacketIssue c f) s = .next (s.fgFirst c f (cyclicAfter 64 (s.forager c f).last)) := by
  change execFgPacketIssue c f s = _
  rw [execFgPacketIssue, onUnit_forager hc hf, h]; rfl

theorem fgStart_on {k : Nat} (hk : k < 64) : exec (.fgStart c f k) s = .next (s.fgStart c f k) := by
  change execFgStart c f k s = _
  rw [execFgStart, onUnit_slot hc hf hk, h]; rfl

theorem fgComplete_on {k : Nat} (hk : k < 64) : exec (.fgComplete c f k) s = .next (s.fgComplete c f k) := by
  change execFgComplete c f k s = _
  rw [execFgComplete, onUnit_slot hc hf hk, h]; rfl

end Forager

/-! Taking a command (R285, R296) -/

/-- A command taken from its descriptor's words, with the fault that its form shows at once (R296). -/
def takenCmd (ws : List W32) (seqNo : Nat) : FgCmd :=
  { desc := ws, seqNo := seqNo, early := (fgTakeFault (wnum ws)).isSome, fault := (fgTakeFault (wnum ws)).map (fun code => (code, 0, 0)) }

section Take

variable {n : Nat} (hn : s.residentAt c = some n)
include hn

/-- A counter that has not moved past `taken` announces nothing. -/
theorem fgTake_none (h : (s.area c).counter (fgRing (s.fgRingOf n f)).2.2.1 ≤ (s.forager c f).taken.toNat) : s.fgTake c f = s := by
  simp only [State.fgTake, hn, h, or_true, if_true]

variable (he : (fgRing (s.fgRingOf n f)).2.2.2 = true) (hs : (s.forager c f).stuck = false)
  (ha : (s.forager c f).taken.toNat < (s.area c).counter (fgRing (s.fgRingOf n f)).2.2.1)
include he hs ha

theorem fgTake_overrun (h : 2 ^ (fgRing (s.fgRingOf n f)).2.1 <
    (s.area c).counter (fgRing (s.fgRingOf n f)).2.2.1 - (s.forager c f).taken.toNat) : s.fgTake c f = s.fgStuck c f 0x5003#16 0 := by
  simp only [State.fgTake, hn, he, hs, Nat.not_le.2 ha, h, Bool.not_true, Bool.false_eq_true, or_self, if_true, if_false]

/-- The next command enters slot 0 of an empty Forager, which is the lowest free one. -/
theorem fgTake_takes
    (hr : (s.area c).counter (fgRing (s.fgRingOf n f)).2.2.1 - (s.forager c f).taken.toNat ≤ 2 ^ (fgRing (s.fgRingOf n f)).2.1)
    (hsl : (s.forager c f).slots = []) {bs : List Byte} {t : State}
    (ht : s.performRead (some n) c 0
      ((fgRing (s.fgRingOf n f)).1 + 64 * ((s.forager c f).taken.toNat % 2 ^ (fgRing (s.fgRingOf n f)).2.1)) 64 [] = (.ok bs, t)) :
    s.fgTake c f = t.setForager c f { t.forager c f with
      taken := (t.forager c f).taken + 1, takes := (t.forager c f).takes + 1
      slots := tput (t.forager c f).slots 0 (takenCmd (words32 bs) (s.forager c f).takes) } := by
  have lowest : (List.range 64).find? (fun k => (([] : Tbl FgCmd).find? (fun e => e.1 = k)).isNone) = some 0 := rfl
  simp only [State.fgTake, hn, he, hs, Nat.not_le.2 ha, Nat.not_lt.2 hr, hsl, lowest, ht, Bool.not_true, Bool.false_eq_true,
    or_self, if_false]
  rfl

end Take

/-! Starts (R286, R287) -/

/-- A command as it starts: in its open epoch, and with nothing to issue where it has neither unit nor signal. -/
def startedCmd (s : State) (c : Nat) (m : FgCmd) : FgCmd :=
  { m with phase := if fgOp (fgV m) = 0 ∧ fgSig (fgV m) ≠ 1 then .issued else .started, epoch := s.openEpoch (s.residentAt c) }

theorem slot_fgBegin (s : State) (c f k : Nat) (m : FgCmd) :
    tget {} ((s.fgBegin c f k m).forager c f).slots k = startedCmd s c m := by
  unfold State.fgBegin
  dsimp only
  split
  · rw [forager_writeIssued, forager_trace, slot_setFg]; rfl
  · rw [forager_trace, slot_setFg]; rfl

section Start

variable {k : Nat} {m : FgCmd} (hm : (s.forager c f).slots.find? (fun e => e.1 = k) = some (k, m)) (hflt : m.fault = none)
include hm hflt

/-- In order, a command waits while the one taken before it stands (R286). -/
theorem fgStart_behind (ho : bit (fgV m) 10 = true) (hb : (s.forager c f).slots.any (fun e => e.2.seqNo + 1 = m.seqNo) = true) :
    s.fgStart c f k = s := by
  simp only [State.fgStart, hm, hflt, ho, hb, Option.isSome_none, Bool.false_eq_true, Bool.and_self, if_true, if_false]

variable (hw : m.phase = .waiting) (ho : bit (fgV m) 10 = false)
include hw ho

theorem fgStart_unconditional (h : bit (fgV m) 11 = false) : s.fgStart c f k = s.fgBegin c f k m := by
  simp only [State.fgStart, hm, hflt, hw, ho, h, Option.isSome_none, Bool.false_and, Bool.not_false, Bool.false_eq_true, if_true, if_false]

variable (h : bit (fgV m) 11 = true) (hl : bit (fgV m) 432 = true)
include h hl

/-- A condition on a counter of the own Comb is tested, not watched (R287). -/
theorem fgStart_local : s.fgStart c f k =
    if fld (fgV m) 448 64 ≤ (s.area c).counter (fld (fgV m) 396 12) then s.fgBegin c f k m else s := by
  simp only [State.fgStart, hm, hflt, hw, ho, h, hl, Option.isSome_none, Bool.false_and, Bool.not_true, Bool.false_eq_true,
    if_true, if_false]

end Start

/-- Settles O33: the three answers of a ring write are the branches of `fgRingEff`; a take reads `fgTake`'s tests in their order; a start
that runs is `fgBegin`, whose slot `slot_fgBegin` gives. -/
theorem foragerRingsTakesStarts : Obligations.ForagerRingsTakesStarts := by
  unfold Obligations.ForagerRingsTakesStarts
  intro c f s hc hf fg
  refine ⟨?ring, ?take, ?start, ?off⟩
  case ring =>
    intro p v hp hw i r
    refine ⟨fun h26 h36 h52 hb he h1 h12 hend ho => ?enabled, fun hbad => ?malformed, fun hv ho hh => ?holding⟩
    case enabled =>
      refine fgRingWrite_accepts hp hf hw (fgRingEff_enables ?_ ho he)
      rintro (h | h | h | h | ⟨-, h | h | h⟩)
      · exact h h26
      · exact h h36
      · exact h h52
      · exact h hb
      · exact Nat.not_le.2 h h1
      · exact Nat.not_lt.2 h12 h
      · exact Nat.not_lt.2 hend h
    case malformed =>
      refine fgRingWrite_refuses hp hf hw (fgRingEff_malformed ?_)
      rcases hbad with h | h | ⟨he, h0⟩
      · exact .inl h
      · exact .inr (.inr (.inr (.inl h)))
      · exact .inr (.inr (.inr (.inr ⟨he, .inl (h0.trans_lt Nat.zero_lt_one)⟩)))
    case holding =>
      subst hv
      refine fgRingWrite_refuses hp hf hw (fgRingEff_holding ?_ ho hh)
      unfold ringMalformed
      decide
  case take =>
    intro n hon hn r ctr h he hs
    refine ⟨fun hle => ?idle, fun ha hfar => ?overrun, fun bs t ha hr hsl ht => ?takes⟩
    case idle => rw [fgTake_on hc hf hon, fgTake_none hn hle]
    case overrun => rw [fgTake_on hc hf hon, fgTake_overrun hn he hs ha hfar]
    case takes => rw [fgTake_on hc hf hon, fgTake_takes hn he hs ha hr hsl ht]; rfl
  case start =>
    intro k m hk hon hm hflt hw started
    have runs : s.fgStart c f k = s.fgBegin c f k m → Gives (.fgStart c f k) s started := fun h =>
      ⟨s.fgBegin c f k m, by rw [fgStart_on hc hf hon hk, h], slot_fgBegin ..⟩
    refine ⟨fun ho hn => ?unconditional, fun ho hcond hl hv => ?reached, fun ho hcond hl hv => ?waits, fun ho hb => ?behind⟩
    case unconditional => exact runs (fgStart_unconditional hm hflt hw ho hn)
    case reached => exact runs (by rw [fgStart_local hm hflt hw ho hcond hl, if_pos hv])
    case waits => rw [fgStart_on hc hf hon hk, fgStart_local hm hflt hw ho hcond hl, if_neg (Nat.not_le.2 hv)]
    case behind => rw [fgStart_on hc hf hon hk, fgStart_behind hm hflt ho hb]
  case off =>
    exact fun h => ⟨fgTake_off hc hf h, fgPacketIssue_off hc hf h, fun k hk => ⟨fgStart_off hc hf h hk, fgComplete_off hc hf h hk⟩⟩

end Sys2Proof.Proofs
end

section
/-! PROOFS. Forager commands issue packets and complete (R288, R293 to R297, R300), and the receive groups of Scheduled Links (R309). -/

open Sys2Proof Sys2Proof.Machine Sys2Proof.Claims

namespace Sys2Proof.Proofs

variable {s : State} {c f k : Nat} {m : FgCmd}

/-! Turns (R288) -/

/-- Every slot has its turn. -/
theorem mem_cyclicAfter {n k : Nat} (h : k < n) (last : Nat) : k ∈ cyclicAfter n last := by
  refine List.mem_map.2 ⟨(k + (n - (last + 1) % n)) % n, List.mem_range.2 (Nat.mod_lt _ (by omega)), ?_⟩
  have hlast : (last + 1) % n < n := Nat.mod_lt _ (by omega)
  rw [max_eq_left (by omega), Nat.add_mod_mod, ← Nat.mod_add_mod,
    show (last + 1) % n + (k + (n - (last + 1) % n)) = k + n by omega, Nat.add_mod_right, Nat.mod_eq_of_lt h]

section Turn

variable (hs : (s.forager c f).slots = [(k, m)])
include hs

/-- A Forager that holds one command finds it in its slot, and nothing in any other. -/
theorem find_slot_single (j : Nat) : (s.forager c f).slots.find? (fun e => e.1 = j) = if k = j then some (k, m) else none := by
  rw [hs, List.find?_singleton]
  simp only [decide_eq_true_eq]

theorem fgFirst_waits (hn : s.fgNext c f k m = none) (l : List Nat) : s.fgFirst c f l = s := by
  induction l with
  | nil => rfl
  | cons j l ih =>
    rw [State.fgFirst, find_slot_single hs]
    by_cases h : k = j
    · subst h
      simp only [if_true, hn, ih]
    · simp only [if_neg h, ih]

theorem fgFirst_issues {t : State} (hn : s.fgNext c f k m = some t) {l : List Nat} (hk : k ∈ l) :
    s.fgFirst c f l = t.setForager c f { t.forager c f with last := k } := by
  induction l with
  | nil => exact absurd hk List.not_mem_nil
  | cons j l ih =>
    rw [State.fgFirst, find_slot_single hs]
    by_cases h : k = j
    · subst h
      simp only [if_true, hn]
    · simp only [if_neg h, ih ((List.mem_cons.1 hk).resolve_left h)]

end Turn

/-! A signal's add (R293) -/

/-- The packet of an add of `amt` to the counter at `tg`, in `n8` bytes. -/
def addPkt (s : State) (cls : Nat) (tg : Tgt) (amt n8 : Nat) : Pkt :=
  { dst := s.dstOf tg, cls := cls, ptype := 6, ctx := tg.ctx, space := 3, off := tg.off, payload := leBytes n8 amt, reqId := s.newReq.1 }

theorem fgAdd_sends {a : W64} {n8 : Nat} {tg : Tgt} (ht : s.translate (s.residentAt c) a n8 = .ok tg)
    (hsend : s.canSend (.forager c f) (s.dstOf tg) (fgCls (fgV m)) = true) (amt : Nat) : s.fgAdd c f k m a amt n8 =
    some (s.newReq.2.fgSend c f k m (addPkt s (fgCls (fgV m)) tg amt n8) (fgCount (fgV m)) a) := by
  simp only [State.fgAdd, ht, hsend, Bool.not_true, Bool.false_eq_true, if_false]
  rfl

/-- A command without units and digest has its ending to issue. -/
theorem fgNext_ending (hp : m.phase = .started) (hflt : m.fault = none) (hop : fgOp (fgV m) = 0) (hst : m.step ≠ 1) :
    s.fgNext c f k m = s.fgEnding c f k m := by
  have noUnits : fgCount (fgV m) = 0 := if_pos hop
  have noDispatch : fgOp (fgV m) ≠ 6 := by omega
  have ready : ¬ (m.phase ≠ .started ∨ m.fault.isSome = true) := by simp [hp, hflt]
  simp only [State.fgNext, if_neg ready, if_neg noDispatch, if_neg hst, noUnits, Nat.not_lt_zero, if_false]

/-- A signal's add is the last packet of its command. -/
theorem fgEnding_add (hd : fgDig (fgV m) = false) : s.fgEnding c f k m =
    s.fgAdd c f k { m with phase := .issued } (ctrAddr (fgDst (fgV m)) (fgSigCtr (fgV m))) (fgSigAmt (fgV m)) 4 := by
  simp only [State.fgEnding, hd, Bool.false_eq_true, if_false]

/-- What a command issues that has a signal's add alone. -/
theorem fgNext_signal (hp : m.phase = .started) (hflt : m.fault = none) (hop : fgOp (fgV m) = 0) (hst : m.step ≠ 1)
    (hd : fgDig (fgV m) = false) {tg : Tgt} (ht : s.translate (s.residentAt c) (ctrAddr (fgDst (fgV m)) (fgSigCtr (fgV m))) 4 = .ok tg)
    (hsend : s.canSend (.forager c f) (s.dstOf tg) (fgCls (fgV m)) = true) : s.fgNext c f k m =
    some (s.newReq.2.fgSend c f k { m with phase := .issued } (addPkt s (fgCls (fgV m)) tg (fgSigAmt (fgV m)) 4) (fgCount (fgV m))
      (ctrAddr (fgDst (fgV m)) (fgSigCtr (fgV m)))) := by
  rw [fgNext_ending hp hflt hop hst, fgEnding_add hd]
  exact fgAdd_sends (m := { m with phase := .issued }) ht hsend _

/-! Completion (R294 to R297) -/

/-- The counter add that a command without a fault passes on, where its descriptor asks for one. -/
def doneAdds (s : State) (c f : Nat) (m : FgCmd) : List CtrOp :=
  if bit (fgV m) 12 && m.fault.isNone then
    [{ ctx := (s.residentAt c).getD 16, ix := fld (fgV m) 16 12, amt := 1, who := some (.forager c f) }]
  else []

/-- The machine after a command that has ended passed its add on (R294). -/
def passDone (s : State) (c f : Nat) (m : FgCmd) : State :=
  if bit (fgV m) 12 && m.fault.isNone then
    s.passAdd c { ctx := (s.residentAt c).getD 16, ix := fld (fgV m) 16 12, amt := 1, who := some (.forager c f) }
  else s

@[simp] theorem area_passDone : (passDone s c f m).area c = s.area c := by
  unfold passDone
  split
  · rw [State.passAdd, State.area, State.comb_setComb_same]; rfl
  · rfl

@[simp] theorem passDone_events : (passDone s c f m).events = s.events := by unfold passDone; split <;> rfl
@[simp] theorem passDone_ctxs : (passDone s c f m).ctxs = s.ctxs := by unfold passDone; split <;> rfl

theorem ctrOps_passDone : ((passDone s c f m).comb c).ctrOps = (s.comb c).ctrOps ++ doneAdds s c f m := by
  unfold passDone doneAdds
  split
  · rw [State.passAdd, State.comb_setComb_same]
  · rw [List.append_nil]

/-- The Forager without command `m`; that it ended in a fault is kept for the command in order behind it. -/
def foragerWithout (g : Forager) (k : Nat) (m : FgCmd) : Forager :=
  { g with slots := tdel g.slots k, ended := if m.fault.isSome then tset false g.ended m.seqNo true else g.ended }

/-- The machine after a finished command without a record has left its slot. -/
def fgLeft (s : State) (c f k : Nat) (m : FgCmd) : State :=
  (passDone s c f m).setForager c f (foragerWithout ((passDone s c f m).forager c f) k m)

@[simp] theorem fgLeft_events : (fgLeft s c f k m).events = s.events := passDone_events
@[simp] theorem forager_fgLeft : (fgLeft s c f k m).forager c f = foragerWithout (s.forager c f) k m := by
  rw [fgLeft, State.forager_setForager_same, State.forager, area_passDone]; rfl
@[simp] theorem mem_fgLeft : ((fgLeft s c f k m).area c).mem = (s.area c).mem := by
  rw [fgLeft, State.setForager, State.area_setArea_same, area_passDone]; rfl
@[simp] theorem ctrOps_fgLeft : ((fgLeft s c f k m).comb c).ctrOps = (s.comb c).ctrOps ++ doneAdds s c f m := by
  rw [fgLeft, State.setForager, State.setArea, State.comb_setComb_same, ← ctrOps_passDone]
@[simp] theorem faultEpoch_fgLeft (n : Option Nat) : (fgLeft s c f k m).faultEpoch n = s.faultEpoch n := by
  have ctxs : (fgLeft s c f k m).ctxs = s.ctxs := passDone_ctxs
  simp only [State.faultEpoch, State.ctx, ctxs]

/-- The command has nothing outstanding, in the Fabric or in the operation unit, and its completion writes no record. -/
structure Finished (m : FgCmd) : Prop where
  issued : m.phase = .issued
  outst : m.outst = []
  unit : fgOp (fgV m) = 6 ∨ m.step ≠ 1
  noRecord : bit (fgV m) 13 = false

theorem Finished.notAtUnit (h : Finished m) : (fgOp (fgV m) != 6 && decide (m.step = 1)) = false := by
  rcases h.unit with h | h <;> simp [h]

theorem Finished.crecOff (h : Finished m) : fgCrecOk (fgV m) = false := by rw [fgCrecOk, h.noRecord]; rfl

section Complete

variable (hm : (s.forager c f).slots.find? (fun e => e.1 = k) = some (k, m))
include hm

theorem fgComplete_outstanding (ho : m.outst ≠ []) : s.fgComplete c f k = s := by
  have busy : m.outst.isEmpty = false := Bool.eq_false_iff.2 fun h => ho (List.isEmpty_iff.1 h)
  simp only [State.fgComplete, hm, busy, Bool.false_and, Bool.not_false, if_true]

variable (h : Finished m)
include h

theorem fgComplete_ok (hflt : m.fault = none) : s.fgComplete c f k = (fgLeft s c f k m).trace c 6 4 f (fgTag (fgV m)) := by
  simp [State.fgComplete, hm, h.issued, h.outst, hflt, h.crecOff, h.notAtUnit, fgLeft, passDone, foragerWithout]

theorem fgComplete_faulted {code : W16} {u : Nat} {a : W64} (hflt : m.fault = some (code, u, a)) : s.fgComplete c f k =
    ((fgLeft s c f k m).trace c 6 4 f (fgTag (fgV m) + code.toNat * 65536)).event (s.residentAt c) code c
      (masterField (.forager c f)) 0 := by
  simp [State.fgComplete, hm, h.issued, h.outst, hflt, h.crecOff, h.notAtUnit, fgLeft, passDone, foragerWithout]

end Complete

/-! Occupancy words (R300) and receive groups (R309) -/

section Estimate

variable (hc : isComb c = true) (hf : f < 4) {key : Nat} {e : Est} (he : (s.forager c f).estOf key = some e) (w : W32)
include hc hf he

theorem dispatchOccReadReturn_awaited (hv : e.val = none) : exec (.dispatchOccReadReturn c f key w) s =
    .next (s.setForager c f ((s.forager c f).putEst { e with val := some w.toNat })) := by
  change execDispatchOccReadReturn c f key w s = _
  rw [execDispatchOccReadReturn, onUnit_forager hc hf]
  simp only [State.occRead, he, hv, Option.isNone_none, if_true]

theorem dispatchOccReadReturn_known (hv : e.val ≠ none) : exec (.dispatchOccReadReturn c f key w) s = .next s := by
  have known : e.val.isNone = false := Bool.eq_false_iff.2 fun h => hv (Option.isNone_iff_eq_none.1 h)
  change execDispatchOccReadReturn c f key w s = _
  rw [execDispatchOccReadReturn, onUnit_forager hc hf]
  simp only [State.occRead, he, known, Bool.false_eq_true, if_false]

end Estimate

theorem slRxWrite_stores {p : Path} {d : Nat} {w : W64} (hp : isPath p = true) (hd : d < 4) (hw : writable p 0x2740 (d + 1) w s) :
    exec (.slRxWrite p d w) s = accepts p 0x2740 (d + 1) (s.setObj (s.instOf p 0x2740 (d + 1)) 0x2740 (d + 1) w.toNat) := by
  change execSlRxWrite p d w s = _
  have stored : Eff.ok (fun s => s.storeObj p 0x2740 (d + 1) w) s =
      (none, s.setObj (s.instOf p 0x2740 (d + 1)) 0x2740 (d + 1) w.toNat) := rfl
  rw [execSlRxWrite, decide_eq_true hd, Bool.and_true, onUnit_write_accepts hp hw stored]

/-- Settles O34: the one command found has its turn (`fgFirst_issues`); a signal's add is `fgAdd_sends`, whose packet `fgSend_appends`
follows through the source router; a completion is `fgLeft`, traced and, after a fault, posted. -/
theorem foragerIssueAndCompletion : Obligations.ForagerIssueAndCompletion := by
  unfold Obligations.ForagerIssueAndCompletion
  intro c f k m s hc hf hk hon hs v n
  have hm : (s.forager c f).slots.find? (fun e => e.1 = k) = some (k, m) := by rw [find_slot_single hs, if_pos rfl]
  have hgone : (foragerWithout (s.forager c f) k m).slots = [] := by
    change tdel (s.forager c f).slots k = []
    rw [hs, tdel, List.filter_cons_of_neg (by simp), List.filter_nil]
  have issues (t : State) (ht : s.fgNext c f k m = some t) :
      exec (.fgPacketIssue c f) s = .next (t.setForager c f { t.forager c f with last := k }) := by
    rw [fgPacketIssue_on hc hf hon, fgFirst_issues hs ht (mem_cyclicAfter hk _)]
  refine ⟨issues, fun hn => ?waits, ?signal, ?done, ?failed, fun ho => ?outstanding, ?estimate,
    fun p d w hp hd hw => slRxWrite_stores hp hd hw⟩
  case waits => rw [fgPacketIssue_on hc hf hon, fgFirst_waits hs hn]
  case signal =>
    intro tg hp hflt hop _ hd hst ht hsend
    obtain ⟨q, hq, htype, hdst, hcls, hoff, hpay⟩ := fgSend_appends s.newReq.2 c f k { m with phase := .issued }
      (addPkt s (fgCls v) tg (fgSigAmt v) 4) (fgCount v) (ctrAddr (fgDst v) (fgSigCtr v))
    refine ⟨_, issues _ (fgNext_signal hp hflt hop hst hd ht hsend), ?_, q, ?_, htype, hdst, hcls, hoff, hpay⟩
    · rw [State.forager_setForager_same]
      exact phase_fgSend ..
    · rw [State.setForager_net, hq]; rfl
  case done =>
    intro hflt hp ho hu hb
    have ended := fgComplete_on hc hf hon hk
    rw [fgComplete_ok hm ⟨hp, ho, hu, hb⟩ hflt] at ended
    refine ⟨_, ended, ?_, ?_, ?_, ?_⟩
    · rw [forager_trace, forager_fgLeft, hgone]
    · rw [trace_events, fgLeft_events]
    · rw [mem_trace, mem_fgLeft]
    · rw [ctrOps_trace, ctrOps_fgLeft, doneAdds, hflt, Option.isNone_none, Bool.and_true]
  case failed =>
    intro code u a hflt hp ho hu hb
    have ended := fgComplete_on hc hf hon hk
    rw [fgComplete_faulted hm ⟨hp, ho, hu, hb⟩ hflt] at ended
    refine ⟨_, ended, ?_, ?_, ?_, ?_⟩
    · rw [forager_event, forager_trace, forager_fgLeft, hgone]
    · rw [event_comb, ctrOps_trace, ctrOps_fgLeft, doneAdds, hflt, Option.isNone_some, Bool.and_false, if_neg Bool.false_ne_true,
        List.append_nil]
    · rw [forager_event, forager_trace, forager_fgLeft, foragerWithout, hflt, Option.isSome_some, if_pos rfl, tget_tset_same]
    · rw [event_events, trace_events, fgLeft_events, faultEpoch_trace, faultEpoch_fgLeft]
  case outstanding => rw [fgComplete_on hc hf hon hk, fgComplete_outstanding hm ho]
  case estimate => exact fun key w e he => ⟨dispatchOccReadReturn_awaited hc hf he w, dispatchOccReadReturn_known hc hf he w⟩

end Sys2Proof.Proofs
end

section
/-! PROOFS. A packet's bytes (R320, R322): the header is its fields one above the other, the clitics are the words between header and
payload, and each part reads back. -/

open Sys2Proof Sys2Proof.Machine

namespace Sys2Proof.Proofs

/-! Bytes of numbers and words -/

@[simp] theorem length_leBytes : ∀ n v : Nat, (leBytes n v).length = n
  | 0, _ => rfl
  | n + 1, v => congrArg Nat.succ (length_leBytes n (v / 256))

theorem leNat_leBytes : ∀ {n v : Nat}, v < 256 ^ n → leNat (leBytes n v) = v
  | 0, v, h => by rw [pow_zero] at h; exact (Nat.lt_one_iff.1 h).symm
  | n + 1, v, h => by
    have upper : v / 256 < 256 ^ n := Nat.div_lt_of_lt_mul (by rwa [pow_succ'] at h)
    rw [leBytes, leNat, leNat_leBytes upper, BitVec.toNat_ofNat, Nat.mod_add_div]

theorem bytes64_cons (w : W64) (l : List W64) : bytes64 (w :: l) = leBytes 8 w.toNat ++ bytes64 l := rfl

theorem length_bytes64 (l : List W64) : (bytes64 l).length = 8 * l.length := by
  induction l with
  | nil => rfl
  | cons w l ih => rw [bytes64_cons, List.length_append, length_leBytes, ih, List.length_cons]; omega

theorem chunks_bytes64 (l : List W64) : ∀ {fuel : Nat}, l.length ≤ fuel →
    (chunks 8 fuel (bytes64 l)).map (fun b => BitVec.ofNat 64 (leNat b)) = l := by
  induction l with
  | nil => intro fuel _; cases fuel <;> rfl
  | cons w l ih =>
    intro fuel h
    obtain ⟨f, rfl⟩ := Nat.exists_eq_add_of_lt (Nat.lt_of_lt_of_le (Nat.zero_lt_succ _) h)
    have word : BitVec.ofNat 64 (leNat (leBytes 8 w.toNat)) = w := by rw [leNat_leBytes w.isLt, BitVec.ofNat_toNat, BitVec.setWidth_eq]
    have filled : (leBytes 8 w.toNat ++ bytes64 l).isEmpty = false := rfl
    rw [Nat.zero_add, chunks, bytes64_cons, filled, if_neg Bool.false_ne_true, List.take_left' (length_leBytes ..),
      List.drop_left' (length_leBytes ..), List.map_cons, word, ih (by simpa using h)]

theorem words64_bytes64 (l : List W64) : words64 (bytes64 l) = l :=
  chunks_bytes64 l (by rw [length_bytes64]; omega)

/-! Fields of a number packed one above the other -/

/-- The number whose fields, from bit 0 up, have these widths and values. -/
def packed : List (Nat × Nat) → Nat
  | [] => 0
  | (w, v) :: t => v % 2 ^ w + 2 ^ w * packed t

/-- The width of these fields together. -/
def packedWidth (l : List (Nat × Nat)) : Nat := (l.map Prod.fst).sum

theorem packed_lt : ∀ l : List (Nat × Nat), packed l < 2 ^ packedWidth l
  | [] => Nat.one_pos
  | (w, v) :: t => by
    rw [packed, show packedWidth ((w, v) :: t) = w + packedWidth t from rfl, pow_add]
    exact Nat.lt_of_lt_of_le (Nat.add_lt_add_right (Nat.mod_lt v (Nat.two_pow_pos w)) _)
      (by rw [Nat.add_comm, ← Nat.mul_succ]; exact Nat.mul_le_mul_left _ (packed_lt t))

theorem fld_packed_above (w v : Nat) (t : List (Nat × Nat)) (lo n : Nat) : fld (packed ((w, v) :: t)) (w + lo) n = fld (packed t) lo n := by
  rw [fld, fld, packed, pow_add, ← Nat.div_div_eq_div_mul, Nat.add_mul_div_left _ _ (Nat.two_pow_pos w),
    Nat.div_eq_of_lt (Nat.mod_lt v (Nat.two_pow_pos w)), Nat.zero_add]

/-- Field `k` lies above the `k` fields below it. -/
theorem fld_packed : ∀ {l : List (Nat × Nat)} {k w v : Nat}, l[k]? = some (w, v) → fld (packed l) (packedWidth (l.take k)) w = v % 2 ^ w
  | [], _, _, _, h => by simp at h
  | (w, v) :: t, 0, _, _, h => by
    obtain ⟨rfl, rfl⟩ := Prod.mk.inj (Option.some.inj h)
    change packed ((w, v) :: t) / 2 ^ 0 % 2 ^ w = v % 2 ^ w
    rw [pow_zero, Nat.div_one, packed, Nat.add_mul_mod_self_left, Nat.mod_mod]
  | (w, v) :: t, k + 1, w', v', h => by
    have below : t[k]? = some (w', v') := h
    exact (fld_packed_above w v t (packedWidth (t.take k)) w').trans (fld_packed below)

/-! The header (R320) -/

/-- The fields of the header from bit 0 up, with the given `VC` and `E2E_CRC`; bits 173 to 175 are zero. -/
def headFields (p : Pkt) (vc crc : Nat) : List (Nat × Nat) :=
  [(24, p.dst), (24, p.src), (14, p.master), (2, p.cls), (5, p.ptype), (2, vc), (1, b2n p.epochLo), (4, p.ctx), (3, p.space),
   (1, b2n p.first), (36, p.off), (10, p.len), (1, b2n p.opn), (1, b2n p.rsvd), (16, p.seq), (8, p.inc), (4, p.clNext),
   (4, p.clWords), (12, p.arrCtr), (1, b2n p.arrEn), (3, 0), (16, p.arrAmt), (16, p.reqId), (16, p.status.toNat), (32, crc)]

/-- The widths of the header's fields. -/
def headWidths : List Nat := (headFields {} 0 0).map Prod.fst

theorem map_fst_headFields (p : Pkt) (vc crc : Nat) : (headFields p vc crc).map Prod.fst = headWidths := rfl

theorem b2n_lt (b : Bool) : b2n b < 2 ^ 1 := by cases b <;> decide

theorem head_eq_packed (p : Pkt) (vc crc : Nat) : p.head vc crc = packed (headFields p vc crc) := by
  have flag (b : Bool) : b2n b % 2 ^ 1 = b2n b := Nat.mod_eq_of_lt (b2n_lt b)
  have code : p.status.toNat % 2 ^ 16 = p.status.toNat := Nat.mod_eq_of_lt p.status.isLt
  simp only [headFields, packed, flag, code, Pkt.head]
  omega

/-- A field of the header reads what was put there, where it fits. -/
theorem fld_head (p : Pkt) (vc crc k : Nat) {lo w v : Nat} (hk : (headFields p vc crc)[k]? = some (w, v))
    (hlo : (headWidths.take k).sum = lo) (hv : v < 2 ^ w) : fld (p.head vc crc) lo w = v := by
  rw [head_eq_packed, ← hlo, ← map_fst_headFields p vc crc, ← List.map_take]
  exact (fld_packed hk).trans (Nat.mod_eq_of_lt hv)

/-- A flag of the header reads what was put there. -/
theorem bit_head (p : Pkt) (vc crc k : Nat) {lo : Nat} {b : Bool} (hk : (headFields p vc crc)[k]? = some (1, b2n b))
    (hlo : (headWidths.take k).sum = lo) : bit (p.head vc crc) lo = b := by
  have flag : p.head vc crc / 2 ^ lo % 2 = b2n b := fld_head p vc crc k hk hlo (b2n_lt b)
  rw [bit, flag]
  cases b <;> rfl

theorem leNat_head (p : Pkt) (vc crc : Nat) : leNat (leBytes 32 (p.head vc crc)) = p.head vc crc := by
  apply leNat_leBytes
  have width : packedWidth (headFields p vc crc) = 8 * 32 := by rw [packedWidth, map_fst_headFields]; decide
  have fits := packed_lt (headFields p vc crc)
  rwa [width, Nat.pow_mul, ← head_eq_packed] at fits

/-! The clitics (R322) -/

/-- Each clitic names its own length, and the last of them alone names no next one. -/
def CliticChain (cs : List (List W64)) : Prop :=
  ∀ (k : Nat) (c : List W64), cs[k]? = some c → fld (clWord0 c) 4 2 + 1 = c.length ∧ (clWord0 c % 16 = 0 ↔ k + 1 = cs.length)

theorem CliticChain.tail {c : List W64} {cs : List (List W64)} (h : CliticChain (c :: cs)) : CliticChain cs := by
  intro k d hd
  obtain ⟨hlen, hnext⟩ := h (k + 1) d hd
  exact ⟨hlen, by rw [hnext, List.length_cons]; omega⟩

theorem CliticChain.length_pos {cs : List (List W64)} (h : CliticChain cs) {c : List W64} (hc : c ∈ cs) : 1 ≤ c.length := by
  obtain ⟨k, hk⟩ := List.getElem?_of_mem hc
  obtain ⟨hlen, -⟩ := h k c hk
  omega

theorem CliticChain.length_le_flatten {cs : List (List W64)} (h : CliticChain cs) : cs.length ≤ cs.flatten.length := by
  rw [List.length_flatten, ← List.length_map (f := List.length)]
  exact List.length_le_sum_of_one_le _ (by simpa using fun c hc => h.length_pos hc)

theorem splitClitics_flatten : ∀ {cs : List (List W64)} {fuel : Nat}, CliticChain cs → cs.length ≤ fuel → splitClitics fuel cs.flatten = cs
  | [], 0, _, _ | [], _ + 1, _, _ => rfl
  | [] :: _, _, h, _ => absurd (h.length_pos List.mem_cons_self) (by decide)
  | (w :: t) :: cs, fuel + 1, h, hf => by
    obtain ⟨hlen, hnext⟩ := h 0 (w :: t) rfl
    change fld w.toNat 4 2 + 1 = (w :: t).length at hlen
    change w.toNat % 16 = 0 ↔ 0 + 1 = cs.length + 1 at hnext
    have rest : (if w.toNat % 16 = 0 then [] else splitClitics fuel cs.flatten) = cs := by
      split
      · next hw => exact (List.length_eq_zero_iff.1 (by have := hnext.1 hw; omega)).symm
      · exact splitClitics_flatten h.tail (Nat.le_of_succ_le_succ hf)
    rw [List.flatten_cons, List.cons_append, splitClitics, hlen, ← List.cons_append, List.take_left' rfl, List.drop_left' rfl, rest]

theorem clBytes_eq (p : Pkt) : p.clBytes = bytes64 p.clitics.flatten := by
  rw [Pkt.clBytes, bytes64, ← List.flatMap_id, List.flatMap_assoc]; rfl

/-! The packet -/

/-- What the clitics of a packet fill: the words the header counts. -/
theorem length_clBytes {p : Pkt} (hw : (p.clitics.map List.length).foldl (· + ·) 0 = p.clWords) : p.clBytes.length = 8 * p.clWords := by
  rw [clBytes_eq, length_bytes64, List.length_flatten, List.sum_eq_foldl, hw]

/-- Settles O37: the header's fields stand one above the other (`fld_head`), the counted words are the clitics (`words64_bytes64`), which
their own lengths and `NEXT` cut apart (`splitClitics_flatten`), and the rest is the payload. -/
theorem packetBytesReadBack : Obligations.PacketBytesReadBack := by
  unfold Obligations.PacketBytesReadBack
  intro p hdst hsrc hmaster hcls hptype hvc hctx hspace hoff hlen hseq hinc hnext hwords hctr hamt hreq hempty hsum hchain
  have chain : CliticChain p.clitics := hchain
  have short : p.clitics.length ≤ 16 := by
    have := chain.length_le_flatten
    rw [List.length_flatten, List.sum_eq_foldl, hsum] at this
    omega
  have header : p.bytes.take 32 = leBytes 32 (p.head p.vc p.e2e.toNat) := by
    rw [Pkt.bytes, List.append_assoc, List.take_left' (length_leBytes ..)]
  have body : p.bytes.drop 32 = p.clBytes ++ p.payload := by
    rw [Pkt.bytes, List.append_assoc, List.drop_left' (length_leBytes ..)]
  have rest : p.bytes.drop (32 + 8 * p.clWords) = p.payload := by
    rw [← List.drop_drop, body, List.drop_left' (length_clBytes hsum)]
  have clitics : (if p.clNext = 0 then [] else splitClitics 16 (words64 p.clBytes)) = p.clitics := by
    split
    · next h => exact (hempty.1 h).symm
    · rw [clBytes_eq, words64_bytes64, splitClitics_flatten chain short]
  have field (k lo : Nat) {w v : Nat} := fld_head p p.vc p.e2e.toNat k (lo := lo) (w := w) (v := v)
  have flag (k lo : Nat) {b : Bool} := bit_head p p.vc p.e2e.toNat k (lo := lo) (b := b)
  simp only [pktOf, header, leNat_head, body, rest, field 0 0 rfl rfl hdst, field 1 24 rfl rfl hsrc, field 2 48 rfl rfl hmaster,
    field 3 62 rfl rfl hcls, field 4 64 rfl rfl hptype, field 5 69 rfl rfl hvc, flag 6 71 rfl rfl, field 7 72 rfl rfl hctx,
    field 8 76 rfl rfl hspace, flag 9 79 rfl rfl, field 10 80 rfl rfl hoff, field 11 116 rfl rfl hlen, flag 12 126 rfl rfl,
    flag 13 127 rfl rfl, field 14 128 rfl rfl hseq, field 15 144 rfl rfl hinc, field 16 152 rfl rfl hnext, field 17 156 rfl rfl hwords,
    field 18 160 rfl rfl hctr, flag 19 172 rfl rfl, field 20 173 rfl rfl (Nat.two_pow_pos 3), field 21 176 rfl rfl hamt,
    field 22 192 rfl rfl hreq, field 23 208 rfl rfl p.status.isLt, field 24 224 rfl rfl p.e2e.isLt,
    List.take_left' (length_clBytes hsum), clitics, BitVec.ofNat_toNat, BitVec.setWidth_eq, bne_self_eq_false, Bool.or_false]

end Sys2Proof.Proofs
end

section
/-! PROOFS. A packet on its way: parsed where it enters (R322, R323), from router to router of the mesh (R312, R313), and out at the Rim
switch (R314 to R316, R331). -/

open Sys2Proof Sys2Proof.Machine

namespace Sys2Proof.Proofs

variable {s : State} {i : Nat} {p : Pkt}

/-! What the routers' shared operations leave in the network -/

@[simp] theorem routerCount_net (c ix n : Nat) : (s.routerCount c p ix n).net = s.net := by
  unfold State.routerCount
  split <;> rfl

@[simp] theorem routerCount_ownModule (c ix n : Nat) : (s.routerCount c p ix n).ownModule = s.ownModule := by
  unfold State.routerCount
  split <;> rfl

@[simp] theorem sendFrame_net (port kind net vcn : Nat) (body : List Byte) : (s.sendFrame port kind net vcn body).net = s.net := rfl

theorem sendFrame_sends (port kind net vcn : Nat) (body : List Byte) :
    ∃ f, (s.sendFrame port kind net vcn body).outs = .frame port f :: s.outs := ⟨_, rfl⟩

/-- A refused request is answered to its source with the code (R316, R323). -/
theorem refuseRoute_answers (hreq : p.isReply = false) (code : W16) : ∃ q : Flight, (s.refuseRoute p code).net = s.net ++ [q]
    ∧ q.pkt.ptype = 0x11 ∧ q.pkt.status = code ∧ q.pkt.dst = p.src ∧ q.pkt.seq = p.seq := by
  simp only [State.refuseRoute, hreq, Bool.false_eq_true, if_false]
  exact ⟨_, rfl, rfl, rfl, rfl, rfl⟩

/-! Parsing (R322, R323) -/

/-- Flight `i` leaves the network at its parsing, dropped and counted at its source Comb's router if it is parsed there (R323, R500). -/
def parseDrops (s : State) (i : Nat) (p : Pkt) : State :=
  let gone : State := { s with net := ldel s.net i }
  if s.atComb p then gone.routerCount p.srcComb p 4 1 else gone

theorem parseDrops_net : (parseDrops s i p).net = ldel s.net i := by
  unfold parseDrops
  split
  · exact routerCount_net ..
  · rfl

theorem parseDrops_ownModule : (parseDrops s i p).ownModule = s.ownModule := by
  unfold parseDrops
  split
  · exact routerCount_ownModule ..
  · rfl

section Parse

variable (hi : s.net[i]? = some ⟨p, .source, none⟩)
include hi

theorem pktParse_entersMesh (hform : p.formFault = none) (hcomb : s.atComb p = true) : exec (.pktParse i) s =
    .next { s with net := lset s.net i ⟨{ p with vc := if p.dstModule = s.ownModule ∧ p.toRim = false then 0 else 1 },
      .mesh (cxOf p.srcComb) (cyOf p.srcComb), none⟩ } := by
  change execPktParse i s = _
  rw [execPktParse, State.parse]
  simp only [hi, hform, hcomb, if_true, Bool.and_eq_true, decide_eq_true_eq, Bool.not_eq_true']

theorem pktParse_entersRim (hform : p.formFault = none) (hcomb : s.atComb p = false) : exec (.pktParse i) s =
    .next { s with net := lset s.net i ⟨p, .rim, none⟩ } := by
  change execPktParse i s = _
  rw [execPktParse, State.parse]
  simp only [hi, hform, hcomb, Bool.false_eq_true, if_false]

/-- A packet of a bad form is refused where it is parsed, like one without a route. -/
theorem pktParse_refuses {code : W16} (hform : p.formFault = some code) (hreq : p.isReply = false) : exec (.pktParse i) s =
    .next ((parseDrops s i p).refuseRoute p code) := by
  change execPktParse i s = _
  rw [execPktParse, State.parse]
  simp only [hi, hform, hreq, State.roomBack, State.refuseRoute, Bool.false_eq_true, if_false, parseDrops_ownModule]
  rfl

end Parse

/-! Hops in the mesh (R312, R313) -/

/-- Where a packet at router (x, y) goes next: towards its destination in the module, else towards the gateway. -/
def meshNext (p : Pkt) (x y : Nat) : Place :=
  let target := if p.vc = 0 then (cxOf p.dstComb, cyOf p.dstComb) else gatewayAt x y
  if (x, y) = target then (if p.vc = 0 then .arrived else .rim)
  else .mesh (stepTo x y target.1 target.2).1 (stepTo x y target.1 target.2).2

section Mesh

variable {x y : Nat} (hi : s.net[i]? = some ⟨p, .mesh x y, none⟩) (hon : s.fabricOff = false)
include hi hon

theorem pktHop_drops : exec (.pktHop i true) s = .next (({ s with net := ldel s.net i } : State).routerCount (y * 40 + x) p 3 1) := by
  change execPktHop i true s = _
  rw [execPktHop, State.hop]
  simp only [hi, hon, Bool.false_eq_true, if_false, if_true]

theorem pktHop_moves : exec (.pktHop i false) s =
    .next { s.routerCount (y * 40 + x) p 0 p.flits with net := lset s.net i ⟨p, meshNext p x y, none⟩ } := by
  change execPktHop i false s = _
  rw [execPktHop, State.hop]
  by_cases hvc : p.vc = 0
  · simp only [hi, hon, hvc, meshNext, Bool.false_eq_true, if_false, if_true]
    split <;> rfl
  · simp only [hi, hon, hvc, meshNext, Bool.false_eq_true, if_false]
    split <;> rfl

end Mesh

/-! The Rim switch (R314 to R316, R331) -/

section Rim

variable {port vc : Nat} (hi : s.net[i]? = some ⟨p, .rim, none⟩) (hon : s.fabricOff = false) (hdst : p.dstModule ≠ s.ownModule)
  (hhop : s.torusHop p = some (port, vc))
include hi hon hdst hhop

theorem pktHop_leaves (hopen : s.portOpen port { p with vc := vc } = true)
    (hgo : tget 0 (s.port port).paused ({ p with vc := vc } : Pkt).chan = 0) : exec (.pktHop i false) s =
    .next (({ s with net := ldel s.net i } : State).sendFrame port 0 (b2n p.isReply) ({ p with vc := vc } : Pkt).vcn
      ({ p with vc := vc } : Pkt).bytes) := by
  change execPktHop i false s = _
  rw [execPktHop, State.hop]
  simp only [hi, hon, hdst, hhop, hopen, hgo, State.roomBack, Bool.not_true, ne_eq, not_true_eq_false, Bool.false_eq_true, if_false]
  rfl

theorem pktHop_refuses (hshut : s.portOpen port { p with vc := vc } = false) : exec (.pktHop i false) s =
    .next (State.refuseRoute { s with net := ldel s.net i } p 0x6005#16) := by
  change execPktHop i false s = _
  rw [execPktHop, State.hop]
  simp only [hi, hon, hdst, hhop, hshut, State.roomBack, Bool.not_false, Bool.false_eq_true, if_false, if_true]

end Rim

/-! Nothing to do: no packet there (log entry 11), or a Fabric that stands still (R424, R443) -/

section Absent

variable (hi : s.net[i]? = none)
include hi

theorem replyAt_absent (t : Nat) : s.replyAt i t = none := by rw [State.replyAt, hi]

theorem pktParse_absent : exec (.pktParse i) s = .next s := by
  change execPktParse i s = _
  rw [execPktParse, State.parse, hi]

theorem pktHop_absent (bad : Bool) : exec (.pktHop i bad) s = .next s := by
  change execPktHop i bad s = _
  rw [execPktHop, State.hop, hi]

theorem pktAccept_absent : exec (.pktAccept i) s = .next s := by
  change execPktAccept i s = _
  rw [execPktAccept, State.accept, hi, ite_self]

theorem ackReceive_absent : exec (.ackReceive i) s = .next s := by
  change execAckReceive i s = _
  rw [execAckReceive, State.ackReceive, replyAt_absent hi]

theorem nackReceive_absent : exec (.nackReceive i) s = .next s := by
  change execNackReceive i s = _
  rw [execNackReceive, State.nackReceive, replyAt_absent hi]

theorem busyReceive_absent : exec (.busyReceive i) s = .next s := by
  change execBusyReceive i s = _
  rw [execBusyReceive, State.busyReceive, replyAt_absent hi]

theorem dataReceive_absent : exec (.dataReceive i) s = .next s := by
  change execDataReceive i s = _
  rw [execDataReceive, State.dataReceive, replyAt_absent hi]

end Absent

theorem pktHop_off (hoff : s.fabricOff = true) (bad : Bool) : exec (.pktHop i bad) s = .next s := by
  change execPktHop i bad s = _
  rw [execPktHop, State.hop]
  cases s.net[i]? with
  | none => rfl
  | some f => simp only [hoff, if_true]

theorem pktAccept_off (hoff : s.fabricOff = true) : exec (.pktAccept i) s = .next s := by
  change execPktAccept i s = _
  rw [execPktAccept, if_pos hoff]

/-- Settles O38: parsing puts a well-formed packet into the mesh or at the Rim (`pktParse_entersMesh`, `pktParse_entersRim`) and refuses
any other (`pktParse_refuses`); a hop in the mesh goes where `meshNext` says; the Rim sends a frame or refuses. -/
theorem packetsParseAndHop : Obligations.PacketsParseAndHop := by
  unfold Obligations.PacketsParseAndHop
  intro i p s
  refine ⟨fun hi => ⟨pktParse_entersMesh hi, pktParse_entersRim hi, ?malformed⟩, fun x y bad hi hon => ⟨?drop, ?arrive, ?step, ?gateway⟩,
    fun port vc hi hon hdst hhop => ⟨?leave, pktHop_refuses hi hon hdst hhop⟩,
    fun hi => ⟨pktParse_absent hi, pktHop_absent hi, pktAccept_absent hi, ackReceive_absent hi, nackReceive_absent hi,
      busyReceive_absent hi, dataReceive_absent hi⟩, fun bad hoff => ⟨pktHop_off hoff bad, pktAccept_off hoff⟩⟩
  case malformed =>
    intro code hform hreq
    obtain ⟨q, hq, answer⟩ := refuseRoute_answers (s := parseDrops s i p) hreq code
    exact ⟨_, pktParse_refuses hi hform hreq, q, by rw [hq, parseDrops_net], answer⟩
  case drop =>
    rintro rfl
    exact ⟨_, pktHop_drops hi hon, routerCount_net ..⟩
  case arrive =>
    rintro rfl hvc hxy
    exact ⟨_, pktHop_moves hi hon, by simp only [meshNext, hvc, hxy, if_true]⟩
  case step =>
    rintro rfl hvc hxy
    exact ⟨_, pktHop_moves hi hon, by simp only [meshNext, hvc, hxy, if_true, if_false]⟩
  case gateway =>
    rintro rfl hvc hxy
    exact ⟨_, pktHop_moves hi hon, by simp only [meshNext, hvc, ← hxy, if_true, if_false]⟩
  case leave =>
    intro hopen hgo
    exact ⟨_, pktHop_leaves hi hon hdst hhop hopen hgo, sendFrame_net .., sendFrame_sends ..⟩

end Sys2Proof.Proofs
end

section
/-! PROOFS. Host-link ports: their loss, PERST_N and their training (R342, R343, R362, R366, R446, R523), and the SPDM responder of a
transport (R366 to R368). -/

open Sys2Proof Sys2Proof.Machine Sys2Proof.Claims Sys2Proof.Laws

namespace Sys2Proof.Proofs

/-- A change of every entry that keeps the default of absent ones changes what each key reads. -/
theorem tget_map {α : Type} {d : α} (g : α → α) (hd : g d = d) (t : Tbl α) (k : Nat) :
    tget d (t.map (fun e => (e.1, g e.2))) k = g (tget d t k) := by
  induction t with
  | nil => exact hd.symm
  | cons e t ih =>
    simp only [List.map_cons, tget]
    split
    · rfl
    · exact ih

variable {s : State} {p : Nat}

/-! A report changes nothing on the host link (R406) -/

@[simp] theorem report_hl (r : Report) : (s.report r).hl = s.hl := by unfold State.report; split <;> rfl
@[simp] theorem report_spdm (r : Report) : (s.report r).spdm = s.spdm := by unfold State.report; split <;> rfl
@[simp] theorem report_rings (r : Report) : (s.report r).rings = s.rings := by unfold State.report; split <;> rfl
@[simp] theorem report_hlp (r : Report) (j : Nat) : (s.report r).hlp j = s.hlp j := by simp [State.hlp]

/-! The loss of a port (R343, R362) -/

/-- A port down: no rate, no lanes and no IDE; PERST_N and the rest of its registers stay. -/
def portDown (h : HlPort) : HlPort := { h with st := 0, rate := 0, lanes := 0, ideKeys := [], ideOn := false }

/-- A ring whose port `p` is lost: each of its commands ends as `HCmd.portLost` says. -/
def ringLost (p : Nat) (r : Ring) : Ring := if r.port = p then { r with cmds := r.cmds.map HCmd.portLost } else r

/-- An unused ring has no command that the loss of its port could end. -/
theorem ringLost_unused (p : Nat) : ringLost p {} = {} := ite_self _

theorem hlDown_hl : (s.hlDown p).hl = tput s.hl p (portDown (s.hlp p)) := by
  unfold State.hlDown
  dsimp only
  split
  · exact report_hl _
  · rfl

theorem hlDown_spdm : (s.hlDown p).spdm = tdel s.spdm p := by
  unfold State.hlDown
  dsimp only
  split
  · exact report_spdm _
  · rfl

theorem hlDown_rings : (s.hlDown p).rings = s.rings.map (fun e => (e.1, ringLost p e.2)) := by
  unfold State.hlDown
  dsimp only
  split
  · exact report_rings _
  · rfl

@[simp] theorem hlDown_hlp_same : (s.hlDown p).hlp p = portDown (s.hlp p) := by
  rw [State.hlp, hlDown_hl, tget_tput_same]

theorem hlDown_hlp_ne {q : Nat} (h : q ≠ p) : (s.hlDown p).hlp q = s.hlp q := by
  rw [State.hlp, hlDown_hl, tget_tput_ne _ _ _ h, State.hlp]

/-- The transport over a lost port starts anew. -/
theorem hlDown_spdmOf : (s.hlDown p).spdmOf p = {} := by
  rw [State.spdmOf, hlDown_spdm, tget_tdel_same]

theorem hlDown_ring (f : Nat) : (s.hlDown p).ring f = ringLost p (s.ring f) := by
  rw [State.ring, hlDown_rings, tget_map _ (ringLost_unused p), State.ring]

/-- A command whose operands name units of the part runs its effect. -/
theorem onUnit_next {ok : Bool} (h : ok = true) (t : State) : onUnit ok t = .next t := by rw [h, onUnit_true]

section Port

variable (hp : isHl p = true)
include hp

theorem hlPortDown_downs : exec (.hlPortDown p) s = .next (s.hlDown p) := onUnit_next hp _

/-! PERST_N (R523) -/

theorem perstAssert_resets : Gives (.perstAssert p) s (fun t =>
    (t.hlp p).st = 0 ∧ (t.hlp p).perst = true ∧ (t.hlp p).dwSel = 0 ∧ (t.hlp p).ideKeys = []) := by
  refine ⟨_, onUnit_next hp _, ?_⟩
  dsimp only
  rw [State.hlp_setHlp_same, hlDown_hlp_same]
  exact ⟨rfl, rfl, rfl, rfl⟩

theorem perstRelease_trains (h : (s.hlp p).perst = true) :
    exec (.perstRelease p) s = .next (s.setHlp p { s.hlp p with perst := false, st := 1 }) :=
  (onUnit_next hp _).trans (congrArg _ (if_pos h))

/-- PERST_N is not asserted: the event changes nothing (log entry 11). -/
theorem perstRelease_idle (h : (s.hlp p).perst = false) : exec (.perstRelease p) s = .next s :=
  (onUnit_next hp _).trans (congrArg _ (if_neg (by simp [h])))

/-! Training (R342, R366, R446) -/

section Train

variable {rate lanes : Nat} (hr : rate < 6) (hl : lanes = 1 ∨ lanes = 2 ∨ lanes = 4 ∨ lanes = 8 ∨ lanes = 16)
include hr hl

theorem hlLinkTrained_trains (flit : Bool) : exec (.hlLinkTrained p rate lanes flit) s = .next (s.hlTrained p rate lanes flit) := by
  have hlanes : [1, 2, 4, 8, 16].contains lanes = true := by simpa using hl
  exact onUnit_next (by rw [hp, hlanes, decide_eq_true hr]; rfl) _

variable (hout : (s.hlp p).perst = false)
include hout

theorem hlLinkTrained_comesUp : exec (.hlLinkTrained p rate lanes true) s = .next (s.setHlp p { s.hlp p with
    st := 2, rate := rate, lanes := lanes, ideReq := bit (s.obj 0 0x2810 1 0) 0, refSrc := decide (s.obj 0 0x2300 9 0 = 1) }) := by
  have hlanes : lanes % 32 = lanes := Nat.mod_eq_of_lt (by omega)
  rw [hlLinkTrained_trains hp hr hl, State.hlTrained]
  simp only [hout, Nat.mod_eq_of_lt hr, hlanes, Bool.false_eq_true, if_true, if_false]

theorem hlLinkTrained_carriesNothing :
    Gives (.hlLinkTrained p rate lanes false) s (fun t => (t.hlp p).st = 3 ∧ t.hlCarries p = false) := by
  refine ⟨_, hlLinkTrained_trains hp hr hl false, ?_⟩
  have hst : ((s.hlTrained p rate lanes false).hlp p).st = 3 := by simp [State.hlTrained, hout]
  exact ⟨hst, by simp [State.hlCarries, hst]⟩

end Train

/-! IDE keys (R366) -/

section Key

variable {ks sub : Nat} (hks : ks < 2) (hsub : sub < 3)
include hks hsub

theorem ideKeyProg_stores (h : (s.spdmOf p).session = true) (key : List Byte) : exec (.ideKeyProg p ks sub key) s =
    .next (s.setHlp p { s.hlp p with ideKeys := tput (s.hlp p).ideKeys (ks * 3 + sub) key }) :=
  (onUnit_next (by simp [hp, hks, hsub]) _).trans (congrArg _ (if_pos h))

theorem ideKeyProg_ignored (h : (s.spdmOf p).session = false) (key : List Byte) : exec (.ideKeyProg p ks sub key) s = .next s :=
  (onUnit_next (by simp [hp, hks, hsub]) _).trans (congrArg _ (if_neg (by simp [h])))

end Key

end Port

/-! The SPDM responder (R367, R368) -/

/-- What the responder answers on transport `t`: a co-signature only of a response that it signed, and else what the request asks. -/
def spdmReply (s : State) (t : Nat) (req : List Byte) (cosign : Bool) : List Byte :=
  if cosign then (match (s.spdmOf t).signed with | some tr => Config.spdmCosign tr | none => Config.spdmUnexpected)
  else Config.spdmAnswer s.fresh s.measurements.flatten req

/-- A go or a stop of the key sets concerns the port alone. -/
theorem ideGoStop_keeps (t : Nat) (req : List Byte) :
    (s.ideGoStop t req).spdm = s.spdm ∧ (s.ideGoStop t req).outs = s.outs := by
  unfold State.ideGoStop
  split
  · exact ⟨rfl, rfl⟩
  dsimp only
  split
  · split <;> exact ⟨rfl, rfl⟩
  · split <;> exact ⟨rfl, rfl⟩

section Responder

variable (t : Nat) (req : List Byte) (cosign : Bool)

theorem spdmTake_outs : (s.spdmTake t req cosign).outs = .spdm t (spdmReply s t req cosign) :: s.outs := by
  unfold State.spdmTake
  dsimp only
  split
  · exact congrArg _ (ideGoStop_keeps ..).2
  · rfl

/-- The transport after an answer: it counts one more, and no co-signature leaves a signed response behind. -/
theorem spdmTake_spdmOf : ((s.spdmTake t req cosign).spdmOf t).count = (s.spdmOf t).count + 1
    ∧ (cosign = true → ((s.spdmTake t req cosign).spdmOf t).signed = none) := by
  unfold State.spdmTake State.spdmOf
  dsimp only
  split
  all_goals
    simp only [State.out_spdm, ideGoStop_keeps, State.setSpdm, tget_tput_same, true_and]
    exact fun h => if_pos h

end Responder

/-- A request over a port is answered while the firmware runs and the link is up (R367). -/
theorem spdmVia_port_up (hp : isHl p = true) (hfw : s.boot.fw = true) (hst : (s.hlp p).st = 2 ∨ (s.hlp p).st = 3)
    (req : List Byte) (cosign : Bool) : s.spdmVia p req cosign = s.spdmTake p req cosign := by
  have hport : ¬ 2 ≤ p := by simpa [isHl] using hp
  rw [State.spdmVia, if_neg hport, if_pos (by simp [hfw, hst])]

theorem spdmVia_port_off (hp : isHl p = true) (hfw : s.boot.fw = false) (req : List Byte) (cosign : Bool) :
    s.spdmVia p req cosign = s := by
  have hport : ¬ 2 ≤ p := by simpa [isHl] using hp
  rw [State.spdmVia, if_neg hport, if_neg (by simp [hfw])]

/-- A port is one of the three transports. -/
theorem isTransport_of_isHl (hp : isHl p = true) : decide (p < 3) = true := by
  have hport : p < 2 := by simpa [isHl] using hp
  exact decide_eq_true (by omega)

theorem spdmRequest_port (hp : isHl p = true) (req : List Byte) :
    exec (.spdmRequest p req) s = .next (s.spdmVia p req (Config.spdmIsCosign req)) :=
  onUnit_next (isTransport_of_isHl hp) _

theorem spdmCosign_port (hp : isHl p = true) : exec (.spdmCosign p) s = .next (s.spdmVia p [] true) :=
  onUnit_next (isTransport_of_isHl hp) _

/-- Over the Management Port a request is a write of `SPDM_REQ`, of 4,096 bytes at most (R367). -/
theorem spdmRequest_mgmt_tooLong (h : domWritable .mgmt 0x2850 1 s) {req : List Byte} (hlen : 4096 < req.length) :
    exec (.spdmRequest 2 req) s = refuses .mgmt 0x2850 1 badLength s := by
  change onUnit true (s.domAnswer .mgmt 0x2850 1 _) = _
  rw [onUnit_true, dom_refused h (if_pos hlen)]
  rfl

/-- Settles O46: the loss of a port by the laws of `State.hlDown`, which the assertion of PERST_N shares; keys and training by the
session and the state of the port; an answer by those of `State.spdmTake`, whether it is asked for or co-signed. -/
theorem hostLinkPorts : Obligations.HostLinkPorts := by
  unfold Obligations.HostLinkPorts
  intro p s hp
  refine ⟨⟨_, hlPortDown_downs hp, ?lost⟩, perstAssert_resets hp, perstRelease_trains hp, perstRelease_idle hp,
    fun rate lanes hr hl hout => ⟨hlLinkTrained_comesUp hp hr hl hout, hlLinkTrained_carriesNothing hp hr hl hout⟩,
    fun ks sub key hks hsub => ⟨(ideKeyProg_stores hp hks hsub · key), (ideKeyProg_ignored hp hks hsub · key)⟩,
    fun req hfw hst => ⟨⟨_, spdmRequest_port hp req, ?answered⟩, ⟨_, spdmCosign_port hp, ?cosigned⟩⟩, ?off,
    fun hw req hlen => spdmRequest_mgmt_tooLong hw hlen⟩
  case lost =>
    dsimp only
    rw [hlDown_hlp_same, hlDown_spdmOf]
    exact ⟨rfl, rfl, rfl, rfl, rfl, fun q hq => hlDown_hlp_ne hq, hlDown_ring⟩
  case answered =>
    rw [spdmVia_port_up hp hfw hst]
    refine ⟨(spdmTake_spdmOf ..).1, _, spdmTake_outs .., fun hreq => ?_⟩
    rw [spdmReply, hreq, if_neg Bool.false_ne_true]
  case cosigned =>
    rw [spdmVia_port_up hp hfw hst]
    exact ⟨(spdmTake_spdmOf ..).2 rfl, spdmTake_outs ..⟩
  case off =>
    intro req hfw
    rw [spdmRequest_port hp, spdmCosign_port hp, spdmVia_port_off hp hfw, spdmVia_port_off hp hfw]
    exact ⟨rfl, rfl⟩

end Sys2Proof.Proofs
end

section
/-! PROOFS. The state after reset (R352, R449, R498). -/

open Sys2Proof Sys2Proof.Machine Sys2Proof.Claims

namespace Sys2Proof.Proofs

/-! Every table is empty, so every part is at its default -/

@[simp] theorem reset_ctx (n : Nat) : State.reset.ctx n = {} := rfl
@[simp] theorem reset_comb (c : Nat) : State.reset.comb c = {} := rfl
@[simp] theorem reset_area (c : Nat) : State.reset.area c = {} := rfl
@[simp] theorem reset_slot (u : SlotRef) : State.reset.slot u = {} := rfl
@[simp] theorem reset_ring (f : Nat) : State.reset.ring f = {} := rfl

/-- A slot that does not run issues nothing (R162). -/
theorem canIssue_stopped {s : State} {u : SlotRef} (h : (s.slot u).running = false) : s.canIssue u = false := by
  change (s.worker u.comb u.cell |>.slot u.slot).running = false at h
  simp only [State.canIssue, h, Bool.false_and]

/-- Settles O58: each part by its default, the oscillators and the switch of references by evaluation. -/
theorem resetState : Obligations.ResetState := by
  have slots (u : SlotRef) : (State.reset.slot u).running = false := by rw [reset_slot]
  have references : refsOk State.reset.refs := by decide
  exact ⟨rfl, rfl, rfl, rfl, rfl, references, rfl, rfl, fun n => by rw [reset_ctx]; exact ⟨rfl, rfl⟩,
    fun c => by rw [reset_area, reset_comb]; exact ⟨rfl, rfl⟩, fun u => ⟨slots u, canIssue_stopped (slots u)⟩,
    fun f => congrArg Ring.en (reset_ring f), rfl, rfl, rfl⟩

end Sys2Proof.Proofs
end

section
/-! PROOFS. The references' invariant (R443 to R445): what each operation of the model leaves of the references, in the order of the model's
files. All but a few leave them alone, and those few keep the invariant. Here: the state, the dictionary's accesses, contexts and Combs. -/

open Sys2Proof Sys2Proof.Machine Sys2Proof.Claims Sys2Proof.Laws

namespace Sys2Proof.Proofs

@[simp] theorem foldl_refs {α : Type} {f : State → α → State} (h : ∀ s a, (f s a).refs = s.refs) (l : List α) (s : State) :
    (l.foldl f s).refs = s.refs := by
  induction l generalizing s with
  | nil => rfl
  | cons a l ih => rw [List.foldl_cons, ih, h]

@[simp] theorem ite_refs (c : Prop) [Decidable c] (a b : State) : (if c then a else b).refs = if c then a.refs else b.refs :=
  apply_ite State.refs c a b

theorem refs_ite {c : Prop} [Decidable c] {a b s : State} (ha : a.refs = s.refs) (hb : b.refs = s.refs) :
    (if c then a else b).refs = s.refs := by
  split
  · exact ha
  · exact hb

@[simp] theorem inImage_refs (s : State) (k c : Nat) {f : State → State} (h : ∀ s, (f s).refs = s.refs) :
    (s.inImage k c f).refs = s.refs := by
  unfold State.inImage
  dsimp only
  split <;> simp [h]

@[simp] theorem forWaiter_refs (s : State) (m : Master) (id : Nat) {f : State → State} (h : ∀ s, (f s).refs = s.refs) :
    (s.forWaiter m id f).refs = s.refs := by
  unfold State.forWaiter
  split <;> simp [h]

/-! Operations of Machine/Ops -/

@[simp] theorem setComb_refs (s : State) (c : Nat) (v : Comb) : (s.setComb c v).refs = s.refs := rfl
@[simp] theorem setArea_refs (s : State) (c : Nat) (v : Area) : (s.setArea c v).refs = s.refs := rfl
@[simp] theorem setWorker_refs (s : State) (c k : Nat) (w : Worker) : (s.setWorker c k w).refs = s.refs := rfl
@[simp] theorem setStore_refs (s : State) (c k : Nat) (w : StoreCell) : (s.setStore c k w).refs = s.refs := rfl
@[simp] theorem setEng_refs (s : State) (c : Nat) (e : Engine) : (s.setEng c e).refs = s.refs := rfl
@[simp] theorem setForager_refs (s : State) (c f : Nat) (v : Forager) : (s.setForager c f v).refs = s.refs := rfl
@[simp] theorem setSlot_refs (s : State) (u : SlotRef) (v : WSlot) : (s.setSlot u v).refs = s.refs := rfl
@[simp] theorem setCtx_refs (s : State) (n : Nat) (v : Ctx) : (s.setCtx n v).refs = s.refs := rfl
@[simp] theorem setRing_refs (s : State) (f : Nat) (v : Ring) : (s.setRing f v).refs = s.refs := rfl
@[simp] theorem setPort_refs (s : State) (p : Nat) (v : TyPort) : (s.setPort p v).refs = s.refs := rfl
@[simp] theorem setHlp_refs (s : State) (p : Nat) (v : HlPort) : (s.setHlp p v).refs = s.refs := rfl
@[simp] theorem setFrame_refs (s : State) (f : Nat) (v : Frame) : (s.setFrame f v).refs = s.refs := rfl
@[simp] theorem setConv_refs (s : State) (k : Nat) (v : Conv) : (s.setConv k v).refs = s.refs := rfl
@[simp] theorem setPin_refs (s : State) (n : Nat) (v : Pin) : (s.setPin n v).refs = s.refs := rfl
@[simp] theorem out_refs (s : State) (o : OutMsg) : (s.out o).refs = s.refs := rfl
@[simp] theorem draw_refs (s : State) : s.draw.2.refs = s.refs := rfl
@[simp] theorem drawBool_refs (s : State) : s.drawBool.2.refs = s.refs := rfl
@[simp] theorem drawChoice_refs (s : State) (n : Nat) : (s.drawChoice n).2.refs = s.refs := rfl
@[simp] theorem newId_refs (s : State) : s.newId.2.refs = s.refs := rfl

/-! Operations of Machine/Access -/

@[simp] theorem setObj_refs (s : State) (i idx sub : Nat) (v : Nat) : (s.setObj i idx sub v).refs = s.refs := rfl
@[simp] theorem incObj_refs (s : State) (idx sub w n : Nat) : (s.incObj idx sub w n).refs = s.refs := rfl
@[simp] theorem setDom_refs (s : State) (i idx sub : Nat) (b : List Byte) : (s.setDom i idx sub b).refs = s.refs := rfl

@[simp] theorem loseSegments_refs (s : State) (c : Nat) : (s.loseSegments c).refs = s.refs := by
  unfold State.loseSegments
  refine foldl_refs (fun s d => ?_) _ s
  split <;> rfl

@[simp] theorem report_refs (s : State) (r : Report) : (s.report r).refs = s.refs := by simp [State.report]

@[simp] theorem cperAdd_refs (s : State) (r : Report) (phase action sev : Nat) (boot : Bool) :
    (s.cperAdd r phase action sev boot).refs = s.refs := by simp [State.cperAdd]

@[simp] theorem combReport_refs (s : State) (code : W16) (sev unit c sub : Nat) (addr : W64) :
    (s.combReport code sev unit c sub addr).refs = s.refs := by simp [State.combReport]

@[simp] theorem event_refs (s : State) (n : Option Nat) (code : W16) (c m : Nat) (res : W64) : (s.event n code c m res).refs = s.refs := rfl

@[simp] theorem failEpochs_refs (s : State) (n : Option Nat) (es : Nat → Bool) (code : W16) : (s.failEpochs n es code).refs = s.refs := by
  unfold State.failEpochs
  split <;> simp

@[simp] theorem failParity_refs (s : State) (n : Option Nat) (b : Bool) (code : W16) :
    (s.failParity n b code).refs = s.refs := by simp [State.failParity]

@[simp] theorem trace_refs (s : State) (c kind unit index arg : Nat) : (s.trace c kind unit index arg).refs = s.refs := by
  unfold State.trace
  split <;> simp

@[simp] theorem setAreaOf_refs (s : State) (n c : Nat) (a : Area) : (s.setAreaOf n c a).refs = s.refs := by simp [State.setAreaOf]

@[simp] theorem narrowClash_refs (s : State) (n c off : Nat) : (s.narrowClash n c off).2.refs = s.refs := by
  unfold State.narrowClash
  dsimp only
  (repeat' split) <;> simp

@[simp] theorem setAreaAt_refs (s : State) (n : Option Nat) (c : Nat) (a : Area) : (s.setAreaAt n c a).refs = s.refs := by
  unfold State.setAreaAt
  split <;> simp

@[simp] theorem found0_refs (s : State) (n : Option Nat) (c : Nat) (ls : List Nat) (sc : PMem × List Nat) :
    (s.found0 n c ls sc).refs = s.refs := by simp [State.found0]

@[simp] theorem readSpace0_refs (s : State) (n : Option Nat) (c off len : Nat) : (s.readSpace0 n c off len).2.refs = s.refs := by
  unfold State.readSpace0
  dsimp only
  (repeat' split) <;> simp

@[simp] theorem store0_refs (s : State) (n : Option Nat) (c off : Nat) (bs : List Byte) (ep : Bool) : (s.store0 n c off bs ep).1.refs = s.refs := by
  unfold State.store0
  split <;> simp

@[simp] theorem narrow0_refs (s : State) (n : Option Nat) (c off : Nat) (bs : List Byte) (ep : Bool) :
    (s.narrow0 n c off bs ep).1.refs = s.refs := by
  unfold State.narrow0
  dsimp only
  (repeat' split) <;> simp

@[simp] theorem found2_refs (s : State) (c : Nat) (sc : PMem × List Nat × List Nat) : (s.found2 c sc).refs = s.refs := by simp [State.found2]
@[simp] theorem readSpace2_refs (s : State) (c off len : Nat) : (s.readSpace2 c off len).2.refs = s.refs := by simp [State.readSpace2]

@[simp] theorem setPmem_refs (s : State) (n : Option Nat) (c space : Nat) (m : PMem) :
    (s.setPmem n c space m).refs = s.refs := by simp [State.setPmem]

@[simp] theorem performRead_refs (s : State) (n : Option Nat) (c space off len : Nat) (vs : List Nat) :
    (s.performRead n c space off len vs).2.refs = s.refs := by
  unfold State.performRead
  dsimp only
  (repeat' split) <;> simp

@[simp] theorem store2_refs (s : State) (c off : Nat) (bs : List Byte) (ep : Bool) :
    (s.store2 c off bs ep).1.refs = s.refs := by simp [State.store2]

@[simp] theorem performWrite_refs (s : State) (n : Option Nat) (c space off : Nat) (bs : List Byte) (ep : Bool) :
    (s.performWrite n c space off bs ep).1.refs = s.refs := by
  unfold State.performWrite
  (repeat' split) <;> simp

@[simp] theorem writeIssued_refs (s : State) (n : Option Nat) (ep : Bool) : (s.writeIssued n ep).refs = s.refs := by
  unfold State.writeIssued
  split <;> simp

@[simp] theorem writeDone_refs (s : State) (n : Option Nat) (ep : Bool) : (s.writeDone n ep).refs = s.refs := by
  unfold State.writeDone
  split <;> simp

@[simp] theorem passAdd_refs (s : State) (c : Nat) (o : CtrOp) : (s.passAdd c o).refs = s.refs := rfl

@[simp] theorem sampled_refs (s : State) (c : Nat) (p : Pkt) : (s.sampled c p).2.refs = s.refs := by
  unfold State.sampled
  dsimp only
  (repeat' split) <;> simp

@[simp] theorem sendPkt_refs (s : State) (m : Master) (p : Pkt) : (s.sendPkt m p).refs = s.refs := by
  unfold State.sendPkt
  dsimp only
  split <;> simp

@[simp] theorem reply_refs (s : State) (c : Nat) (p : Pkt) (ptype seq off : Nat) (status : W16) (payload : List Byte) :
    (s.reply c p ptype seq off status payload).refs = s.refs := rfl

@[simp] theorem completeOk_refs (s : State) (m : Master) (id : Nat) : (s.completeOk m id).refs = s.refs := by
  unfold State.completeOk
  refine forWaiter_refs s m id (fun s => ?_)
  cases m <;> rfl

/-! Operations of Machine/CellCore -/

@[simp] theorem slotStop_refs (s : State) (u : SlotRef) (code : W16) (pc : Nat) : (s.slotStop u code pc).refs = s.refs := by simp [State.slotStop]
@[simp] theorem deschedule_refs (s : State) (u : SlotRef) (c : Wait) : (s.deschedule u c).refs = s.refs := rfl
@[simp] theorem issued_refs (s : State) (u : SlotRef) : (s.issued u).refs = s.refs := rfl

/-! Operations of Machine/Dict -/

@[simp] theorem refused_refs (s : State) (p : Path) (idx sub : Nat) (r : Refuse) : (s.refused p idx sub r).refs = s.refs := by simp [State.refused]

@[simp] theorem unanswered_refs (s : State) (p : Path) : (s.unanswered p).refs = s.refs := by
  unfold State.unanswered
  split <;> simp

@[simp] theorem storeObj_refs (s : State) (p : Path) (idx sub : Nat) (v : W64) : (s.storeObj p idx sub v).refs = s.refs := rfl

/-! Operations of Machine/EngReg -/

/-! Dictionary accesses: what holds of the references before and is kept by the object's effect holds after the access. -/

section
variable {P : Refs → Prop} {s : State}

theorem objPut_keeps {eff : Eff} (he : ∀ s : State, P s.refs → P (eff s).2.refs) (h : P s.refs) (p : Path) (idx sub : Nat) (v : W64) :
    P (s.objPut p idx sub v eff).2.refs := by
  unfold State.objPut
  grind [refused_refs]

theorem domPut_keeps {eff : Eff} (he : ∀ s : State, P s.refs → P (eff s).2.refs) (h : P s.refs) (p : Path) (idx sub : Nat) :
    P (s.domPut p idx sub eff).2.refs := by
  unfold State.domPut
  grind [refused_refs]

theorem objGet_keeps {rd : Rd} (hr : ∀ s : State, P s.refs → P (rd s).2.refs) (h : P s.refs) (p : Path) (idx sub : Nat) :
    P (s.objGet p idx sub rd).2.refs := by
  unfold State.objGet
  grind [refused_refs]

theorem writeAnswer_keeps {eff : Eff} (he : ∀ s : State, P s.refs → P (eff s).2.refs) (h : P s.refs) (p : Path) (idx sub : Nat) (v : W64) :
    P (s.writeAnswer p idx sub v eff).refs := by
  unfold State.writeAnswer
  split
  · rwa [unanswered_refs]
  · exact objPut_keeps he h p idx sub v

theorem domAnswer_keeps {eff : Eff} (he : ∀ s : State, P s.refs → P (eff s).2.refs) (h : P s.refs) (p : Path) (idx sub : Nat) :
    P (s.domAnswer p idx sub eff).refs := by
  unfold State.domAnswer
  split
  · rwa [unanswered_refs]
  · exact domPut_keeps he h p idx sub

theorem readAnswer_keeps {rd : Rd} (hr : ∀ s : State, P s.refs → P (rd s).2.refs) (h : P s.refs) (p : Path) (idx sub : Nat) :
    P (s.readAnswer p idx sub rd).refs := by
  have hg := objGet_keeps hr h p idx sub
  unfold State.readAnswer
  grind [unanswered_refs, out_refs]

end

@[simp] theorem engPortWrite_refs (s : State) (n : Option Nat) (c i : Nat) (ws : List W32) : (s.engPortWrite n c i ws).refs = s.refs := by
  unfold State.engPortWrite
  dsimp only
  split <;> simp

@[simp] theorem gqPublish_refs (s : State) (c : Nat) : (s.gqPublish c).refs = s.refs := by simp [State.gqPublish]

/-! Operations of Machine/EngWalk -/

theorem wideVerify_refs (s : State) (c : Nat) (bs : List Nat) : (s.wideVerify c bs).2.refs = s.refs := by
  induction bs generalizing s with
  | nil => rfl
  | cons b t ih =>
    unfold State.wideVerify
    dsimp only
    (repeat' split) <;> simp [ih]

@[simp] theorem wideRead_refs (s : State) (c sl : Nat) (rs : List (Nat × Nat)) : (s.wideRead c sl rs).2.refs = s.refs := by
  unfold State.wideRead
  dsimp only
  (repeat' split) <;> simp [wideVerify_refs]

@[simp] theorem writeCrec_refs (s : State) (c v status : Nat) (fault : W16) (r : Run) (f : FPos) :
    (s.writeCrec c v status fault r f).refs = s.refs := by simp [State.writeCrec]

@[simp] theorem clauseFault_refs (s : State) (c sl status : Nat) (code : W16) (v : Nat) (f : FPos) :
    (s.clauseFault c sl status code v f).refs = s.refs := by simp [State.clauseFault]

@[simp] theorem havocScratch_refs (s : State) (c v need : Nat) : (s.havocScratch c v need).refs = s.refs := by simp [State.havocScratch]

/-! Operations of Machine/Lifecycle -/

@[simp] theorem onAreas_refs (s : State) (n : Nat) (f : Nat → Area → Area) : (s.onAreas n f).refs = s.refs := by simp [State.onAreas]

@[simp] theorem onCombs_refs (s : State) (n : Nat) (f : Comb → Comb) : (s.onCombs n f).refs = s.refs := by
  unfold State.onCombs
  exact foldl_refs (fun s c => setComb_refs s c _) _ s

@[simp] theorem dropDigests_refs (s : State) (n : Nat) (f : Forager) : (s.dropDigests n f).refs = s.refs := by simp [State.dropDigests]
@[simp] theorem dropAllDigests_refs (s : State) (n : Nat) : (s.dropAllDigests n).refs = s.refs := by simp [State.dropAllDigests]
@[simp] theorem stopCtx_refs (s : State) (n : Nat) : (s.stopCtx n).refs = s.refs := by simp [State.stopCtx]
@[simp] theorem launchCtx_refs (s : State) (n : Nat) : (s.launchCtx n).refs = s.refs := by simp [State.launchCtx]

@[simp] theorem zeroCapacity_refs (s : State) (n : Nat) : (s.zeroCapacity n).refs = s.refs := by
  unfold State.zeroCapacity
  dsimp only
  refine (foldl_refs (fun s e => foldl_refs (fun s g => ?_) _ s) _ _).trans (onCombs_refs s n _)
  exact setComb_refs s _ _

@[simp] theorem zeroAreas_refs (s : State) (n : Nat) (keepPair : Bool) : (s.zeroAreas n keepPair).refs = s.refs := by simp [State.zeroAreas]
@[simp] theorem failAll_refs (s : State) (n : Nat) (code : W16) : (s.failAll n code).refs = s.refs := rfl
@[simp] theorem destroyStart_refs (s : State) (n : Nat) : (s.destroyStart n).refs = s.refs := by simp [State.destroyStart]

@[simp] theorem destroyEnd_refs (s : State) (n : Nat) : (s.destroyEnd n).refs = s.refs := by
  unfold State.destroyEnd
  rw [setCtx_refs, foldl_refs (fun s i => by split <;> simp), setObj_refs, foldl_refs (fun s q => setRing_refs s _ _)]
  simp

@[simp] theorem setFrozen_refs (s : State) (n : Option Nat) (m : Master) (b : Bool) : (s.setFrozen n m b).refs = s.refs := by
  unfold State.setFrozen
  split <;> simp

@[simp] theorem freeze_refs (s : State) (m : Master) (code : W16) (addr : W64) : (s.freeze m code addr).refs = s.refs := by
  unfold State.freeze
  dsimp only
  (repeat' split) <;> simp

@[simp] theorem releaseMaster_refs (s : State) (n : Option Nat) (m : Master) : (s.releaseMaster n m).refs = s.refs := by
  unfold State.releaseMaster
  (repeat' split) <;> simp

@[simp] theorem releaseEntry_refs (s : State) (n : Option Nat) (i : Nat) : (s.releaseEntry n i).refs = s.refs := by
  unfold State.releaseEntry
  dsimp only
  (repeat' split) <;> simp

@[simp] theorem releaseAll_refs (s : State) (n : Nat) : (s.releaseAll n).refs = s.refs := by simp [State.releaseAll]
@[simp] theorem destroyAll_refs (s : State) (code : W16) : (s.destroyAll code).refs = s.refs := by simp [State.destroyAll]
@[simp] theorem destroyAllEnd_refs (s : State) : s.destroyAllEnd.refs = s.refs := by simp [State.destroyAllEnd]

/-! Operations of Machine/CellSys -/

@[simp] theorem newReq_refs (s : State) : s.newReq.2.refs = s.refs := rfl
@[simp] theorem setPortsOf_refs (s : State) (c k : Nat) (p : Ports) : (s.setPortsOf c k p).refs = s.refs := rfl

@[simp] theorem putWord_refs (s : State) (c k d : Nat) (v : W64) : (s.putWord c k d v).refs = s.refs := by
  unfold State.putWord
  split <;> simp

@[simp] theorem popWord_refs (s : State) (c k d : Nat) : (s.popWord c k d).refs = s.refs := by
  unfold State.popWord
  split <;> simp

@[simp] theorem loadReg_refs (s : State) (c i : Nat) (wide : Bool) : (s.loadReg c i wide).2.refs = s.refs := by
  unfold State.loadReg
  split <;> simp

@[simp] theorem landLocal_refs (s : State) (c k : Nat) (p : Pkt) : (s.landLocal c k p).refs = s.refs := rfl

/-! Operations of Machine/EngRun -/

@[simp] theorem readDescs_refs (s : State) (n : Option Nat) (c v k : Nat) : (s.readDescs n c v k).2.refs = s.refs := by
  induction k with
  | zero => rfl
  | succ i ih =>
    unfold State.readDescs
    grind [readSpace0_refs]

@[simp] theorem clauseBegin_refs (s : State) (c sl : Nat) : (s.clauseBegin c sl).refs = s.refs := by
  unfold State.clauseBegin
  grind [setEng_refs, readSpace0_refs, clauseFault_refs, readDescs_refs, trace_refs]

@[simp] theorem tileOpen_refs (s : State) (c sl : Nat) (r : Run) (ge : Geo) (ps : List (Nat × Nat × Nat)) :
    (s.tileOpen c sl r ge ps).refs = s.refs := by simp [State.tileOpen]

@[simp] theorem tileFault_refs {s0 s : State} (h : s.refs = s0.refs) (c sl : Nat) (code : W16) (kc : Nat) :
    (s0.tileFault s c sl code kc).refs = s0.refs := by
  unfold State.tileFault
  split <;> simp [h]

@[simp] theorem tileCheck_refs {s0 s : State} (h : s.refs = s0.refs) (c sl : Nat) (r : Run) (ge : Geo) (first : Bool) :
    (s0.tileCheck s c sl r ge first).refs = s0.refs := by
  unfold State.tileCheck
  grind [setEng_refs, tileFault_refs, event_refs, wideRead_refs, tileOpen_refs]

@[simp] theorem tileStart_refs (s : State) (c : Nat) : (s.tileStart c).refs = s.refs := by
  unfold State.tileStart
  grind [setEng_refs, readSpace0_refs, tileFault_refs, tileCheck_refs]

@[simp] theorem shadowLoad_refs (s : State) (c : Nat) : (s.shadowLoad c).refs = s.refs := by
  unfold State.shadowLoad
  dsimp only
  (repeat' split) <;> grind [setEng_refs, wideRead_refs, tileFault_refs]

@[simp] theorem actRead_refs (s : State) (c sl : Nat) (tile : List WElem) : (s.actRead c sl tile).refs = s.refs := by
  unfold State.actRead
  grind [setArea_refs, wideRead_refs, tileFault_refs]

@[simp] theorem activation_refs (s : State) (c : Nat) : (s.activation c).refs = s.refs := by
  unfold State.activation
  dsimp only
  split <;> simp

@[simp] theorem swapTiles_refs (s : State) (c : Nat) : (s.swapTiles c).refs = s.refs := by
  unfold State.swapTiles
  dsimp only
  split <;> simp

@[simp] theorem kmnStart_refs (s : State) (c : Nat) : (s.kmnStart c).refs = s.refs := by
  unfold State.kmnStart
  dsimp only
  split <;> simp

@[simp] theorem bankDrain_refs (s : State) (c : Nat) : (s.bankDrain c).refs = s.refs := by
  unfold State.bankDrain
  dsimp only
  split <;> simp

@[simp] theorem segFault_refs (s : State) (c sl : Nat) (code : W16) (g : Seg) : (s.segFault c sl code g).refs = s.refs := by simp [State.segFault]
@[simp] theorem pairMismatch_refs (s : State) (c sl : Nat) (g : Seg) : (s.pairMismatch c sl g).refs = s.refs := by simp [State.pairMismatch]

@[simp] theorem segToMem_refs (s : State) (c sl : Nat) (r : Run) (g : Seg) : (s.segToMem c sl r g).1.refs = s.refs := by
  unfold State.segToMem
  grind [setArea_refs, setEng_refs, drawChoice_refs, store0_refs, setPmem_refs]

@[simp] theorem emitSeg_refs (s : State) (c : Nat) : (s.emitSeg c).refs = s.refs := by
  unfold State.emitSeg
  grind [setArea_refs, setEng_refs, segFault_refs, pairMismatch_refs, segToMem_refs]

@[simp] theorem clauseEnd_refs (s : State) (c : Nat) : (s.clauseEnd c).refs = s.refs := by
  unfold State.clauseEnd
  dsimp only
  split <;> simp

@[simp] theorem fallbackEng_refs (s : State) (c : Nat) : (s.fallbackEng c).refs = s.refs := by
  unfold State.fallbackEng
  dsimp only
  split <;> simp

@[simp] theorem enterFallback_refs (s : State) (c : Nat) : (s.enterFallback c).refs = s.refs := by simp [State.enterFallback]

@[simp] theorem fallbackStep_refs (s : State) (c : Nat) : (s.fallbackStep c).refs = s.refs := by
  unfold State.fallbackStep
  dsimp only
  (repeat' split) <;> simp

/-! Operations of Machine/Store -/

@[simp] theorem storeStop_refs (s : State) (c k i : Nat) (code : W16) (head : Bool) :
    (s.storeStop c k i code head).refs = s.refs := by simp [State.storeStop]

@[simp] theorem accessFault_refs (s : State) (u : SlotRef) (id pc : Nat) (code : W16) :
    (s.accessFault u id pc code).refs = s.refs := by simp [State.accessFault]

@[simp] theorem genDone_refs (s : State) (c k g i d : Nat) : (s.genDone c k g i d).refs = s.refs := by simp [State.genDone]
@[simp] theorem genMoved_refs (s : State) (c k g i d : Nat) : (s.genMoved c k g i d).refs = s.refs := by simp [State.genMoved]

@[simp] theorem ctwTake_refs (s : State) (c k i kind : Nat) : (s.ctwTake c k i kind).refs = s.refs := by
  unfold State.ctwTake
  dsimp only
  split <;> simp

end Sys2Proof.Proofs
end

section
/-! PROOFS. The references' invariant: packets, memory, ordering, ports and rings leave the references alone. -/

open Sys2Proof Sys2Proof.Machine Sys2Proof.Claims Sys2Proof.Laws

namespace Sys2Proof.Proofs

/-! Operations of Machine/Stream -/

@[simp] theorem rxAck_refs (s : State) (r : RxStream) : (s.rxAck r).refs = s.refs := rfl
@[simp] theorem rxSet_refs (s : State) (i : Nat) (r : RxStream) : (s.rxSet i r).refs = s.refs := by simp [State.rxSet]

@[simp] theorem rxDone_refs (s : State) (c : Nat) (p : Pkt) : (s.rxDone c p).refs = s.refs := by
  unfold State.rxDone
  (repeat' split) <;> simp

@[simp] theorem rxHalt_refs (s : State) (c : Nat) (p : Pkt) (code : W16) : (s.rxHalt c p code).refs = s.refs := by
  unfold State.rxHalt
  dsimp only
  (repeat' split) <;> simp

@[simp] theorem completeErr_refs (s : State) (m : Master) (id : Nat) (code : W16) (c : Nat) : (s.completeErr m id code c).refs = s.refs := by
  unfold State.completeErr
  refine forWaiter_refs s m id (fun s => ?_)
  grind [accessFault_refs, setForager_refs, setRing_refs]

@[simp] theorem pktPerformed_refs (s : State) (m : Master) (p : Pkt) : (s.pktPerformed m p).refs = s.refs := by
  unfold State.pktPerformed
  refine forWaiter_refs s m p.reqId (fun s => ?_)
  grind [writeDone_refs, completeOk_refs]

@[simp] theorem forget_refs (s : State) (m : Master) (ids : List Nat) : (s.forget m ids).refs = s.refs := by simp [State.forget]

@[simp] theorem txClose_refs (s : State) (i : Nat) : (s.txClose i).refs = s.refs := by
  unfold State.txClose
  split <;> simp

@[simp] theorem txAck_refs (s : State) (i seq perf : Nat) : (s.txAck i seq perf).refs = s.refs := by
  unfold State.txAck
  split <;> simp

@[simp] theorem txReopen_refs (s : State) (i : Nat) (ps : List Pkt) : (s.txReopen i ps).refs = s.refs := by
  unfold State.txReopen
  split <;> simp

@[simp] theorem txHalt_refs (s : State) (i hs : Nat) (code : W16) : (s.txHalt i hs code).refs = s.refs := by
  unfold State.txHalt
  (repeat' split) <;> simp

@[simp] theorem resend_refs (s : State) (p : Pkt) : (s.resend p).refs = s.refs := rfl

/-! Operations of Machine/Fabric -/

@[simp] theorem routerCount_refs (s : State) (c : Nat) (p : Pkt) (ix n : Nat) :
    (s.routerCount c p ix n).refs = s.refs := by simp [State.routerCount]

@[simp] theorem sendFrame_refs (s : State) (p kind net vcn : Nat) (body : List Byte) : (s.sendFrame p kind net vcn body).refs = s.refs := rfl
@[simp] theorem sendPause_refs (s : State) (p ch quanta : Nat) : (s.sendPause p ch quanta).refs = s.refs := rfl

@[simp] theorem roomBack_refs (s : State) (i : Option (Nat × Nat)) : (s.roomBack i).refs = s.refs := by
  unfold State.roomBack
  split
  · rfl
  · dsimp only
    split <;> simp

@[simp] theorem parse_refs (s : State) (i : Nat) : (s.parse i).refs = s.refs := by
  unfold State.parse
  grind [roomBack_refs, routerCount_refs]

@[simp] theorem refuseRoute_refs (s : State) (p : Pkt) (code : W16) : (s.refuseRoute p code).refs = s.refs := by simp [State.refuseRoute]

@[simp] theorem hop_refs (s : State) (i : Nat) (bad : Bool) : (s.hop i bad).refs = s.refs := by
  unfold State.hop
  grind [roomBack_refs, routerCount_refs, refuseRoute_refs, sendFrame_refs]

@[simp] theorem ackReceive_refs (s : State) (i : Nat) : (s.ackReceive i).refs = s.refs := by
  unfold State.ackReceive
  dsimp only
  (repeat' split) <;> simp

@[simp] theorem nackReceive_refs (s : State) (i : Nat) : (s.nackReceive i).refs = s.refs := by
  unfold State.nackReceive
  dsimp only
  (repeat' split) <;> simp

@[simp] theorem busyReceive_refs (s : State) (i : Nat) : (s.busyReceive i).refs = s.refs := by
  unfold State.busyReceive
  dsimp only
  (repeat' split) <;> simp

@[simp] theorem txVoid_refs (s : State) (k : Nat) : (s.txVoid k).refs = s.refs := by
  unfold State.txVoid
  (repeat' split) <;> simp

@[simp] theorem retxTimeout_refs (s : State) (k : Nat) : (s.retxTimeout k).refs = s.refs := by
  unfold State.retxTimeout
  split
  · rfl
  split
  · split <;> simp
  · refine refs_ite ((foldl_refs (fun s q => ?_) _ _).trans rfl) (refs_ite (resend_refs _ _) (txVoid_refs s k))
    exact resend_refs s q

@[simp] theorem fcChange_refs (s : State) (l : Nat) : (s.fcChange l).refs = s.refs := by simp [State.fcChange]

/-! Operations of Machine/Accept -/

@[simp] theorem peerRefused_refs (s : State) (c : Nat) (p : Pkt) : (s.peerRefused c p).refs = s.refs := by simp [State.peerRefused]

@[simp] theorem reduceLine_refs (s : State) (n : Option Nat) (c : Nat) (fp32 ep : Bool) (a : Nat) (bs : List Byte) :
    (s.reduceLine n c fp32 ep a bs).1.refs = s.refs := by
  unfold State.reduceLine
  grind [readSpace0_refs, performWrite_refs]

@[simp] theorem reduceLines_refs (s : State) (n : Option Nat) (c : Nat) (fp32 ep : Bool) (l : List (Nat × List Byte)) :
    (s.reduceLines n c fp32 ep l).1.refs = s.refs := by
  induction l generalizing s with
  | nil => rfl
  | cons x t ih =>
    unfold State.reduceLines
    split <;> grind [reduceLine_refs]

@[simp] theorem arrival_refs (s : State) (c : Nat) (n : Option Nat) (p : Pkt) : (s.arrival c n p).refs = s.refs := by simp [State.arrival]

@[simp] theorem halves_refs (s : State) (n : Option Nat) (c : Nat) (p : Pkt) : (s.halves n c p).refs = s.refs := by
  unfold State.halves
  (repeat' split) <;> simp

@[simp] theorem tracedIn_refs (s : State) (c : Nat) (p : Pkt) : (s.tracedIn c p).refs = s.refs := by
  unfold State.tracedIn
  split <;> simp

/-- The references of every state that a taken packet leaves. -/
def TakeKeeps (r : Refs) : Take → Prop
  | .wait | .busy => True
  | .refuse _ t | .done t | .pend t => t.refs = r

theorem landStaged_refs (s : State) (n : Option Nat) (c : Nat) (p : Pkt) : TakeKeeps s.refs (s.landStaged n c p) := by
  unfold State.landStaged
  grind [TakeKeeps, performWrite_refs, setAreaAt_refs]

theorem TakeKeeps.of_refs {s t : State} {r : Take} (h : TakeKeeps t.refs r) (e : t.refs = s.refs) : TakeKeeps s.refs r := e ▸ h

theorem landFirst_refs (s : State) (n : Option Nat) (c : Nat) (p : Pkt) : TakeKeeps s.refs (s.landFirst n c p) := by
  unfold State.landFirst
  dsimp only
  split
  · rfl
  split
  · rfl
  split
  · exact performWrite_refs s n c 0 _ _ _
  · exact (landStaged_refs _ n c p).of_refs ((setAreaAt_refs _ n c _).trans (performWrite_refs s n c 0 _ _ _))

theorem landWrite_refs (s : State) (n : Option Nat) (c : Nat) (p : Pkt) (live : Bool) : TakeKeeps s.refs (s.landWrite n c p live) := by
  unfold State.landWrite
  grind [TakeKeeps, landFirst_refs, landStaged_refs, performWrite_refs, arrival_refs, halves_refs]

theorem landReduce_refs (s : State) (n : Option Nat) (c : Nat) (p : Pkt) (live : Bool) : TakeKeeps s.refs (s.landReduce n c p live) := by
  unfold State.landReduce
  grind [TakeKeeps, landFirst_refs, landStaged_refs, setArea_refs, arrival_refs, reduceLines_refs]

theorem serveRead_refs (s : State) (n : Option Nat) (c : Nat) (p : Pkt) (live : Bool) : TakeKeeps s.refs (s.serveRead n c p live) := by
  unfold State.serveRead
  grind [TakeKeeps, reply_refs, draw_refs, performRead_refs]

theorem landPkt_refs (s : State) (c : Nat) (p : Pkt) (live : Bool) : TakeKeeps s.refs (s.landPkt c p live) := by
  unfold State.landPkt
  grind [TakeKeeps, setComb_refs]

theorem TakeKeeps.ite {c : Prop} [Decidable c] {r : Refs} {a b : Take} (ha : TakeKeeps r a) (hb : TakeKeeps r b) :
    TakeKeeps r (if c then a else b) := by
  split
  · exact ha
  · exact hb
theorem takePkt_refs (s : State) (c : Nat) (p : Pkt) (buf : Bool) : TakeKeeps s.refs (s.takePkt c p buf) := by
  unfold State.takePkt
  refine .ite rfl (.ite rfl ?_)
  split
  · rename_i code _
    show State.refs (if _ then _ else _) = _
    split <;> simp
  · refine .ite rfl <| .ite rfl <| .ite trivial <| .ite rfl <| .ite rfl <| .ite ?_ <| .ite ?_ ?_
    · exact .ite trivial (.ite rfl trivial)
    · exact .ite rfl trivial
    · split
      · exact landPkt_refs s c p _
      · exact landPkt_refs s c p _
      · exact landPkt_refs s c p _
      · exact .ite rfl rfl
      · exact .ite (.ite trivial trivial) <| .ite (landWrite_refs s _ c p _) <| .ite (landReduce_refs s _ c p _) <|
          .ite (serveRead_refs s _ c p _) (setAreaAt_refs s _ c _)

@[simp] theorem acceptOne_refs (s : State) (i c : Nat) (p : Pkt) : (s.acceptOne i c p).2.refs = s.refs := by
  unfold State.acceptOne
  lift_lets
  extract_lets accepted s0
  have h0 : s0.refs = s.refs := by
    simp only [s0]
    (repeat' split) <;> rfl
  clear_value s0
  grind [TakeKeeps, takePkt_refs, rxSet_refs, tracedIn_refs, reply_refs, rxHalt_refs, rxDone_refs]

@[simp] theorem nackFor_refs (s : State) (c : Nat) (p : Pkt) (seq : Nat) : (s.nackFor c p seq).refs = s.refs := rfl

@[simp] theorem acceptHeld_refs (s : State) (i c fuel : Nat) : (s.acceptHeld i c fuel).refs = s.refs := by
  induction fuel generalizing s with
  | zero => rfl
  | succ n ih =>
    unfold State.acceptHeld
    grind [acceptOne_refs]

@[simp] theorem dupAnswer_refs (s : State) (c : Nat) (p : Pkt) (r : RxStream) : (s.dupAnswer c p r).refs = s.refs := by
  unfold State.dupAnswer
  grind [TakeKeeps, serveRead_refs, rxAck_refs]

@[simp] theorem acceptIn_refs (s : State) (k i c : Nat) (p : Pkt) (r : RxStream) : (s.acceptIn k i c p r).refs = s.refs := by
  unfold State.acceptIn
  grind [acceptOne_refs, acceptHeld_refs, rxAck_refs, dupAnswer_refs, nackFor_refs]

@[simp] theorem accept_refs (s : State) (k : Nat) : (s.accept k).refs = s.refs := by
  unfold State.accept
  dsimp only
  (repeat' split) <;> simp

@[simp] theorem swDrain_refs (s : State) (c : Nat) : (s.swDrain c).refs = s.refs := by
  unfold State.swDrain
  grind [TakeKeeps, takePkt_refs, setComb_refs, rxHalt_refs, rxDone_refs]

/-! Operations of Machine/Can -/

@[simp] theorem canOut_refs (s : State) (cob : Nat) (bytes : List Byte) : (s.canOut cob bytes).refs = s.refs := by simp [State.canOut]
@[simp] theorem canTo_refs (s : State) (b cob : Nat) (bytes : List Byte) : (s.canTo b cob bytes).refs = s.refs := by simp [State.canTo]
@[simp] theorem commReset_refs (s : State) : s.commReset.refs = s.refs := by simp [State.commReset]
@[simp] theorem sdoOut_refs (s : State) (b : Nat) (l : List Byte) : (s.sdoOut b l).refs = s.refs := by simp [State.sdoOut]
@[simp] theorem sdoAbort_refs (s : State) (b idx sub : Nat) (code : W32) : (s.sdoAbort b idx sub code).refs = s.refs := by simp [State.sdoAbort]

/-! Operations of Machine/Deliver -/

@[simp] theorem landDone_refs (s : State) (c : Nat) (l : Land) : (s.landDone c l).refs = s.refs := by simp [State.landDone]
@[simp] theorem landFail_refs (s : State) (c : Nat) (l : Land) (code : W16) : (s.landFail c l code).refs = s.refs := by simp [State.landFail]

@[simp] theorem deliver_refs (s : State) (c : Nat) (l : Land) : (s.deliver c l).refs = s.refs := by
  unfold State.deliver
  dsimp only
  (repeat' split) <;> simp

@[simp] theorem msgDeliver_refs (s : State) (c k : Nat) : (s.msgDeliver c k).refs = s.refs := by
  unfold State.msgDeliver
  dsimp only
  split <;> simp

@[simp] theorem spillDeliver_refs (s : State) (c : Nat) : (s.spillDeliver c).refs = s.refs := by
  unfold State.spillDeliver
  dsimp only
  (repeat' split) <;> simp

@[simp] theorem satFault_refs (s : State) (c : Nat) (o : CtrOp) : (s.satFault c o).refs = s.refs := by
  unfold State.satFault
  (repeat' split) <;> simp

@[simp] theorem addDone_refs (s : State) (c : Nat) (o : CtrOp) : (s.addDone c o).refs = s.refs := by
  unfold State.addDone
  (repeat' split) <;> simp

@[simp] theorem applyAdd_refs (s : State) (c : Nat) (o : CtrOp) : (s.applyAdd c o).refs = s.refs := by simp [State.applyAdd]

@[simp] theorem counterAdd_refs (s : State) (c : Nat) : (s.counterAdd c).refs = s.refs := by
  unfold State.counterAdd
  dsimp only
  split <;> simp

@[simp] theorem watchRegister_refs (s : State) (c : Nat) : (s.watchRegister c).refs = s.refs := by
  unfold State.watchRegister
  dsimp only
  (repeat' split) <;> simp

@[simp] theorem sendWake_refs (s : State) (c : Nat) (w : Watch) (st : W16) : (s.sendWake c w st).refs = s.refs := rfl

@[simp] theorem watchWake_refs (s : State) (c k : Nat) : (s.watchWake c k).refs = s.refs := by
  unfold State.watchWake
  dsimp only
  (repeat' split) <;> simp

@[simp] theorem wakeAcked_refs (s : State) (c k : Nat) : (s.wakeAcked c k).refs = s.refs := by
  unfold State.wakeAcked
  dsimp only
  (repeat' split) <;> simp

@[simp] theorem reduceStep_refs (s : State) (c : Nat) : (s.reduceStep c).refs = s.refs := by
  unfold State.reduceStep
  dsimp only
  (repeat' split) <;> simp

@[simp] theorem opFill_refs (s : State) (n : Option Nat) (c d len : Nat) (pat : W32) : (s.opFill n c d len pat).1.refs = s.refs := by
  unfold State.opFill
  dsimp only
  (repeat' split) <;> simp

@[simp] theorem copyLines_refs (s : State) (n : Option Nat) (c a d : Nat) (vs ls : List Nat) (len : Nat) :
    (s.copyLines n c a d vs ls len).1.refs = s.refs := by
  induction ls generalizing s with
  | nil => rfl
  | cons l t ih =>
    unfold State.copyLines
    grind [performRead_refs, narrow0_refs]

@[simp] theorem opCopy_refs (s : State) (n : Option Nat) (c a d len : Nat) : (s.opCopy n c a d len).1.refs = s.refs := by
  unfold State.opCopy
  dsimp only
  (repeat' split) <;> simp

@[simp] theorem opRun_refs (s : State) (c : Nat) (isFill : Bool) : (s.opRun c isFill).refs = s.refs := by
  unfold State.opRun
  dsimp only
  (repeat' split) <;> simp

@[simp] theorem opDone_refs (s : State) (c : Nat) : (s.opDone c).refs = s.refs := by
  unfold State.opDone
  dsimp only
  (repeat' split) <;> simp

@[simp] theorem applyPayload_refs (s : State) (n : Option Nat) (c : Nat) (k : Claim) (p : Pkt) (bs : List Byte) :
    (s.applyPayload n c k p bs).1.refs = s.refs := by
  unfold State.applyPayload
  split <;> simp

@[simp] theorem freeBytes_refs (s : State) (c a k : Nat) : (s.freeBytes c a k).refs = s.refs := by
  induction k generalizing s with
  | zero => rfl
  | succ k ih =>
    unfold State.freeBytes
    simp [ih]

@[simp] theorem digestCheck_refs (s : State) (c : Nat) : (s.digestCheck c).refs = s.refs := by
  unfold State.digestCheck
  dsimp only
  split
  · rfl
  split
  · split
    · grind [setArea_refs, performRead_refs, rxHalt_refs, applyPayload_refs, arrival_refs, rxDone_refs]
    · simp
  · simp

@[simp] theorem dwEff_refs (p : Path) (n : Nat) (v : W64) (s : State) : (dwEff p n v s).2.refs = s.refs := by
  unfold dwEff
  dsimp only
  split <;> simp

/-! Operations of Machine/Arbiter -/

@[simp] theorem maintResult_refs (s : State) (ticket st code : Nat) : (s.maintResult ticket st code).refs = s.refs := rfl

@[simp] theorem maintAsk_refs (s : State) (m : Maint) : (s.maintAsk m).2.refs = s.refs := by
  unfold State.maintAsk
  dsimp only
  split <;> simp

@[simp] theorem maintOwn_refs (s : State) (cls scope : Nat) (ctx : Option Nat) : (s.maintOwn cls scope ctx).refs = s.refs := by
  unfold State.maintOwn
  grind [maintResult_refs, maintAsk_refs]

@[simp] theorem maintEnd_refs (s : State) (ticket : Nat) : (s.maintEnd ticket).refs = s.refs := rfl
@[simp] theorem maintKick_refs (s : State) : s.maintKick.refs = s.refs := rfl

@[simp] theorem maintAbort_refs (s : State) (c : Nat) : (s.maintAbort c).refs = s.refs := by
  unfold State.maintAbort
  refine foldl_refs (fun s e => ?_) _ _
  dsimp only
  split
  · exact (setObj_refs _ _ _ _ _).trans (maintResult_refs s _ _ _)
  · exact maintResult_refs s _ _ _

/-! Operations of Machine/MemWafer -/

@[simp] theorem scrubBlock_refs (s : State) (c b : Nat) : (s.scrubBlock c b).refs = s.refs := by
  unfold State.scrubBlock
  dsimp only
  (repeat' split) <;> simp

@[simp] theorem scrubAt_refs (s : State) (c l : Nat) : (s.scrubAt c l).refs = s.refs := by simp [State.scrubAt]
@[simp] theorem scrubLine_refs (s : State) (c ch : Nat) : (s.scrubLine c ch).refs = s.refs := by simp [State.scrubLine]
@[simp] theorem scrubPass_refs (s : State) (c : Nat) : (s.scrubPass c).refs = s.refs := by simp [State.scrubPass]
@[simp] theorem mwFrame_refs (s : State) (c ch : Nat) (demand : List (Nat × Nat)) : (s.mwFrame c ch demand).refs = s.refs := by simp [State.mwFrame]

theorem foldl_snd_refs {α β : Type} {f : β × State → α → β × State} (h : ∀ x a, (f x a).2.refs = x.2.refs) (l : List α) (x : β × State) :
    (l.foldl f x).2.refs = x.2.refs := by
  induction l generalizing x with
  | nil => rfl
  | cons a l ih => rw [List.foldl_cons, ih, h]

@[simp] theorem placeSaves_refs (s : State) (n c size b : Nat) : (s.placeSaves n c size b).refs = s.refs := by
  unfold State.placeSaves
  refine (foldl_snd_refs (fun x k => ?_) _ _).trans rfl
  exact setCtx_refs _ _ _

@[simp] theorem mwResEff_refs (n : Nat) (v : W64) (s : State) : (mwResEff n v s).2.refs = s.refs := by
  unfold mwResEff
  dsimp only
  (repeat' split) <;> simp

@[simp] theorem granulesFilled_refs (s : State) (n : Nat) : (s.granulesFilled n).refs = s.refs := by
  unfold State.granulesFilled
  dsimp only
  split <;> simp

@[simp] theorem rowSpare_refs (s : State) (c ch bank row : Nat) : (s.rowSpare c ch bank row).refs = s.refs := by simp [State.rowSpare]

@[simp] theorem laneRetrain_refs (s : State) (c ch lane : Nat) (pass : Bool) :
    (s.laneRetrain c ch lane pass).refs = s.refs := by simp [State.laneRetrain]

@[simp] theorem resetStart_refs (s : State) (n c line : Nat) (code : W16) : (s.resetStart n c line code).refs = s.refs := by simp [State.resetStart]

@[simp] theorem lineLost_refs (s : State) (c line : Nat) (scrub : Bool) : (s.lineLost c line scrub).refs = s.refs := by
  unfold State.lineLost
  dsimp only
  split <;> simp

@[simp] theorem resetDone_refs (s : State) (n : Nat) : (s.resetDone n).refs = s.refs := by simp [State.resetDone]

/-! Operations of Machine/Order -/

@[simp] theorem stepSyncOut_refs (s : State) (n : Nat) : (s.stepSyncOut n).refs = s.refs := by
  unfold State.stepSyncOut
  dsimp only
  split
  · rfl
  · refine (foldl_refs (fun s k => ?_) _ _).trans rfl
    exact (out_refs _ _).trans (setPin_refs s k _)

@[simp] theorem fenceEnd_refs (s : State) (f : Fence) (n : Nat) (st : Nat) (code : W16) : (s.fenceEnd f n st code).refs = s.refs := rfl

@[simp] theorem fenceAccept_refs (s : State) (n : Nat) : (s.fenceAccept n).refs = s.refs := by
  unfold State.fenceAccept
  dsimp only
  split <;> simp

@[simp] theorem fenceComplete_refs (s : State) (n : Nat) : (s.fenceComplete n).refs = s.refs := by
  unfold State.fenceComplete
  dsimp only
  split <;> simp

@[simp] theorem fenceFail_refs (s : State) (n : Nat) (code : W16) : (s.fenceFail n code).refs = s.refs := by
  unfold State.fenceFail
  dsimp only
  split <;> simp

@[simp] theorem rewindEff_refs (n : Nat) (v : W64) (s : State) : (rewindEff n v s).2.refs = s.refs := by
  unfold rewindEff
  dsimp only
  (repeat' split) <;> simp

/-! Operations of Machine/Tyduem -/

@[simp] theorem portReport_refs (s : State) (code : W16) (sev p lane : Nat) :
    (s.portReport code sev p lane).refs = s.refs := by simp [State.portReport]

@[simp] theorem portDown_refs (s : State) (p : Nat) : (s.portDown p).refs = s.refs := by simp [State.portDown]
@[simp] theorem sendKeeper_refs (s : State) (p kind : Nat) (ws : List W64) : (s.sendKeeper p kind ws).refs = s.refs := rfl

@[simp] theorem sendKx_refs (s : State) (p kind : Nat) (msg : List Byte) : (s.sendKx p kind msg).refs = s.refs := by
  unfold State.sendKx
  refine foldl_refs (fun s b => ?_) _ s
  exact sendKeeper_refs s _ _ _

@[simp] theorem kxStart_refs (s : State) (p : Nat) : (s.kxStart p).refs = s.refs := by simp [State.kxStart]
@[simp] theorem kxFail_refs (s : State) (p : Nat) (code : W16) : (s.kxFail p code).refs = s.refs := by simp [State.kxFail]

@[simp] theorem kxInstall_refs (s : State) (p : Nat) (leads : Bool) (msgs : List Byte) :
    (s.kxInstall p leads msgs).refs = s.refs := by simp [State.kxInstall]

@[simp] theorem kxTake_refs (s : State) (p k : Nat) (msg : List Byte) : (s.kxTake p k msg).refs = s.refs := by simp [State.kxTake]
@[simp] theorem kxWords_refs (s : State) (p k : Nat) (ws : List W64) : (s.kxWords p k ws).refs = s.refs := by simp [State.kxWords]

@[simp] theorem rekey_refs (s : State) (p : Nat) : (s.rekey p).refs = s.refs := by
  unfold State.rekey
  dsimp only
  (repeat' split) <;> simp

@[simp] theorem pauseWordIn_refs (s : State) (p : Nat) (w : Nat) : (s.pauseWordIn p w).refs = s.refs := rfl
@[simp] theorem pauseIfShort_refs (s : State) (p ch : Nat) : (s.pauseIfShort p ch).refs = s.refs := by simp [State.pauseIfShort]
@[simp] theorem laneCheck_refs (s : State) (p : Nat) : (s.laneCheck p).refs = s.refs := by simp [State.laneCheck]
@[simp] theorem sendLane_refs (s : State) (p type lane : Nat) : (s.sendLane p type lane).refs = s.refs := rfl
@[simp] theorem laneAsk_refs (s : State) (p : Nat) (r : Nat × Nat) : (s.laneAsk p r).refs = s.refs := rfl

@[simp] theorem laneAgain_refs (s : State) (p : Nat) : (s.laneAgain p).refs = s.refs := by
  unfold State.laneAgain
  dsimp only
  split <;> simp

@[simp] theorem laneApply_refs (s : State) (p lane type : Nat) (lead : Bool) : (s.laneApply p lane type lead).refs = s.refs :=
  (laneAgain_refs _ p).trans ((laneCheck_refs _ p).trans (setPort_refs s p _))

@[simp] theorem laneWordIn_refs (s : State) (p w : Nat) : (s.laneWordIn p w).refs = s.refs := by
  unfold State.laneWordIn
  dsimp only
  (repeat' split) <;> simp

@[simp] theorem laneStart_refs (s : State) (p lane : Nat) : (s.laneStart p lane).refs = s.refs := by
  unfold State.laneStart
  dsimp only
  (repeat' split) <;> simp

@[simp] theorem laneTrained_refs (s : State) (p lane : Nat) (pass : Bool) : (s.laneTrained p lane pass).refs = s.refs := by
  unfold State.laneTrained
  dsimp only
  split <;> simp

@[simp] theorem tyCtlEff_refs (p : Path) (q : Nat) (v : W64) (s : State) : (tyCtlEff p q v s).2.refs = s.refs := rfl

@[simp] theorem freezeAsked_refs (s : State) (src : Nat) (m : Master) (code : W16) :
    (s.freezeAsked src m code).refs = s.refs := by simp [State.freezeAsked]

@[simp] theorem badFrame_refs (s : State) (p : Nat) (tag : Bool) : (s.badFrame p tag).refs = s.refs := by simp [State.badFrame]

@[simp] theorem frameBody_refs (s : State) (p : Nat) (h : Nat) (body : List Byte) : (s.frameBody p h body).refs = s.refs := by
  unfold State.frameBody
  dsimp only
  (repeat' split) <;> simp

@[simp] theorem frameIn_refs (s : State) (p : Nat) (bs : List Byte) : (s.frameIn p bs).refs = s.refs := by
  unfold State.frameIn
  dsimp only
  (repeat' split) <;> simp

/-! Operations of Machine/Rings -/

@[simp] theorem ringConfig_refs (s : State) (f w : Nat) (v : W64) : (s.ringConfig f w v).refs = s.refs := by simp [State.ringConfig]
@[simp] theorem sqDoorbell_refs (s : State) (f : Nat) (v : W32) : (s.sqDoorbell f v).refs = s.refs := by simp [State.sqDoorbell]
@[simp] theorem cqDoorbell_refs (s : State) (f : Nat) (v : W32) : (s.cqDoorbell f v).refs = s.refs := by simp [State.cqDoorbell]
@[simp] theorem cqWrite_refs (s : State) (f : Nat) (w0 : Nat) (w1 w2 w3 : W64) : (s.cqWrite f w0 w1 w2 w3).refs = s.refs := by simp [State.cqWrite]
@[simp] theorem eventWrite_refs (s : State) (f : Nat) (e : Event) : (s.eventWrite f e).refs = s.refs := by simp [State.eventWrite]

@[simp] theorem eventOut_refs (s : State) (e : Event) : (s.eventOut e).refs = s.refs := by
  unfold State.eventOut
  split <;> simp

@[simp] theorem eventPost_refs (s : State) : s.eventPost.refs = s.refs := by
  unfold State.eventPost
  split <;> simp

@[simp] theorem eventFlush_refs (s : State) : s.eventFlush.refs = s.refs := by simp [State.eventFlush]
@[simp] theorem hlDown_refs (s : State) (p : Nat) : (s.hlDown p).refs = s.refs := by simp [State.hlDown]

@[simp] theorem hlTrained_refs (s : State) (p rate lanes : Nat) (flit : Bool) :
    (s.hlTrained p rate lanes flit).refs = s.refs := by simp [State.hlTrained]

/-! Operations of Machine/Reliability -/

@[simp] theorem emcyAdd_refs (s : State) (r : Report) (entry : Nat) : (s.emcyAdd r entry).refs = s.refs := by simp [State.emcyAdd]
@[simp] theorem relCount_refs (s : State) (r : Report) : (s.relCount r).refs = s.refs := by simp [State.relCount]

@[simp] theorem elogIntake_refs (s : State) : s.elogIntake.refs = s.refs := by
  unfold State.elogIntake
  dsimp only
  (repeat' split) <;> simp

@[simp] theorem elogClearEff_refs  (s : State) : (elogClearEff s).2.refs = s.refs := rfl

@[simp] theorem cperRd_refs  (s : State) : (cperRd s).2.refs = s.refs := by
  unfold cperRd
  split <;> simp

@[simp] theorem combFails_refs (s : State) (c : Nat) : (s.combFails c).refs = s.refs := by
  unfold State.combFails
  dsimp only
  refine refs_ite rfl ((maintAbort_refs _ c).trans (refs_ite ?_ ?_))
  · simp
  · refine (foldl_refs (fun s n => ?_) _ _).trans (by simp)
    exact (failAll_refs _ _ _).trans (event_refs s _ _ _ _ _)

@[simp] theorem combZero_refs (s : State) (c : Nat) : (s.combZero c).refs = s.refs := rfl

@[simp] theorem combLost_refs (s : State) (c : Nat) (phase : Nat) (boot : Bool) : (s.combLost c phase boot).refs = s.refs := by
  unfold State.combLost
  refine (cperAdd_refs _ _ _ _ _ _).trans ((foldl_refs (fun s n => ?_) _ _).trans ((setComb_refs _ _ _).trans (combZero_refs s c)))
  exact event_refs s _ _ _ _ _

@[simp] theorem spareJoin_refs (s : State) (c : Nat) : (s.spareJoin c).refs = s.refs := by simp [State.spareJoin]

@[simp] theorem pbImageEff_refs (img : List Byte) (s : State) : (pbImageEff img s).2.refs = s.refs := by
  unfold pbImageEff
  (repeat' split) <;> simp

@[simp] theorem pbRunEff_refs (v : W64) (s : State) : (pbRunEff v s).2.refs = s.refs := by
  unfold pbRunEff
  grind [setObj_refs, maintAsk_refs, maintResult_refs]

@[simp] theorem defectActs_refs (s : State) (d : Defect) : (s.defectActs d).refs = s.refs := by
  unfold State.defectActs
  split <;> simp

@[simp] theorem pbDone_refs (s : State) (ds : List Defect) : (s.pbDone ds).refs = s.refs := by
  unfold State.pbDone
  dsimp only
  split
  · rfl
  · refine (foldl_refs (fun s d => defectActs_refs s d) _ _).trans ((foldl_refs (fun s f => ?_) _ _).trans ?_)
    · exact setFrame_refs s f _
    · split
      · refine (foldl_refs (fun s c => ?_) _ _).trans ?_
        · exact setComb_refs s c _
        · simp
      · simp

end Sys2Proof.Proofs
end

section
/-! PROOFS. The references' invariant: power and start-up, where the references change (R443 to R446). -/

open Sys2Proof Sys2Proof.Machine Sys2Proof.Claims Sys2Proof.Laws

namespace Sys2Proof.Proofs

/-! Operations of Machine/Power -/

@[simp] theorem powerReport_refs (s : State) (code : W16) (unit sub : Nat) :
    (s.powerReport code unit sub).refs = s.refs := by simp [State.powerReport]

@[simp] theorem gateUnit_refs (s : State) (c kind ix : Nat) : (s.gateUnit c kind ix).refs = s.refs := by
  unfold State.gateUnit
  dsimp only
  split <;> simp

@[simp] theorem wakeUnit_refs (s : State) (c kind ix : Nat) : (s.wakeUnit c kind ix).refs = s.refs := by
  unfold State.wakeUnit
  dsimp only
  split <;> simp

@[simp] theorem traceUngated_refs (s : State) (kind arg : Nat) : (s.traceUngated kind arg).refs = s.refs := by
  unfold State.traceUngated
  refine foldl_refs (fun s c => ?_) _ s
  split
  · rfl
  · split
    · refine foldl_refs (fun s u => ?_) _ s
      exact trace_refs s c kind _ _ arg
    · rfl

@[simp] theorem floorGate_refs (s : State) : s.floorGate.refs = s.refs := by simp [State.floorGate]
@[simp] theorem floorUngate_refs (s : State) : s.floorUngate.refs = s.refs := by simp [State.floorUngate]

@[simp] theorem floorCause_refs (s : State) (b : Nat) (code : Option W16) : (s.floorCause b code).refs = s.refs := by
  unfold State.floorCause
  (repeat' split) <;> simp

@[simp] theorem floorClear_refs (s : State) (b : Nat) : (s.floorClear b).refs = s.refs := rfl
@[simp] theorem floorExit_refs (s : State) : s.floorExit.refs = s.refs := by simp [State.floorExit]
@[simp] theorem alertSettle_refs (s : State) : s.alertSettle.refs = s.refs := by simp [State.alertSettle]

@[simp] theorem convsOff_refs (s : State) (ks : List Nat) : (s.convsOff ks).refs = s.refs := by
  unfold State.convsOff
  refine foldl_refs (fun s k => ?_) ks s
  exact setConv_refs s k _

@[simp] theorem framesOff_refs (s : State) : s.framesOff.refs = s.refs := by simp [State.framesOff]
@[simp] theorem tripNow_refs (s : State) (code : W16) : (s.tripNow code).refs = s.refs := by simp [State.tripNow]
@[simp] theorem tripClear_refs (s : State) (code : W16) : (s.tripClear code).refs = s.refs := rfl
@[simp] theorem startDefaults_refs (s : State) : s.startDefaults.refs = s.refs := rfl
@[simp] theorem rampUp_refs (s : State) (ks : List Nat) : (s.rampUp ks).refs = s.refs := by simp [State.rampUp]

theorem refsOk_of_eq {s t : State} (h : refsOk s.refs) (e : t.refs = s.refs) : refsOk t.refs := e ▸ h

theorem refsOk_ite {c : Prop} [Decidable c] {a b : State} (ha : refsOk a.refs) (hb : refsOk b.refs) : refsOk (if c then a else b).refs := by
  split
  · exact ha
  · exact hb

theorem raiseRails_refs (s : State) : ∃ k, s.raiseRails.refs = { s.refs with rclkNow := k } := by
  exact ⟨(s.rampUp (List.range 8 ++ [104, 105] ++ optStages)).obj 0 0x2300 1 ceilingMHz, by simp [State.raiseRails]⟩

theorem raiseRails_refsOk {s : State} (h : refsOk s.refs) : refsOk s.raiseRails.refs := by
  obtain ⟨k, e⟩ := raiseRails_refs s
  rw [e]
  exact h

theorem raiseBegin_refsOk {s : State} (h : refsOk s.refs) : refsOk s.raiseBegin.refs :=
  refsOk_ite (raiseRails_refsOk h) h

theorem pwrRestartEff_refsOk {s : State} (h : refsOk s.refs) : refsOk (pwrRestartEff s).2.refs := by
  unfold pwrRestartEff
  split
  · exact h
  · exact raiseRails_refsOk (refsOk_of_eq h (startDefaults_refs s))

@[simp] theorem setVin_refs (s : State) (dv : Nat) : (s.setVin dv).refs = s.refs := rfl
@[simp] theorem dark_refs (s : State) : s.dark.refs = {} := rfl

theorem refsOk_default : refsOk {} := by decide

theorem dark_refsOk (s : State) : refsOk s.dark.refs := refsOk_default

@[simp] theorem railLost_refs (s : State) (c : Nat) : (s.railLost c).refs = s.refs := by simp [State.railLost]

theorem stageLost_refsOk {s : State} (h : refsOk s.refs) (k : Nat) (code : W16) : refsOk (s.stageLost k code).refs := by
  unfold State.stageLost
  split
  · refine refsOk_of_eq h ?_
    split
    · exact tripNow_refs s code
    · dsimp only
      refine refs_ite ((alertSettle_refs _).trans (foldl_refs (fun s j => ?_) _ s)) rfl
      exact refs_ite (setConv_refs s j _) rfl
  split
  · refine refsOk_of_eq h ?_
    dsimp only
    split
    · rfl
    · exact (foldl_refs (fun s c => railLost_refs s c) _ _).trans (setFrame_refs s _ _)
  split
  · exact refsOk_of_eq h (by split <;> simp)
  split
  · exact refsOk_of_eq h (by split <;> simp)
  · exact dark_refsOk s

theorem convShort_refsOk {s : State} (h : refsOk s.refs) (k : Nat) : refsOk (s.convShort k).refs := by
  unfold State.convShort
  dsimp only
  split
  · exact h
  split
  · exact stageLost_refsOk (refsOk_of_eq h (by simp)) k _
  · exact stageLost_refsOk (refsOk_of_eq h (by simp)) k _

@[simp] theorem convOn_refs (s : State) (k : Nat) : (s.convOn k).refs = s.refs := by simp [State.convOn]
@[simp] theorem governLanes_refs (s : State) (want : Nat) (up : Bool) : (s.governLanes want up).refs = s.refs := rfl
@[simp] theorem dutyCut_refs (s : State) (f : Nat → Bool) : (s.dutyCut f).refs = s.refs := rfl

@[simp] theorem thrCount_refs (s : State) (want : Nat) : (s.thrCount want).refs = s.refs := by
  unfold State.thrCount
  dsimp only
  rw [incObj_refs]
  refine foldl_refs (fun s i => ?_) _ s
  exact incObj_refs s _ _ _ _

@[simp] theorem throttleTo_refs (s : State) (inp : Nat) (l : Nat × Bool × Nat) : (s.throttleTo inp l).refs = s.refs := by simp [State.throttleTo]

@[simp] theorem governor_refs (s : State) (inp base links mem comp : Nat) :
    (s.governor inp base links mem comp).refs = s.refs := by simp [State.governor]

@[simp] theorem slopeStep_refs (s : State) (r : Nat × Bool) : (s.slopeStep r).2.refs = s.refs := by
  unfold State.slopeStep
  dsimp only
  (repeat' split) <;> simp

@[simp] theorem recalibrate_refs (s : State) (f : Nat) (t : Int) : (s.recalibrate f t).refs = s.refs := by
  unfold State.recalibrate
  split
  · rfl
  · split
    · rfl
    · exact (foldl_refs (fun s x => maintOwn_refs s 1 _ none) _ _).trans (setFrame_refs s f _)

@[simp] theorem thermal_refs (s : State) (tj : List Int) : (s.thermal tj).refs = s.refs := by
  have h0 : ((List.range 48).foldl (fun s f => s.setFrame f { s.frame f with tj := lget 0 tj f }) s).refs = s.refs := by
    refine foldl_refs (fun s f => ?_) _ s
    exact setFrame_refs s f _
  have hr (t : State) : ((List.range 48).foldl (fun s f => s.recalibrate f (lget 0 tj f)) t).refs = t.refs :=
    foldl_refs (fun s f => recalibrate_refs s f _) _ t
  unfold State.thermal
  grind [tripNow_refs, tripClear_refs, floorCause_refs, floorClear_refs]

@[simp] theorem throttle_refs (s : State) (f : Nat) : (s.throttle f).refs = s.refs := by simp [State.throttle]
@[simp] theorem coolant_refs (s : State) (tin tout : Int) (flow dp : Nat) : (s.coolant tin tout flow dp).refs = s.refs := by simp [State.coolant]
@[simp] theorem avs_refs (s : State) (f need : Nat) : (s.avs f need).refs = s.refs := by simp [State.avs]
@[simp] theorem addEnergy_refs (s : State) (slot idx sub fj : Nat) : (s.addEnergy slot idx sub fj).refs = s.refs := rfl

@[simp] theorem energy_refs (s : State) (acts : List Activity) : (s.energy acts).refs = s.refs := by
  unfold State.energy
  extract_lets s1 w s2 s3
  have h1 : s1.refs = s.refs := by
    refine foldl_refs (fun s a => ?_) acts s
    split
    · exact addEnergy_refs s _ _ _ _
    · exact addEnergy_refs s _ _ _ _
  have h2 : s2.refs = s.refs := (addEnergy_refs _ _ _ _ _).trans ((addEnergy_refs _ _ _ _ _).trans h1)
  exact refs_ite h2 ((setObj_refs s2 _ _ _ _).trans h2)

theorem refsOk_switchBegin {r : Refs} (h : refsOk r) (h0 : r.switching = 0) : refsOk { r with switching := 1 } := by
  obtain ⟨-, hs, ha, hb⟩ := h
  refine ⟨by simp, ?_, ha, hb⟩
  simp [hs, h0]

theorem refFailed_refsOk {s : State} (h : refsOk s.refs) : refsOk s.refFailed.refs := by
  unfold State.refFailed
  split
  · exact h
  next h0 =>
    split
    · exact refsOk_switchBegin h (not_not.mp h0)
    · exact refsOk_of_eq h ((tripNow_refs _ _).trans (by split <;> simp))

theorem qualified_refsOk {s : State} (h : refsOk s.refs) : refsOk s.qualified.refs := by
  unfold State.qualified
  refine raiseBegin_refsOk (refsOk_of_eq h ((tripClear_refs _ _).trans (foldl_refs (fun s p => ?_) _ s)))
  split <;> simp

theorem oscWindow_refsOk {s : State} (h : refsOk s.refs) (diff : Int) : refsOk (s.oscWindow diff).refs := by
  have h0 : refsOk (s.setObj 0 0x2300 5 (twos 32 diff)).refs := h
  obtain ⟨hsw, hstop, ha, hb⟩ := h
  unfold State.oscWindow
  refine refsOk_ite h0 (refsOk_ite (refsOk_ite (qualified_refsOk ?_) ?_) (refsOk_ite ?_ h0))
  · exact ⟨hsw, hstop, by simp, by simp⟩
  · exact ⟨hsw, hstop, ha, hb⟩
  · exact ⟨hsw, hstop, ha, hb⟩

theorem arbitrate_refsOk {s : State} (h : refsOk s.refs) (a b : Int) : refsOk (s.arbitrate a b).refs := by
  unfold State.arbitrate
  split
  · exact h
  have hd : refsOk (if a.natAbs = b.natAbs then s.drawBool else (decide (a.natAbs < b.natAbs), s)).2.refs := by
    split <;> exact h
  dsimp only
  generalize (if a.natAbs = b.natAbs then s.drawBool else (decide (a.natAbs < b.natAbs), s)) = d at hd ⊢
  obtain ⟨hsw, hstop, -, -⟩ := hd
  have h1 : (if d.1 then 1 else 2) ≤ 2 := by split <;> simp
  have h2 : (if d.1 then 2 else 1) ≤ 2 := by split <;> simp
  refine refsOk_ite (refsOk_ite ?_ (refFailed_refsOk ?_)) (refsOk_ite (qualified_refsOk ?_) (refsOk_ite (refFailed_refsOk ?_) ?_))
  · refine refsOk_of_eq (s := { d.2 with refs := _ }) ?_ (powerReport_refs _ _ _ _)
    exact ⟨hsw, hstop, by simp, by simp⟩
  · exact ⟨hsw, hstop, by simp, by simp⟩
  · exact ⟨hsw, hstop, h1, h2⟩
  · exact ⟨hsw, hstop, h1, h2⟩
  · exact ⟨hsw, hstop, h1, h2⟩

theorem refEdgeLoss_refsOk {s t : State} (h : refsOk s.refs) (e : execRefEdgeLoss s = .next t) : refsOk t.refs := by
  obtain ⟨hsw, hstop, ha, hb⟩ := h
  cases e
  refine refsOk_ite ⟨hsw, hstop, ha, hb⟩ (refFailed_refsOk (refsOk_of_eq (s := { s with refs := _ }) ?_ (powerReport_refs _ _ _ _)))
  dsimp only
  split
  · exact ⟨hsw, hstop, ha, by simp⟩
  · exact ⟨hsw, hstop, by simp, hb⟩

theorem refSwitchStart_refsOk {s t : State} (h : refsOk s.refs) (e : execRefSwitchStart s = .next t) : refsOk t.refs := by
  obtain ⟨hsw, hstop, ha, hb⟩ := h
  unfold execRefSwitchStart at e
  by_cases h1 : s.refs.switching = 1
  · rw [if_pos h1] at e
    cases e
    refine refsOk_of_eq ?_ (floorGate_refs _)
    exact ⟨by simp, by simp [hstop, h1], ha, hb⟩
  · rw [if_neg h1] at e
    cases e
    exact ⟨hsw, hstop, ha, hb⟩

theorem refSwitchStop_refsOk {s t : State} (h : refsOk s.refs) (e : execRefSwitchStop s = .next t) : refsOk t.refs := by
  cases e
  refine refsOk_ite ?_ h
  obtain ⟨-, -, ha, hb⟩ := h
  exact ⟨by simp, by simp, ha, hb⟩

/-- Step 3 of R443: TS jumps and the clocks run on the other reference. -/
def refRestarted (s : State) : State :=
  { s with ts := s.ts + 4096, refs := { s.refs with switching := 0, stopped := false, inUse := !s.refs.inUse } }

/-- What the restart counts, reports and traces. -/
def refRestartNoted (s : State) : State :=
  (((s.incObj 0x2300 7 64 4096).incObj 0x2300 6 32 1).powerReport 0xA003#16 9 0).traceUngated 2 4096

theorem refRestart_eq (s : State) : s.refRestart =
    if (refRestartNoted (refRestarted s)).pwrState = 3 then refRestartNoted (refRestarted s)
    else (refRestartNoted (refRestarted s)).floorUngate := rfl

@[simp] theorem refRestartNoted_refs (s : State) : (refRestartNoted s).refs = s.refs := by
  rw [refRestartNoted, traceUngated_refs, powerReport_refs, incObj_refs, incObj_refs]

theorem refRestart_refs (s : State) : s.refRestart.refs = { s.refs with switching := 0, stopped := false, inUse := !s.refs.inUse } := by
  have e : s.refRestart.refs = (refRestarted s).refs := by
    rw [refRestart_eq, ite_refs, floorUngate_refs, refRestartNoted_refs, ite_self]
  rw [e, refRestarted]

theorem refRestart_refsOk {s : State} (h : refsOk s.refs) : refsOk s.refRestart.refs := by
  obtain ⟨-, -, ha, hb⟩ := h
  rw [refRestart_refs]
  exact ⟨by simp, by simp, ha, hb⟩

theorem refSelEff_refsOk {s : State} (h : refsOk s.refs) (p : Path) (v : W64) : refsOk (refSelEff p v s).2.refs := by
  unfold refSelEff
  extract_lets r s1 b
  by_cases hv : (v = 1 ∧ r.stA ≠ 1) ∨ (v = 2 ∧ r.stB ≠ 1)
  · rw [if_pos hv]
    exact h
  · rw [if_neg hv]
    by_cases hc : b ≠ r.inUse ∧ (if b then r.stB else r.stA) = 1 ∧ r.switching = 0 ∧ r.used ≠ 0
    · rw [if_pos hc]
      exact refsOk_switchBegin h hc.2.2.1
    · rw [if_neg hc]
      exact h

@[simp] theorem parkPin_refs (s : State) (n f : Nat) (park : Bool) : (s.parkPin n f park).refs = s.refs := rfl

@[simp] theorem sscOutEff_refs (p : Path) (v : W64) (s : State) : (sscOutEff p v s).2.refs = s.refs := by
  refine (foldl_refs (fun s n => ?_) [0, 1] _).trans (storeObj_refs s p _ _ _)
  dsimp only
  split <;> simp

/-! Operations of Machine/Startup -/

@[simp] theorem powerUp_refs (s : State) : s.powerUp.refs = s.refs := rfl

theorem resetN_refs (s : State) : s.resetN.refs = {} := by
  unfold State.resetN
  refine (foldl_refs (fun s e => ?_) s.pins _).trans rfl
  exact out_refs s _

theorem resetN_refsOk (s : State) : refsOk s.resetN.refs := by
  rw [resetN_refs]
  exact refsOk_default

@[simp] theorem badBank_refs (s : State) (k : Bool) : (s.badBank k).refs = s.refs := by simp [State.badBank]

theorem runBank_refsOk {s : State} (h : refsOk s.refs) (k : Bool) : refsOk (s.runBank k).refs :=
  raiseBegin_refsOk (refsOk_of_eq h (commReset_refs _))

@[simp] theorem sendCheck_refs (s : State) (p : Nat) : (s.sendCheck p).refs = s.refs := rfl
@[simp] theorem sendToken_refs (s : State) (p : Nat) : (s.sendToken p).refs = s.refs := rfl

@[simp] theorem forwardTokens_refs (s : State) : s.forwardTokens.refs = s.refs := by
  unfold State.forwardTokens
  refine (foldl_refs (fun s p => ?_) _ _).trans rfl
  exact sendToken_refs s p

@[simp] theorem setRoll_refs (s : State) (st count : Nat) : (s.setRoll st count).refs = s.refs := rfl
@[simp] theorem rollBegin_refs (s : State) : s.rollBegin.refs = s.refs := by simp [State.rollBegin]

@[simp] theorem rollEnd_refs (s : State) (n : Nat) : (s.rollEnd n).refs = s.refs := by
  unfold State.rollEnd
  refine (foldl_refs (fun s p => ?_) _ _).trans rfl
  exact out_refs s _

@[simp] theorem rollReported_refs (s : State) : s.rollReported.refs = s.refs := by
  unfold State.rollReported
  split <;> simp

theorem firmwareBoot_refsOk {s : State} (h : refsOk s.refs) : refsOk s.firmwareBoot.refs := by
  unfold State.firmwareBoot
  dsimp only
  split
  · exact h
  split
  · exact refsOk_of_eq (runBank_refsOk h _) (rollBegin_refs _)
  split
  · exact refsOk_of_eq (runBank_refsOk (refsOk_of_eq h (badBank_refs s _)) _) (rollBegin_refs _)
  · exact refsOk_of_eq h (by simp)

@[simp] theorem storeImage_refs (s : State) (k : Bool) (img : List Byte) : (s.storeImage k img).refs = s.refs := rfl

theorem fwImageEff_refsOk {s : State} (h : refsOk s.refs) (img : List Byte) : refsOk (fwImageEff img s).2.refs := by
  unfold fwImageEff
  split
  · exact h
  split
  · exact h
  split
  · exact resetN_refsOk _
  · refine refsOk_of_eq h ?_
    grind [maintAsk_refs, maintResult_refs, setDom_refs, storeImage_refs]

@[simp] theorem fwCommitEff_refs  (s : State) : (fwCommitEff s).2.refs = s.refs := rfl
@[simp] theorem frameRaise_refs (s : State) : s.frameRaise.refs = s.refs := by simp [State.frameRaise]

@[simp] theorem startDefect_refs (s : State) (f slot action sev : Nat) :
    (s.startDefect f slot action sev).refs = s.refs := by simp [State.startDefect]

@[simp] theorem remapFrame_refs (s : State) (rs : List SlotRating) (f : Nat) : (s.remapFrame rs f).refs = s.refs := by
  unfold State.remapFrame
  refine (foldl_refs (fun s sl => ?_) _ _).trans (setFrame_refs s f _)
  exact setComb_refs s _ _

@[simp] theorem logDefects_refs (s : State) (all rs : List SlotRating) : (s.logDefects all rs).refs = s.refs := by simp [State.logDefects]
@[simp] theorem bistDone_refs (s : State) (rs : List SlotRating) : (s.bistDone rs).refs = s.refs := by simp [State.bistDone]

@[simp] theorem regionBad_refs (s : State) (f slot : Nat) : (s.regionBad f slot).refs = s.refs := by
  unfold State.regionBad
  dsimp only
  (repeat' split) <;> simp

@[simp] theorem mwCalibrated_refs (s : State) (bad : List (Nat × Nat)) : (s.mwCalibrated bad).refs = s.refs := by simp [State.mwCalibrated]
@[simp] theorem swarmAnswer_refs (s : State) (f slot : Nat) (pass : Bool) : (s.swarmAnswer f slot pass).refs = s.refs := by simp [State.swarmAnswer]
@[simp] theorem ready_refs (s : State) : s.ready.refs = s.refs := by simp [State.ready]
@[simp] theorem portLight_refs (s : State) (p : Nat) (lanes : List Nat) : (s.portLight p lanes).refs = s.refs := by simp [State.portLight]

@[simp] theorem rollPlanEff_refs (p : Path) (v : W64) (s : State) : (rollPlanEff p v s).2.refs = s.refs :=
  (rollBegin_refs _).trans ((foldl_refs (fun s q => sendCheck_refs s q) _ _).trans (storeObj_refs s p _ _ _))

@[simp] theorem neighbour_refs (s : State) (p : Nat) (x : Neighbour) : (s.neighbour p x).refs = s.refs := by simp [State.neighbour]
@[simp] theorem rollToken_refs (s : State) (p remain : Nat) : (s.rollToken p remain).refs = s.refs := by simp [State.rollToken]
@[simp] theorem rollReport_refs (s : State) (p n : Nat) : (s.rollReport p n).refs = s.refs := by simp [State.rollReport]
@[simp] theorem rollCount_refs (s : State) (n : Nat) (pts : W64) : (s.rollCount n pts).refs = s.refs := by simp [State.rollCount]

@[simp] theorem rollStartEff_refs  (s : State) : (rollStartEff s).2.refs = s.refs := by
  unfold rollStartEff
  split <;> simp

@[simp] theorem tsSync_refs (s : State) (pts : W64) : (s.tsSync pts).refs = s.refs := by simp [State.tsSync]

@[simp] theorem maintReqEff_refs (v : W64) (s : State) : (maintReqEff v s).2.refs = s.refs := by
  unfold maintReqEff
  grind [maintResult_refs, maintAsk_refs]

@[simp] theorem activityEnd_refs (s : State) (t : Nat) (ok : Bool) : (s.activityEnd t ok).refs = s.refs := by
  unfold State.activityEnd
  (repeat' split) <;> simp

@[simp] theorem remapRecord_refs (s : State) (c action : Nat) : (s.remapRecord c action).refs = s.refs := by simp [State.remapRecord]

theorem remapComb_refs {s t : State} {c : Nat} (h : s.remapComb c = some t) : t.refs = s.refs := by
  unfold State.remapComb at h
  dsimp only at h
  split at h
  · cases h
    refine (remapRecord_refs _ _ _).trans ((foldl_refs (fun s d => ?_) _ _).trans (setFrame_refs s _ _))
    exact setComb_refs s d _
  split at h
  · cases h
    simp
  · cases h

@[simp] theorem spareRemap_refs (s : State) (c : Nat) (region : Bool) : (s.spareRemap c region).refs = s.refs := by
  unfold State.spareRemap
  grind [setFrame_refs, maintResult_refs, maintEnd_refs, maintKick_refs, remapComb_refs]

@[simp] theorem regionCopied_refs (s : State) (f : Nat) : (s.regionCopied f).refs = s.refs := by
  unfold State.regionCopied
  dsimp only
  (repeat' split) <;> simp

end Sys2Proof.Proofs
end

section
/-! PROOFS. The references' invariant: keys, debug, the dictionary, host commands and the Management Port. A write of the dictionary may
change the references, and keeps the invariant. -/

open Sys2Proof Sys2Proof.Machine Sys2Proof.Claims Sys2Proof.Laws

namespace Sys2Proof.Proofs

/-! Operations of Machine/Security -/

@[simp] theorem setSpdm_refs (s : State) (t : Nat) (x : Spdm) : (s.setSpdm t x).refs = s.refs := rfl

@[simp] theorem ideGoStop_refs (s : State) (t : Nat) (req : List Byte) : (s.ideGoStop t req).refs = s.refs := by
  unfold State.ideGoStop
  (repeat' split) <;> simp

@[simp] theorem spdmTake_refs (s : State) (t : Nat) (req : List Byte) (cosign : Bool) :
    (s.spdmTake t req cosign).refs = s.refs := by simp [State.spdmTake]

@[simp] theorem spdmVia_refs (s : State) (t : Nat) (req : List Byte) (cosign : Bool) : (s.spdmVia t req cosign).refs = s.refs := by
  unfold State.spdmVia
  split
  · refine domAnswer_keeps (P := (· = s.refs)) (fun u hu => ?_) rfl _ _ _
    split
    · exact hu
    · exact (spdmTake_refs u 2 req cosign).trans hu
  · exact refs_ite (spdmTake_refs s t req cosign) rfl

@[simp] theorem ctxNonceEff_refs (n : Nat) (nonce : List Byte) (s : State) : (ctxNonceEff n nonce s).2.refs = s.refs := by
  unfold ctxNonceEff
  split <;> simp

@[simp] theorem tenantKeyEff_refs (n : Nat) (key : List Byte) (s : State) : (tenantKeyEff n key s).2.refs = s.refs := by
  unfold tenantKeyEff
  (repeat' split) <;> simp

@[simp] theorem drawBytes_refs (s : State) : s.drawBytes.2.refs = s.refs := rfl
@[simp] theorem challengeRd_refs (n : Nat) (s : State) : (challengeRd n s).2.refs = s.refs := rfl

@[simp] theorem setHalt_refs (s : State) (kind c ix : Nat) (b : Bool) : (s.setHalt kind c ix b).refs = s.refs := by
  unfold State.setHalt
  split <;> simp

@[simp] theorem setDbg_refs (s : State) (p : Path) (d : Dbg) : (s.setDbg p d).refs = s.refs := rfl
@[simp] theorem resumeHalts_refs (s : State) (p : Path) : (s.resumeHalts p).refs = s.refs := by simp [State.resumeHalts]

@[simp] theorem tokenAct_refs (s : State) (n : Nat) (tok : List Byte) : ∀ t ∈ (State.tokenAct s n tok), t.refs = s.refs := by
  unfold State.tokenAct
  dsimp only
  split <;> simp

@[simp] theorem tokenEff_refs (n : Nat) (tok : List Byte) (s : State) : (tokenEff n tok s).2.refs = s.refs := by
  unfold tokenEff
  grind [setCtx_refs, tokenAct_refs]

@[simp] theorem token_refs (s : State) (act n : Nat) (tok : List Byte) : (s.token act n tok).refs = s.refs :=
  refs_ite rfl (domAnswer_keeps (P := (· = s.refs)) (fun u hu => (tokenEff_refs n tok u).trans hu) rfl _ _ _)

@[simp] theorem frzDataRd_refs (n : Nat) (s : State) : (frzDataRd n s).2.refs = s.refs := by
  unfold frzDataRd
  split <;> simp

@[simp] theorem opFrzReleaseEff_refs (v : W64) (s : State) : (opFrzReleaseEff v s).2.refs = s.refs := by
  unfold opFrzReleaseEff
  dsimp only
  (repeat' split) <;> simp

@[simp] theorem dbgChallengeRd_refs  (s : State) : (dbgChallengeRd s).2.refs = s.refs := rfl
@[simp] theorem zeroAll_refs (s : State) : s.zeroAll.refs = s.refs := rfl

@[simp] theorem dbgGrantEff_refs (g : List Byte) (s : State) : (dbgGrantEff g s).2.refs = s.refs := by
  unfold dbgGrantEff
  dsimp only
  (repeat' split) <;> simp

@[simp] theorem grantEnd_refs (s : State) : s.grantEnd.refs = s.refs := by
  unfold State.grantEnd
  split <;> simp

/-! Operations of Machine/Counters -/

@[simp] theorem latch_refs (s : State) (p : Path) : (s.latch p).refs = s.refs := by
  unfold State.latch
  split <;> simp

@[simp] theorem pcSelEff_refs (p : Path) (v : W64) (s : State) : (pcSelEff p v s).2.refs = s.refs := by
  unfold pcSelEff
  split <;> simp

@[simp] theorem pcLive_refs (s : State) (p : Path) (f : Perf → Perf) : (s.pcLive p f).refs = s.refs := by
  unfold State.pcLive
  dsimp only
  (repeat' split) <;> simp

@[simp] theorem pcValueEff_refs (p : Path) (v : W64) (s : State) : (pcValueEff p v s).2.refs = s.refs :=
  pcLive_refs s p _

@[simp] theorem pcStickyEff_refs (p : Path) (s : State) : (pcStickyEff p s).2.refs = s.refs :=
  pcLive_refs s p _

@[simp] theorem trCfgEff_refs (n sub : Nat) (v : W64) (s : State) : (trCfgEff n sub v s).2.refs = s.refs := by
  unfold trCfgEff
  dsimp only
  (repeat' split) <;> simp

@[simp] theorem traceWrite_refs (s : State) (c : Nat) : (s.traceWrite c).refs = s.refs := by
  unfold State.traceWrite
  dsimp only
  (repeat' split) <;> simp

/-! Operations of Machine/Forager -/

@[simp] theorem fgRingEff_refs (p : Path) (f : Nat) (v : W64) (s : State) : (fgRingEff p f v s).2.refs = s.refs := by
  unfold fgRingEff
  dsimp only
  (repeat' split) <;> simp

@[simp] theorem fgStuck_refs (s : State) (c f : Nat) (code : W16) (res : W64) : (s.fgStuck c f code res).refs = s.refs := rfl

@[simp] theorem fgTake_refs (s : State) (c f : Nat) : (s.fgTake c f).refs = s.refs := by
  unfold State.fgTake
  grind [setForager_refs, performRead_refs, fgStuck_refs]

@[simp] theorem setFg_refs (s : State) (c f k : Nat) (m : FgCmd) : (s.setFg c f k m).refs = s.refs := rfl
@[simp] theorem fgBegin_refs (s : State) (c f k : Nat) (m : FgCmd) : (s.fgBegin c f k m).refs = s.refs := by simp [State.fgBegin]

@[simp] theorem fgWatch_refs (s : State) (c f k : Nat) (m : FgCmd) : (s.fgWatch c f k m).refs = s.refs := by
  unfold State.fgWatch
  dsimp only
  (repeat' split) <;> simp

@[simp] theorem fgStart_refs (s : State) (c f k : Nat) : (s.fgStart c f k).refs = s.refs := by
  unfold State.fgStart
  dsimp only
  (repeat' split) <;> simp

@[simp] theorem fgRead_refs (s : State) (c off n : Nat) : (s.fgRead c off n).2.refs = s.refs := by simp [State.fgRead]

@[simp] theorem fgFail_refs (s : State) (c f k : Nat) (m : FgCmd) (code : W16) (unit : Nat) (addr : W64) :
    (s.fgFail c f k m code unit addr).refs = s.refs := rfl

@[simp] theorem fgBump_refs (s : State) (c f bytes : Nat) : (s.fgBump c f bytes).refs = s.refs := rfl

@[simp] theorem fgSend_refs (s : State) (c f k : Nat) (m : FgCmd) (p : Pkt) (u : Nat) (a : W64) :
    (s.fgSend c f k m p u a).refs = s.refs := by simp [State.fgSend]

theorem fgAhead_refs {s u : State} {c f k : Nat} {m : FgCmd} {sa : W64} {t : Tgt} (h : s.fgAhead c f k m sa t = some u) : u.refs = s.refs := by
  unfold State.fgAhead at h
  grind [newReq_refs, fgSend_refs]

theorem fgBytes_inl_refs {s u : State} {c f k : Nat} {m : FgCmd} {sa : W64} {d p : Nat} {b : Except W16 (List Byte)}
    (h : s.fgBytes c f k m sa d p = .inl (some (b, u))) : u.refs = s.refs := by
  unfold State.fgBytes at h
  grind [performRead_refs]

theorem fgBytes_inr_refs {s u : State} {c f k : Nat} {m : FgCmd} {sa : W64} {d p : Nat}
    (h : s.fgBytes c f k m sa d p = .inr u) : u.refs = s.refs := by
  unfold State.fgBytes at h
  grind [fgAhead_refs]

theorem fgData_refs {s u : State} {c f k : Nat} {m : FgCmd} {sa da : W64} (h : s.fgData c f k m sa da = some u) : u.refs = s.refs := by
  unfold State.fgData at h
  grind [fgFail_refs, fgBytes_inl_refs, fgBytes_inr_refs, newReq_refs, fgSend_refs]

@[simp] theorem fgHand_refs (s : State) (c f k : Nat) (m : FgCmd) : (s.fgHand c f k m).refs = s.refs := by simp [State.fgHand]

theorem fgUnit_refs {s u : State} {c f k : Nat} {m : FgCmd} (h : s.fgUnit c f k m = some u) : u.refs = s.refs := by
  unfold State.fgUnit at h
  grind [fgData_refs, fgRead_refs, fgFail_refs]

theorem fgAdd_refs {s u : State} {c f k : Nat} {m : FgCmd} {a : W64} {amt n8 : Nat} (h : s.fgAdd c f k m a amt n8 = some u) :
    u.refs = s.refs := by
  unfold State.fgAdd at h
  grind [newReq_refs, fgSend_refs, fgFail_refs]

theorem fgTrailer_refs {s u : State} {c f k : Nat} {m : FgCmd} (h : s.fgTrailer c f k m = some u) : u.refs = s.refs := by
  unfold State.fgTrailer at h
  grind [fgSend_refs, fgFail_refs, newReq_refs]

theorem fgEnding_refs {s u : State} {c f k : Nat} {m : FgCmd} (h : s.fgEnding c f k m = some u) : u.refs = s.refs := by
  unfold State.fgEnding at h
  grind [fgTrailer_refs, fgAdd_refs, fgSend_refs, fgFail_refs, newReq_refs, setFg_refs]

theorem fgOccRead_refs {s u : State} {c f k : Nat} {m : FgCmd} {key rec : Nat} {t : Tgt} (h : s.fgOccRead c f k m key rec t = some u) :
    u.refs = s.refs := by
  unfold State.fgOccRead at h
  grind [newReq_refs, setForager_refs, fgSend_refs]

theorem fgChoose_refs {s u : State} {c f k : Nat} {m : FgCmd} {n : Option Nat} {l : List (Nat × Nat)} {best : Option (Nat × Nat)}
    (h : s.fgChoose c f k m n l best = .ok (.inr (some u))) : u.refs = s.refs := by
  induction l generalizing best with
  | nil => simp [State.fgChoose] at h
  | cons x t ih =>
    unfold State.fgChoose at h
    grind [fgOccRead_refs]

theorem fgPick_refs {s u : State} {c f k : Nat} {m : FgCmd} {n : Nat} (h : s.fgPick c f k m n = some u) : u.refs = s.refs := by
  unfold State.fgPick at h
  grind [fgFail_refs, fgRead_refs, setFg_refs, fgChoose_refs]

@[simp] theorem fgRec_refs (s : State) (c v r : Nat) : (s.fgRec c v r).2.refs = s.refs := by
  unfold State.fgRec
  grind [fgRead_refs]

theorem fgTuple_refs {s u : State} {c f k : Nat} {m : FgCmd} {n r rec : Nat} (h : s.fgTuple c f k m n r rec = some u) : u.refs = s.refs := by
  unfold State.fgTuple at h
  grind [fgFail_refs, fgRead_refs, newReq_refs, setForager_refs, fgSend_refs]

theorem fgDispatch_refs {s u : State} {c f k : Nat} {m : FgCmd} {n : Nat} (h : s.fgDispatch c f k m n = some u) : u.refs = s.refs := by
  unfold State.fgDispatch at h
  dsimp only at h
  (repeat' split at h) <;> grind [fgPick_refs, fgRec_refs, fgTuple_refs, fgFail_refs, fgBytes_inl_refs, fgBytes_inr_refs, newReq_refs, fgSend_refs, fgRead_refs, setFg_refs]

theorem fgTallyStep_refs {s u : State} {c f k : Nat} {m : FgCmd} (h : s.fgTallyStep c f k m = some u) : u.refs = s.refs := by
  unfold State.fgTallyStep at h
  grind [setFg_refs, fgRec_refs, fgFail_refs, fgAdd_refs]

theorem fgNext_refs {s u : State} {c f k : Nat} {m : FgCmd} (h : s.fgNext c f k m = some u) : u.refs = s.refs := by
  unfold State.fgNext at h
  grind [fgDispatch_refs, fgTallyStep_refs, fgEnding_refs, setFg_refs, fgHand_refs, fgUnit_refs]

@[simp] theorem fgFirst_refs (s : State) (c f : Nat) (l : List Nat) : (s.fgFirst c f l).refs = s.refs := by
  induction l with
  | nil => rfl
  | cons k t ih =>
    unfold State.fgFirst
    grind [fgNext_refs, setForager_refs]

@[simp] theorem occRead_refs (s : State) (c f key : Nat) (v : W32) : (s.occRead c f key v).refs = s.refs := by
  unfold State.occRead
  dsimp only
  split <;> simp

@[simp] theorem fgComplete_refs (s : State) (c f k : Nat) : (s.fgComplete c f k).refs = s.refs := by
  unfold State.fgComplete
  dsimp only
  split <;> simp

/-! Operations of Machine/Debug -/

@[simp] theorem dbgCode_refs (s : State) (p : Path) (code : W16) : (s.dbgCode p code).refs = s.refs := rfl
@[simp] theorem dbgBad_refs (s : State) (p : Path) (r : Refuse) : (s.dbgBad p r).2.refs = s.refs := rfl

@[simp] theorem peekMem_refs (s : State) (p : Path) (c space off : Nat) : (s.peekMem p c space off).2.refs = s.refs := by
  unfold State.peekMem
  dsimp only
  split <;> simp

@[simp] theorem peekEndpoint_refs (s : State) (c kind ix : Nat) : (s.peekEndpoint c kind ix).2.refs = s.refs := by
  unfold State.peekEndpoint
  (repeat' split) <;> simp

@[simp] theorem peek_refs (s : State) (p : Path) : (s.peek p).2.refs = s.refs := by
  unfold State.peek
  (repeat' split) <;> simp

theorem peekAns_refs (p : Path) (r : Except Refuse Peek × State) : (peekAns p r).2.refs = r.2.refs := by
  unfold peekAns
  split <;> simp

@[simp] theorem dbgMemRd_refs (p : Path) (s : State) : (dbgMemRd p s).2.refs = s.refs :=
  (peekAns_refs p _).trans (peek_refs s p)

@[simp] theorem sdoPeekAbort_refs (s : State) (p : Path) : (s.sdoPeekAbort p).refs = s.refs := by
  unfold State.sdoPeekAbort
  split <;> simp

@[simp] theorem dbgMemEff_refs (p : Path) (v : W64) (s : State) : (dbgMemEff p v s).2.refs = s.refs := by
  unfold dbgMemEff
  grind [performWrite_refs, dbgCode_refs, dbgBad_refs]

@[simp] theorem peekSlot_refs (s : State) (c k sl r : Nat) : (s.peekSlot c k sl r).2.refs = s.refs := by
  unfold State.peekSlot
  (repeat' split) <;> simp

@[simp] theorem peekReg_refs (s : State) (p : Path) : (s.peekReg p).2.refs = s.refs := by
  unfold State.peekReg
  dsimp only
  (repeat' split) <;> simp

@[simp] theorem dbgRegRd_refs (p : Path) (s : State) : (dbgRegRd p s).2.refs = s.refs :=
  (peekAns_refs p _).trans (peekReg_refs s p)

@[simp] theorem putSpecial_refs (s : State) (c k sl i : Nat) (v : W64) : ∀ t, (State.putSpecial s c k sl i v) = .ok t → t.refs = s.refs := by
  unfold State.putSpecial
  (repeat' split) <;> simp

@[simp] theorem putSlot_refs (s : State) (c k sl r : Nat) (v : W64) : ∀ t, (State.putSlot s c k sl r v) = .ok t → t.refs = s.refs := by
  unfold State.putSlot
  grind [setWorker_refs, setSlot_refs, putSpecial_refs]

@[simp] theorem putStore_refs (s : State) (c k r : Nat) (v : W64) : ∀ t, (State.putStore s c k r v) = .ok t → t.refs = s.refs := by
  unfold State.putStore
  dsimp only
  (repeat' split) <;> simp

@[simp] theorem dbgRegEff_refs (p : Path) (v : W64) (s : State) : (dbgRegEff p v s).2.refs = s.refs := by
  unfold dbgRegEff
  grind [setForager_refs, engPortWrite_refs, dbgCode_refs, dbgBad_refs, putSlot_refs, putStore_refs]

/-! Worker Cell instructions leave the references alone. -/

/-- The references of every state that a cell's result holds. -/
def CResKeeps (r : Refs) : CRes → Prop
  | .next t | .jump t _ | .fault t _ | .stop t => t.refs = r
  | .wait _ | .hold => True

theorem CResKeeps.ite {c : Prop} [Decidable c] {r : Refs} {a b : CRes} (ha : CResKeeps r a) (hb : CResKeeps r b) :
    CResKeeps r (if c then a else b) := by
  split
  · exact ha
  · exact hb

theorem heldOr_refs {r : Refs} {x : WSlot} {c : CRes} (h : CResKeeps r c) : CResKeeps r (heldOr x c) := CResKeeps.ite trivial h

theorem cellEnd_refs {s0 : State} {r : CRes} (h : CResKeeps s0.refs r) (u : SlotRef) (pc : Nat) : (s0.cellEnd u pc r).refs = s0.refs := by
  cases r with
  | next t => exact h
  | jump t a =>
    unfold State.cellEnd
    exact refs_ite h (slotStop_refs s0 u _ _)
  | fault t code => exact (slotStop_refs t u code pc).trans h
  | wait c => exact deschedule_refs s0 u c
  | hold => rfl
  | stop t => exact h

theorem cellStep_refs {body : Nat → State → CRes} (hb : ∀ w t, CResKeeps t.refs (body w t)) (s : State) (o : COp) (u : SlotRef) :
    (s.cellStep o u body).refs = s.refs := by
  have hf : (s.setSlot u (fetchLine (s.worker u.comb u.cell) ((s.worker u.comb u.cell).slot u.slot))).refs = s.refs := setSlot_refs s u _
  unfold State.cellStep
  dsimp only
  refine refs_ite rfl (refs_ite (slotStop_refs s u _ _) ?_)
  split
  · exact (slotStop_refs _ u _ _).trans hf
  · exact refs_ite rfl (refs_ite rfl (refs_ite ((slotStop_refs _ u _ _).trans hf) ((cellEnd_refs (hb _ _) u _).trans hf)))

theorem onUnit_refs {ok : Bool} {s t u : State} (h : onUnit ok s = .next t) (e : s.refs = u.refs) : t.refs = u.refs := by
  unfold onUnit at h
  split at h
  · cases h
    exact e
  · cases h

theorem cellRun_refs {s t : State} {o : COp} {u : SlotRef} {body : Nat → State → CRes} (h : cellRun o u body s = .next t)
    (hb : ∀ w t, CResKeeps t.refs (body w t)) : t.refs = s.refs := onUnit_refs h (cellStep_refs hb s o u)

theorem cellPure_refs {s t : State} {o : COp} {u : SlotRef} {f : Nat → WSlot → WSlot} (h : cellPure o u f s = .next t) : t.refs = s.refs :=
  cellRun_refs h fun _ t => setSlot_refs t u _

theorem branch_refs {s t : State} {o : COp} {p : W32 → W32 → Bool} {u : SlotRef} (h : branch o p u s = .next t) : t.refs = s.refs :=
  cellRun_refs h fun _ _ => CResKeeps.ite rfl rfl

theorem storeLocal_refs (u : SlotRef) (a : Nat) (bs : List Byte) (s : State) : CResKeeps s.refs (storeLocal u a bs s) := by
  unfold storeLocal
  grind [CResKeeps, setWorker_refs, setSlot_refs]

theorem loadRemote_refs (s : State) (u : SlotRef) (t : Tgt) (addr : W64) (d : Nat) (wide fills : Bool) (off len : Nat) :
    CResKeeps s.refs (s.loadRemote u t addr d wide fills off len) :=
  CResKeeps.ite trivial ((sendPkt_refs _ _ _).trans (setSlot_refs _ u _))

section
variable {s t : State} {u : SlotRef}

theorem cMfs_refs (h : execCMfs u s = .next t) : t.refs = s.refs := by
  refine cellRun_refs h fun w s => ?_
  have next (x : WSlot) : CResKeeps s.refs (.next (s.setSlot u x)) := setSlot_refs s u x
  refine .ite (.ite rfl ?_) <| .ite (next _) <| .ite ?_ <| .ite (next _) <| .ite (next _) <| .ite (next _) <| .ite (next _) <|
    .ite (next _) <| .ite (next _) <| .ite (next _) rfl
  · split
    · trivial
    · exact (popWord_refs _ _ _ _).trans (setSlot_refs s u _)
  · split
    · trivial
    · exact setWorker_refs s _ _ _

theorem cMts_refs (h : execCMts u s = .next t) : t.refs = s.refs :=
  cellRun_refs h fun _ s => .ite (.ite rfl (.ite (putWord_refs s _ _ _ _) trivial)) <|
    .ite (.ite (setWorker_refs s _ _ _) rfl) <| .ite (setSlot_refs s u _) rfl

theorem cVpop_refs (h : execCVpop u s = .next t) : t.refs = s.refs :=
  cellRun_refs h fun w s => by grind [CResKeeps, setWorker_refs]

theorem cGld_refs (h : execCGld u s = .next t) : t.refs = s.refs :=
  cellRun_refs h (fun w s => by
    refine heldOr_refs ?_
    split
    · rfl
    · grind [CResKeeps, setSlot_refs, loadRemote_refs, loadReg_refs, performRead_refs])

theorem cGst_refs (h : execCGst u s = .next t) : t.refs = s.refs :=
  cellRun_refs h (fun w s => by
    refine heldOr_refs ?_
    split
    · rfl
    · grind [CResKeeps, setSlot_refs, performWrite_refs, newReq_refs, writeIssued_refs, sendPkt_refs])

theorem cWsnd_refs (h : execCWsnd u s = .next t) : t.refs = s.refs :=
  cellRun_refs h (fun w s => by
    refine heldOr_refs ?_
    split
    · rfl
    · grind [CResKeeps, setSlot_refs, newReq_refs, landLocal_refs, sendPkt_refs])

theorem cCadd_refs (h : execCCadd u s = .next t) : t.refs = s.refs :=
  cellRun_refs h fun _ _ => heldOr_refs (CResKeeps.ite trivial ((passAdd_refs _ _ _).trans (setSlot_refs _ u _)))

theorem cCaddRemote_refs (h : execCCaddRemote u s = .next t) : t.refs = s.refs :=
  cellRun_refs h (fun _ _ => by
    refine heldOr_refs ?_
    split
    · rfl
    · grind [CResKeeps, setSlot_refs, newReq_refs, landLocal_refs, sendPkt_refs])

theorem cCwait_refs (h : execCCwait u s = .next t) : t.refs = s.refs := cellRun_refs h fun _ _ => CResKeeps.ite rfl trivial
theorem cCtest_refs (h : execCCtest u s = .next t) : t.refs = s.refs := cellRun_refs h fun _ s => heldOr_refs (setSlot_refs s u _)
theorem cCrd_refs (h : execCCrd u s = .next t) : t.refs = s.refs := cellRun_refs h fun _ s => heldOr_refs (setSlot_refs s u _)

theorem cSrr_refs (h : execCSrr u s = .next t) : t.refs = s.refs :=
  cellRun_refs h (fun w s => by
    refine heldOr_refs ?_
    split
    · rfl
    · exact CResKeeps.ite (setSlot_refs s u _) rfl)

theorem cSrw_refs (h : execCSrw u s = .next t) : t.refs = s.refs :=
  cellRun_refs h (fun _ _ => by
    refine heldOr_refs ?_
    split
    · rfl
    · exact CResKeeps.ite rfl ((setStore_refs _ _ _ _).trans (setSlot_refs _ u _)))

theorem cJal_refs (h : execCJal u s = .next t) : t.refs = s.refs := cellRun_refs h fun _ s => setSlot_refs s u _
theorem cJr_refs (h : execCJr u s = .next t) : t.refs = s.refs := cellRun_refs h fun _ s => setSlot_refs s u _
theorem cLd_refs (h : execCLd u s = .next t) : t.refs = s.refs := cellRun_refs h fun _ s => CResKeeps.ite (setSlot_refs s u _) rfl
theorem cSt_refs (h : execCSt u s = .next t) : t.refs = s.refs := cellRun_refs h fun _ s => CResKeeps.ite (storeLocal_refs u _ _ s) rfl
theorem cVld_refs (h : execCVld u s = .next t) : t.refs = s.refs := cellRun_refs h fun _ s => CResKeeps.ite (setSlot_refs s u _) rfl
theorem cVst_refs (h : execCVst u s = .next t) : t.refs = s.refs := cellRun_refs h fun _ s => CResKeeps.ite (storeLocal_refs u _ _ s) rfl

theorem cSpawn_refs (h : execCSpawn u s = .next t) : t.refs = s.refs :=
  cellRun_refs h fun _ s => CResKeeps.ite rfl (CResKeeps.ite rfl (setSlot_refs s _ _))

theorem cLock_refs (h : execCLock u s = .next t) : t.refs = s.refs := cellRun_refs h fun _ s => setSlot_refs s u _
theorem cUnlock_refs (h : execCUnlock u s = .next t) : t.refs = s.refs := cellRun_refs h fun _ s => setWorker_refs s _ _ _
theorem cEnd_refs (h : execCEnd u s = .next t) : t.refs = s.refs := cellRun_refs h fun _ _ => rfl

theorem cSpx_refs (h : execCSpx u s = .next t) : t.refs = s.refs :=
  cellRun_refs h (fun w s => by
    dsimp only
    split
    · rfl
    · rfl
    · exact setSlot_refs s u _)

theorem runCell_refs {o : COp} (h : s.runCell u o = .next t) : t.refs = s.refs := by
  cases o <;> dsimp only [State.runCell] at h
  case beq | bne | blt | bge | bltu | bgeu => exact branch_refs h
  case jal => exact cJal_refs h
  case jr => exact cJr_refs h
  case ld => exact cLd_refs h
  case st => exact cSt_refs h
  case vld => exact cVld_refs h
  case vst => exact cVst_refs h
  case gld => exact cGld_refs h
  case gst => exact cGst_refs h
  case spx => exact cSpx_refs h
  case mfs => exact cMfs_refs h
  case mts => exact cMts_refs h
  case vpop => exact cVpop_refs h
  case wsnd => exact cWsnd_refs h
  case cadd => exact cCadd_refs h
  case caddRemote => exact cCaddRemote_refs h
  case cwait => exact cCwait_refs h
  case ctest => exact cCtest_refs h
  case crd => exact cCrd_refs h
  case srr => exact cSrr_refs h
  case srw => exact cSrw_refs h
  case spawn => exact cSpawn_refs h
  case lock => exact cLock_refs h
  case unlock => exact cUnlock_refs h
  case endSlot => exact cEnd_refs h
  all_goals exact cellPure_refs h

end

theorem resState_refs {s t : State} {r : Res} (h : ∀ u, r = .next u → u.refs = t.refs) (e : s.refs = t.refs) : (resState s r).refs = t.refs := by
  unfold resState
  split
  · exact h _ rfl
  · exact e

@[simp] theorem issueOne_refs (s : State) (u : SlotRef) : (s.issueOne u).refs = s.refs := by
  refine resState_refs (fun t h => ?_) rfl
  split at h
  · exact runCell_refs h
  · exact cellPure_refs h

@[simp] theorem issueLocked_refs (u : SlotRef) (n : Nat) (s : State) : (State.issueLocked u n s).refs = s.refs := by
  induction n generalizing s with
  | zero => rfl
  | succ n ih =>
    unfold State.issueLocked
    exact refs_ite ((ih _).trans (issueOne_refs s u)) rfl

theorem genDescStart_refs {s t : State} {c k g : Nat} (h : execGenDescStart c k g s = .next t) : t.refs = s.refs := by
  refine onUnit_refs h ?_
  grind [setStore_refs, storeStop_refs]

theorem genElementMove_refs {s t : State} {c k g : Nat} (h : execGenElementMove c k g s = .next t) : t.refs = s.refs := by
  refine onUnit_refs h ?_
  grind [storeStop_refs, genMoved_refs, setStore_refs, setPortsOf_refs, putWord_refs, popWord_refs, setArea_refs]

theorem fgPacketIssue_refs {s t : State} {c f : Nat} (h : execFgPacketIssue c f s = .next t) : t.refs = s.refs :=
  onUnit_refs h (refs_ite (fgFirst_refs s c f _) rfl)

@[simp] theorem stepUnit_refs (s : State) (kind c ix : Nat) : (s.stepUnit kind c ix).refs = s.refs := by
  have hd : (if ((s.store c (ix / 2)).gen (ix % 2)).slot.isNone then resState s (execGenDescStart c (ix / 2) (ix % 2) s) else s).refs = s.refs :=
    refs_ite (resState_refs (fun _ h => genDescStart_refs h) rfl) rfl
  unfold State.stepUnit
  split
  · exact refs_ite (refs_ite (fallbackStep_refs s c) rfl) ((issueLocked_refs _ _ _).trans (issueOne_refs s _))
  · exact resState_refs (fun _ h => (genElementMove_refs h).trans hd) hd
  · exact refs_ite (refs_ite (activation_refs s c) (swapTiles_refs s c)) rfl
  · exact resState_refs (fun _ h => fgPacketIssue_refs h) rfl

@[simp] theorem noteHalt_refs (s : State) (p : Path) (h : Nat × Nat × Nat) (b : Bool) : (s.noteHalt p h b).refs = s.refs := rfl

@[simp] theorem dbgRunEff_refs (p : Path) (v : W64) (s : State) : (dbgRunEff p v s).2.refs = s.refs := by
  unfold dbgRunEff
  dsimp only
  (repeat' split) <;> simp

@[simp] theorem dbgRun_refs (s : State) (p : Path) (op : Nat) (v : W64) : (s.dbgRun p op v).refs = s.refs :=
  refs_ite (writeAnswer_keeps (P := (· = s.refs)) (fun u hu => (dbgRunEff_refs p v u).trans hu) rfl _ _ _ _) rfl

/-! Operations of Machine/Pins -/

@[simp] theorem mfpCfgEff_refs (p : Path) (n : Nat) (v : W64) (s : State) : (mfpCfgEff p n v s).2.refs = s.refs :=
  refs_ite ((parkPin_refs _ _ _ _).trans (storeObj_refs s p _ _ _)) <|
    refs_ite ((out_refs _ _).trans ((setPin_refs _ _ _).trans (storeObj_refs s p _ _ _))) (storeObj_refs s p _ _ _)

/-! Operations of Machine/DictCmd -/

@[simp] theorem tpdoMapEff_refs (p : Path) (k sub : Nat) (v : W64) (s : State) : (tpdoMapEff p k sub v s).2.refs = s.refs := by
  unfold tpdoMapEff
  dsimp only
  (repeat' split) <;> simp

@[simp] theorem snapListEff_refs (p : Path) (l : List Byte) (s : State) : (snapListEff p l s).2.refs = s.refs := by
  unfold snapListEff
  (repeat' split) <;> simp

@[simp] theorem domRd_refs (p : Path) (idx sub : Nat) (s : State) : (domRd p idx sub s).2.refs = s.refs := by
  unfold domRd
  (repeat' split) <;> simp

@[simp] theorem scalarRd_refs (p : Path) (idx sub : Nat) (s : State) : (scalarRd p idx sub s).2.refs = s.refs := by
  unfold scalarRd
  (repeat' split) <;> simp

@[simp] theorem objRd_refs (p : Path) (idx sub : Nat) (s : State) : (objRd p idx sub s).2.refs = s.refs := by
  unfold objRd
  split <;> simp

@[simp] theorem objRead_refs (s : State) (p : Path) (idx sub : Nat) : (s.objRead p idx sub).2.refs = s.refs :=
  objGet_keeps (P := (· = s.refs)) (fun u hu => (objRd_refs p idx sub u).trans hu) rfl _ _ _

theorem objGet_scalar_refs (s : State) (p : Path) (idx sub : Nat) : (s.objGet p idx sub (scalarRd p idx sub)).2.refs = s.refs :=
  objGet_keeps (P := (· = s.refs)) (fun u hu => (scalarRd_refs p idx sub u).trans hu) rfl _ _ _

@[simp] theorem readAll_refs (s : State) (p : Path) (l : List (Nat × Nat)) : (s.readAll p l).2.refs = s.refs := by
  induction l generalizing s with
  | nil => rfl
  | cons e t ih =>
    unfold State.readAll
    grind [objGet_scalar_refs]

@[simp] theorem snapTakeEff_refs (p : Path) (s : State) : (snapTakeEff p s).2.refs = s.refs := by
  unfold snapTakeEff
  grind [readAll_refs, setDom_refs, setObj_refs]

theorem effA_refsOk {s : State} {p : Path} {idx sub : Nat} {v : W64} {e : Eff} (h : effA p idx sub v = some e) (hs : refsOk s.refs) :
    refsOk (e s).2.refs := by
  unfold effA at h
  split at h
  · cases h
    exact refsOk_of_eq hs (tpdoMapEff_refs _ _ _ _ s)
  split at h <;> cases h
  · exact refsOk_of_eq hs (snapTakeEff_refs p s)
  · exact pwrRestartEff_refsOk hs
  · exact refSelEff_refsOk hs p v
  · exact refsOk_of_eq hs (sscOutEff_refs p v s)
  · exact refsOk_of_eq hs (tyCtlEff_refs _ _ _ s)
  · exact refsOk_of_eq hs (mwResEff_refs _ _ s)
  · exact refsOk_of_eq hs (dwEff_refs _ _ _ s)
  · exact refsOk_of_eq hs (rewindEff_refs _ _ s)
  · exact refsOk_of_eq hs (fgRingEff_refs _ _ _ s)

theorem effB_refs {s : State} {p : Path} {idx sub : Nat} {v : W64} {e : Eff} (h : effB p idx sub v = some e) : (e s).2.refs = s.refs := by
  unfold effB at h
  split at h
  case h_9 =>
    obtain ⟨n, -, rfl⟩ := Option.map_eq_some_iff.mp h
    exact trCfgEff_refs n sub v s
  all_goals cases h
  · exact opFrzReleaseEff_refs v s
  · exact grantEnd_refs s
  · exact elogClearEff_refs s
  · exact pbRunEff_refs v s
  · exact latch_refs s p
  · exact pcSelEff_refs p v s
  · exact pcValueEff_refs p v s
  · exact pcStickyEff_refs p s

theorem effC_refs {s : State} {p : Path} {idx sub : Nat} {v : W64} {e : Eff} (h : effC p idx sub v = some e) : (e s).2.refs = s.refs := by
  unfold effC at h
  split at h
  case h_8 =>
    split at h <;> cases h
    exact mfpCfgEff_refs p _ v s
  all_goals cases h
  · exact dbgMemEff_refs p v s
  · exact dbgRegEff_refs p v s
  · exact dbgRunEff_refs p v s
  · exact rollPlanEff_refs p v s
  · exact rollStartEff_refs s
  · exact maintReqEff_refs v s
  · exact fwCommitEff_refs s

theorem scalarEff_refsOk {s : State} (hs : refsOk s.refs) (p : Path) (idx sub : Nat) (v : W64) : refsOk (scalarEff p idx sub v s).2.refs := by
  unfold scalarEff
  cases hA : effA p idx sub v with
  | some e => exact effA_refsOk hA hs
  | none =>
    cases hB : effB p idx sub v with
    | some e => exact refsOk_of_eq hs (effB_refs hB)
    | none =>
      cases hC : effC p idx sub v with
      | some e => exact refsOk_of_eq hs (effC_refs hC)
      | none => exact refsOk_of_eq hs (storeObj_refs s p idx sub v)

@[simp] theorem peerListEff_refs (l : List Byte) (s : State) : (peerListEff l s).2.refs = s.refs := by
  unfold peerListEff
  split <;> simp

theorem domEff_refsOk {s : State} (hs : refsOk s.refs) (p : Path) (idx sub : Nat) (b : List Byte) : refsOk (domEff p idx sub b s).2.refs := by
  unfold domEff
  split
  · exact refsOk_of_eq hs (snapListEff_refs p b s)
  · exact refsOk_of_eq hs (tenantKeyEff_refs _ b s)
  · exact refsOk_of_eq hs (tokenEff_refs _ b s)
  · exact refsOk_of_eq hs (ctxNonceEff_refs _ b s)
  · exact refsOk_of_eq hs (peerListEff_refs b s)
  · exact refsOk_of_eq hs (dbgGrantEff_refs b s)
  · refine refsOk_of_eq hs ?_
    split <;> simp
  · exact refsOk_of_eq hs (pbImageEff_refs b s)
  · exact fwImageEff_refsOk hs b

theorem objWrite_refsOk {s : State} (hs : refsOk s.refs) (p : Path) (idx sub : Nat) (v : W64) : refsOk (s.objWrite p idx sub v).2.refs :=
  objPut_keeps (fun _ hu => scalarEff_refsOk hu p idx sub v) hs p idx sub v

theorem domWrite_refsOk {s : State} (hs : refsOk s.refs) (p : Path) (idx sub : Nat) (b : List Byte) : refsOk (s.domWrite p idx sub b).2.refs :=
  domPut_keeps (fun _ hu => domEff_refsOk hu p idx sub b) hs p idx sub

@[simp] theorem dwEnd_refs (s : State) (h st : Nat) (code : W16) : (s.dwEnd h st code).refs = s.refs := rfl

@[simp] theorem dwOpen_refs (s : State) (h : Nat) (v : W64) : (s.dwOpen h v).refs = s.refs := by
  unfold State.dwOpen
  grind [setHlp_refs, refused_refs, objRead_refs, dwEnd_refs]

@[simp] theorem dwMove_refs (s : State) (h len off : Nat) (buf : List Byte) : (s.dwMove h len off buf).refs = s.refs := by simp [State.dwMove]

theorem dwCommit_refsOk {s : State} (hs : refsOk s.refs) (h : Nat) : refsOk (s.dwCommit h).refs := by
  unfold State.dwCommit
  dsimp only
  split
  · exact hs
  split
  · exact refsOk_of_eq hs ((dwEnd_refs _ _ _ _).trans (refused_refs _ _ _ _ _))
  have hw := domWrite_refsOk hs (.hl h) ((s.hlp h).dwSel.toNat % 65536) (fld (s.hlp h).dwSel.toNat 16 8) ((s.hlp h).dwStage.take (s.hlp h).dwLen)
  split
  next e =>
    rw [e] at hw
    exact hw
  next e =>
    rw [e] at hw
    exact hw

/-! Operations of Machine/Contexts -/

@[simp] theorem setSwitch_refs (s : State) (n m : Nat) : (s.setSwitch n m).refs = s.refs := rfl
@[simp] theorem switchOut_refs (s : State) (c : Nat) : (s.switchOut c).refs = s.refs := by simp [State.switchOut]
@[simp] theorem saveOn_refs (s : State) (n c : Nat) : (s.saveOn n c).refs = s.refs := by simp [State.saveOn]
@[simp] theorem restoreOn_refs (s : State) (k c : Nat) : (s.restoreOn k c).refs = s.refs := by simp [State.restoreOn]
@[simp] theorem engineIn_refs (s : State) (c : Nat) : (s.engineIn c).refs = s.refs := by simp [State.engineIn]
@[simp] theorem bringIn_refs (s : State) (k : Nat) : (s.bringIn k).refs = s.refs := by simp [State.bringIn]

@[simp] theorem dropSave_refs (s : State) (k : Nat) : (s.dropSave k).refs = s.refs := by
  unfold State.dropSave
  refine (setCtx_refs _ k _).trans (foldl_refs (fun s e => foldl_refs (fun s g => ?_) _ s) _ s)
  exact setComb_refs s _ _

@[simp] theorem switchStop_refs (s : State) (n : Nat) : (s.switchStop n).refs = s.refs := by
  unfold State.switchStop
  refine foldl_refs (fun s k => ?_) _ s
  exact setCtx_refs s k _

@[simp] theorem destroyed_refs (s : State) (n : Nat) : (s.destroyed n).refs = s.refs := by
  unfold State.destroyed
  dsimp only
  (repeat' split) <;> simp

/-! Operations of Machine/Replies -/

@[simp] theorem loadReturn_refs (s : State) (u : SlotRef) (id : Nat) (bs : List Byte) : (s.loadReturn u id bs).refs = s.refs := by
  unfold State.loadReturn
  dsimp only
  (repeat' split) <;> simp

@[simp] theorem fgReturn_refs (s : State) (c f id src : Nat) (bs : List Byte) : (s.fgReturn c f id src bs).refs = s.refs := by
  unfold State.fgReturn
  dsimp only
  split <;> simp

@[simp] theorem hostReturn_refs (s : State) (f id : Nat) (bs : List Byte) : (s.hostReturn f id bs).refs = s.refs := by
  unfold State.hostReturn
  dsimp only
  split <;> simp

@[simp] theorem dataReceive_refs (s : State) (i : Nat) : (s.dataReceive i).refs = s.refs := by
  unfold State.dataReceive
  dsimp only
  (repeat' split) <;> simp

@[simp] theorem fgWoken_refs (s : State) (c f id : Nat) (st : W16) : (s.fgWoken c f id st).refs = s.refs := by simp [State.fgWoken]
@[simp] theorem hostWoken_refs (s : State) (f id : Nat) (st : W16) : (s.hostWoken f id st).refs = s.refs := rfl

@[simp] theorem wakeReceive_refs (s : State) (i : Nat) : (s.wakeReceive i).refs = s.refs := by
  unfold State.wakeReceive
  dsimp only
  (repeat' split) <;> simp

/-! Operations of Machine/HostCmd -/

@[simp] theorem hset_refs (s : State) (f i : Nat) (g : HCmd → HCmd) : (s.hset f i g).refs = s.refs := rfl
@[simp] theorem hfail_refs (s : State) (f i st : Nat) (code : W16) : (s.hfail f i st code).refs = s.refs := rfl
@[simp] theorem hstop_refs (s : State) (f i : Nat) (code : W16) : (s.hstop f i code).refs = s.refs := rfl

theorem copyNext_refs {s u : State} {f i : Nat} {h : HCmd} {t : Tgt} (e : s.copyNext f i h t = some u) : u.refs = s.refs := by
  unfold State.copyNext at e
  grind [freeze_refs, newReq_refs, hset_refs, writeIssued_refs, sendPkt_refs]

theorem msgNext_refs {s u : State} {f i : Nat} {h : HCmd} (e : s.msgNext f i h = some u) : u.refs = s.refs := by
  unfold State.msgNext at e
  grind [hfail_refs, newReq_refs, hset_refs, sendPkt_refs]

theorem ctrNext_refs {s u : State} {f i : Nat} {h : HCmd} (e : s.ctrNext f i h = some u) : u.refs = s.refs := by
  unfold State.ctrNext at e
  grind [hfail_refs, newReq_refs, hset_refs, sendPkt_refs]

theorem hostNext_refs {s u : State} {f i : Nat} (e : s.hostNext f i = some u) : u.refs = s.refs := by
  unfold State.hostNext at e
  grind [hstop_refs, copyNext_refs, msgNext_refs, ctrNext_refs]

@[simp] theorem hostPump_refs (f k : Nat) (s : State) : (State.hostPump f k s).refs = s.refs := by
  induction k generalizing s with
  | zero => rfl
  | succ k ih =>
    unfold State.hostPump
    grind [hostNext_refs]

@[simp] theorem hostRd_refs (s : State) (f i : Nat) (h : HCmd) : (s.hostRd f i h).refs = s.refs := by
  unfold State.hostRd
  grind [out_refs, refused_refs, setDbg_refs, objRead_refs, hset_refs, hfail_refs]

theorem hostWr_refsOk {s : State} (hs : refsOk s.refs) (f i : Nat) (h : HCmd) : refsOk (s.hostWr f i h).refs := by
  unfold State.hostWr
  dsimp only
  split
  · exact refsOk_of_eq hs (hfail_refs s f i 1 _)
  have hw (c : Bool) (p : Path) (idx sub : Nat) (b : List Byte) (v : W64) :
      refsOk (if c then s.domWrite p idx sub b else s.objWrite p idx sub v).2.refs := by
    split
    · exact domWrite_refsOk hs p idx sub b
    · exact objWrite_refsOk hs p idx sub v
  split
  · exact hw _ _ _ _ _ _
  · exact refsOk_of_eq (hw _ _ _ _ _ _) (hfail_refs _ f i 1 _)

@[simp] theorem placeNew_refs (s : State) (c : Nat) (ks : List Nat) : (s.placeNew c ks).refs = s.refs := by
  unfold State.placeNew
  refine (foldl_snd_refs (fun x k => ?_) _ _).trans rfl
  exact setCtx_refs _ _ _

@[simp] theorem createCtx_refs (s : State) (n : Nat) (x : Ctx) (t : List W32) : (s.createCtx n x t).refs = s.refs := by simp [State.createCtx]

@[simp] theorem hostCreate_refs (s : State) (f i : Nat) (h : HCmd) : (s.hostCreate f i h).refs = s.refs := by
  unfold State.hostCreate
  (repeat' split) <;> simp

theorem hostStart_refsOk {s : State} (hs : refsOk s.refs) (f i : Nat) : refsOk (s.hostStart f i).refs := by
  unfold State.hostStart
  dsimp only
  split
  case h_6 => exact hostWr_refsOk hs f i _
  all_goals refine refsOk_of_eq hs ?_
  · exact out_refs s _
  · exact (hset_refs _ _ _ _).trans ((setCtx_refs _ _ _).trans (newReq_refs s))
  · split <;> simp
  · split <;> simp
  · exact hostRd_refs s f i _
  · exact hostCreate_refs s f i _
  · split <;> simp
  · split <;> simp
  · rfl

theorem hcTake_refsOk {s : State} (hs : refsOk s.refs) (f : Nat) (e : List W64) (ext : List Byte) : refsOk (s.hcTake f e ext).refs := by
  unfold State.hcTake
  dsimp only
  split
  · exact hs
  split
  · exact refsOk_of_eq hs ((hfail_refs _ _ _ _ _).trans (setRing_refs s f _))
  · exact refsOk_of_eq (hostStart_refsOk (refsOk_of_eq hs (setRing_refs s f _)) f _) (hostPump_refs _ _ _)

@[simp] theorem hlDma_refs (s : State) (f : Nat) (ok : Bool) (data : List Byte) : (s.hlDma f ok data).refs = s.refs := by
  unfold State.hlDma
  split <;> simp

@[simp] theorem unhold_refs (s : State) (f i : Nat) : (s.unhold f i).refs = s.refs := by simp [State.unhold]
@[simp] theorem retire_refs (s : State) (f i : Nat) (h : HCmd) : (s.retire f i h).refs = s.refs := by simp [State.retire]

@[simp] theorem completionPost_refs (s : State) (f : Nat) : (s.completionPost f).refs = s.refs := by
  unfold State.completionPost
  dsimp only
  (repeat' split) <;> simp

/-! Operations of Machine/Mgmt -/

@[simp] theorem setSdo_refs (s : State) (x : Option Sdo) : (s.setSdo x).refs = s.refs := rfl
@[simp] theorem sdoFail_refs (s : State) (x : Sdo) (code : W32) : (s.sdoFail x code).refs = s.refs := by simp [State.sdoFail]

theorem sdoStore_refsOk {s : State} (hs : refsOk s.refs) (idx sub : Nat) (b : List Byte) : refsOk (s.sdoStore idx sub b).2.refs := by
  unfold State.sdoStore
  split
  · exact refsOk_of_eq hs (refused_refs s _ _ _ _)
  split
  · exact domWrite_refsOk hs .mgmt idx sub b
  split
  · exact refsOk_of_eq hs (refused_refs s _ _ _ _)
  · exact objWrite_refsOk hs .mgmt idx sub _

@[simp] theorem sdoLoad_refs (s : State) (idx sub : Nat) : (s.sdoLoad idx sub).2.refs = s.refs := by
  unfold State.sdoLoad
  grind [objRead_refs]

theorem sdoApply_refsOk {s : State} (hs : refsOk s.refs) (b idx sub : Nat) (data ans : List Byte) : refsOk (s.sdoApply b idx sub data ans).refs := by
  have hw := sdoStore_refsOk hs idx sub data
  unfold State.sdoApply
  split
  next e =>
    rw [e] at hw
    exact refsOk_of_eq hw (sdoOut_refs _ _ _)
  next e =>
    rw [e] at hw
    exact refsOk_of_eq hw (sdoAbort_refs _ _ _ _ _)

@[simp] theorem sdoOpenWrite_refs (s : State) (x : Sdo) (ans : List Byte) : (s.sdoOpenWrite x ans).refs = s.refs := by
  unfold State.sdoOpenWrite
  split <;> simp

theorem sdoDownload_refsOk {s : State} (hs : refsOk s.refs) (b c idx sub : Nat) (d : List Byte) : refsOk (s.sdoDownload b c idx sub d).refs :=
  refsOk_ite (sdoApply_refsOk hs b idx sub _ _) (refsOk_of_eq hs (sdoOpenWrite_refs s _ _))

@[simp] theorem sdoHold_refs (s : State) (b : Nat) : (s.sdoHold b).refs = s.refs := rfl

@[simp] theorem sdoUpload_refs (s : State) (b idx sub : Nat) : (s.sdoUpload b idx sub).refs = s.refs := by
  unfold State.sdoUpload
  grind [sdoOut_refs, sdoAbort_refs, setSdo_refs, sdoLoad_refs, sdoHold_refs]

@[simp] theorem sdoBlkDown_refs (s : State) (b c idx sub : Nat) (d : List Byte) :
    (s.sdoBlkDown b c idx sub d).refs = s.refs := by simp [State.sdoBlkDown]

@[simp] theorem sdoBlkUp_refs (s : State) (b c idx sub : Nat) (d : List Byte) : (s.sdoBlkUp b c idx sub d).refs = s.refs := by
  unfold State.sdoBlkUp
  grind [sdoOut_refs, sdoAbort_refs, setSdo_refs, sdoLoad_refs, sdoHold_refs]

theorem sdoStart_refsOk {s : State} (hs : refsOk s.refs) (b : Nat) (f : List Byte) : refsOk (s.sdoStart b f).refs := by
  unfold State.sdoStart
  dsimp only
  split
  · exact sdoDownload_refsOk hs b _ _ _ _
  · exact refsOk_of_eq hs (sdoUpload_refs s _ _ _)
  · exact refsOk_of_eq hs (sdoBlkDown_refs s _ _ _ _ _)
  · exact refsOk_of_eq hs (sdoBlkUp_refs s _ _ _ _ _)

theorem sdoFinish_refsOk {s : State} (hs : refsOk s.refs) (x : Sdo) (l ans : List Byte) : refsOk (s.sdoFinish x l ans).refs :=
  refsOk_ite (sdoApply_refsOk (refsOk_of_eq hs (setSdo_refs s none)) _ _ _ _ _) (refsOk_of_eq hs ((sdoFail_refs _ _ _).trans (refused_refs s _ _ _ _)))

theorem sdoDownSeg_refsOk {s : State} (hs : refsOk s.refs) (x : Sdo) (f : List Byte) : refsOk (s.sdoDownSeg x f).refs :=
  refsOk_ite (refsOk_of_eq hs (sdoFail_refs s x _)) (refsOk_ite (sdoFinish_refsOk hs x _ _)
    (refsOk_of_eq hs ((sdoOut_refs _ _ _).trans (setSdo_refs s _))))

@[simp] theorem sdoUpSeg_refs (s : State) (x : Sdo) (c : Nat) : (s.sdoUpSeg x c).refs = s.refs := by simp [State.sdoUpSeg]
@[simp] theorem sdoBlkSeg_refs (s : State) (x : Sdo) (f : List Byte) : (s.sdoBlkSeg x f).refs = s.refs := by simp [State.sdoBlkSeg]

theorem sdoBlkEnd_refsOk {s : State} (hs : refsOk s.refs) (x : Sdo) (f : List Byte) : refsOk (s.sdoBlkEnd x f).refs :=
  refsOk_ite (refsOk_of_eq hs (sdoFail_refs s x _)) (refsOk_ite (refsOk_of_eq hs (sdoFail_refs s x _)) (sdoFinish_refsOk hs x _ _))

@[simp] theorem sdoSendBlock_refs (s : State) (x : Sdo) : (s.sdoSendBlock x).refs = s.refs := by simp [State.sdoSendBlock]
@[simp] theorem sdoBlkUpFrame_refs (s : State) (x : Sdo) (f : List Byte) : (s.sdoBlkUpFrame x f).refs = s.refs := by simp [State.sdoBlkUpFrame]

theorem sdoGo_refsOk {s : State} (hs : refsOk s.refs) (x : Sdo) (f : List Byte) : refsOk (s.sdoGo x f).refs := by
  have fail : refsOk (s.sdoFail x sdoBadSeq).refs := refsOk_of_eq hs (sdoFail_refs s x _)
  unfold State.sdoGo
  dsimp only
  refine refsOk_ite hs (refsOk_ite (refsOk_of_eq hs (sdoBlkSeg_refs s x f)) (refsOk_ite (refsOk_of_eq hs (sdoAbort_refs s _ _ _ _)) ?_))
  split
  · exact refsOk_ite (sdoDownSeg_refsOk hs x f) fail
  · exact refsOk_ite (refsOk_of_eq hs (sdoUpSeg_refs s x _)) fail
  · exact sdoBlkEnd_refsOk hs x f
  · exact refsOk_of_eq hs (sdoBlkUpFrame_refs s x f)

theorem sdoFrame_refsOk {s : State} (hs : refsOk s.refs) (b : Nat) (f : List Byte) : refsOk (s.sdoFrame b f).refs := by
  have abort (i j : Nat) (c : W32) : refsOk (s.sdoAbort b i j c).refs := refsOk_of_eq hs (sdoAbort_refs s b i j c)
  unfold State.sdoFrame
  dsimp only
  split
  · exact refsOk_ite (sdoGo_refsOk hs _ f) (refsOk_ite hs (abort _ _ _))
  · exact refsOk_ite hs (refsOk_ite (sdoStart_refsOk hs b f) (abort _ _ _))

@[simp] theorem lssOut_refs (s : State) (l : List Byte) : (s.lssOut l).refs = s.refs := by simp [State.lssOut]
@[simp] theorem lssSelect_refs (s : State) (k v : Nat) : (s.lssSelect k v).refs = s.refs := by simp [State.lssSelect]
@[simp] theorem lssNode_refs (s : State) (n : Nat) : (s.lssNode n).refs = s.refs := by simp [State.lssNode]
@[simp] theorem lssStore_refs (s : State) : s.lssStore.refs = s.refs := by simp [State.lssStore]

@[simp] theorem tpdoSend_refs (s : State) (k : Nat) : (s.tpdoSend k).refs = s.refs := by
  unfold State.tpdoSend
  grind [readAll_refs, canOut_refs]

@[simp] theorem jtagKeep_refs (s : State) (v : W64) (sub : Nat) (bad : Bool) : (s.jtagKeep v sub bad).refs = s.refs := rfl

theorem jtagAccess_refsOk {s : State} (hs : refsOk s.refs) (sub : Nat) (wr : Bool) (v : W64) : refsOk (s.jtagAccess sub wr v).refs := by
  unfold State.jtagAccess
  split
  · exact hs
  split
  · have hw := objWrite_refsOk hs .jtag 0x2B20 sub v
    split
    next e =>
      rw [e] at hw
      exact hw
    next e =>
      rw [e] at hw
      exact hw
  split
  · exact hs
  · refine refsOk_of_eq hs ?_
    have hr := objRead_refs s .jtag 0x2B20 sub
    grind [jtagKeep_refs, draw_refs]

end Sys2Proof.Proofs
end

section
/-! PROOFS. The references' invariant: the commands, and a step (R443 to R445). -/

open Sys2Proof Sys2Proof.Machine Sys2Proof.Claims Sys2Proof.Laws

namespace Sys2Proof.Proofs

theorem writeAnswer_refs {eff : Eff} (he : ∀ u, (eff u).2.refs = u.refs) (s : State) (p : Path) (idx sub : Nat) (v : W64) :
    (s.writeAnswer p idx sub v eff).refs = s.refs :=
  writeAnswer_keeps (P := (· = s.refs)) (fun u hu => (he u).trans hu) rfl p idx sub v

theorem domAnswer_refs {eff : Eff} (he : ∀ u, (eff u).2.refs = u.refs) (s : State) (p : Path) (idx sub : Nat) :
    (s.domAnswer p idx sub eff).refs = s.refs :=
  domAnswer_keeps (P := (· = s.refs)) (fun u hu => (he u).trans hu) rfl p idx sub

theorem readAnswer_refs {rd : Rd} (hr : ∀ u, (rd u).2.refs = u.refs) (s : State) (p : Path) (idx sub : Nat) :
    (s.readAnswer p idx sub rd).refs = s.refs :=
  readAnswer_keeps (P := (· = s.refs)) (fun u hu => (hr u).trans hu) rfl p idx sub

theorem onUnit_keeps {s t : State} {ok : Bool} (h : onUnit ok s = .next t) (hs : refsOk s.refs) : refsOk t.refs :=
  refsOk_of_eq hs (onUnit_refs h rfl)

section
variable {s t : State}

theorem pairCheckArrival_refs {c : Nat} {crc : W32} (h : execPairCheckArrival c crc s = .next t) : t.refs = s.refs := by
  refine onUnit_refs h ?_
  dsimp only
  (repeat' split) <;> simp

theorem gatherFullResolve_refs {c : Nat} (h : execGatherFullResolve c s = .next t) : t.refs = s.refs := by
  refine onUnit_refs h ?_
  dsimp only
  (repeat' split) <;> simp

theorem storeCellRegWriteArrival_refs {c k : Nat} (h : execStoreCellRegWriteArrival c k s = .next t) : t.refs = s.refs := by
  refine onUnit_refs h ?_
  dsimp only
  (repeat' split) <;> simp

theorem slSegmentArrival_refs {c d : Nat} (h : execSlSegmentArrival c d s = .next t) : t.refs = s.refs := by
  refine onUnit_refs h ?_
  dsimp only
  (repeat' split) <;> simp

theorem hcSliceTime_refs {m : Nat} (h : execHcSliceTime m s = .next t) : t.refs = s.refs := by
  refine onUnit_refs h ?_
  dsimp only
  (repeat' split) <;> simp

theorem linkWordArrival_refs {c k d : Nat} (h : execLinkWordArrival c k d s = .next t) : t.refs = s.refs := by
  refine onUnit_refs h ?_
  dsimp only
  split <;> simp

theorem edgeSlotWrite_refs {c k : Nat} (h : execEdgeSlotWrite c k s = .next t) : t.refs = s.refs := by
  refine onUnit_refs h ?_
  dsimp only
  split <;> simp

theorem mfpHandover_refs {n : Nat} (h : execMfpHandover n s = .next t) : t.refs = s.refs := by
  refine onUnit_refs h ?_
  dsimp only
  split <;> simp

theorem passThroughForward_refs {c k d : Nat} (h : execPassThroughForward c k d s = .next t) : t.refs = s.refs := by
  refine onUnit_refs h ?_
  split <;> simp

theorem ownerChangeFill_refs {c : Nat} (h : execOwnerChangeFill c s = .next t) : t.refs = s.refs := by
  refine onUnit_refs h ?_
  split <;> simp

theorem switchRestoreDone_refs {m : Nat} (h : execSwitchRestoreDone m s = .next t) : t.refs = s.refs := by
  refine onUnit_refs h ?_
  split <;> simp

theorem wakeResend_refs {c k : Nat} (h : execWakeResend c k s = .next t) : t.refs = s.refs := by
  refine onUnit_refs h ?_
  (repeat' split) <;> simp

theorem quantumExpire_refs {n : Nat} (h : execQuantumExpire n s = .next t) : t.refs = s.refs := by
  refine onUnit_refs h ?_
  (repeat' split) <;> simp

theorem rxEntryExpire_refs {k : Nat} (h : execRxEntryExpire k s = .next t) : t.refs = s.refs := by
  cases h
  split <;> simp

theorem dbgGrantFillDone_refs (h : execDbgGrantFillDone s = .next t) : t.refs = s.refs := by
  cases h
  split <;> simp

theorem sdoTimeout_refs (h : execSdoTimeout s = .next t) : t.refs = s.refs := by
  cases h
  split <;> simp

theorem emcySend_refs (h : execEmcySend s = .next t) : t.refs = s.refs := by
  cases h
  split <;> simp

theorem ackIntervalExpire_refs {k : Nat} (h : execAckIntervalExpire k s = .next t) : t.refs = s.refs := by
  cases h
  split <;> simp

theorem nmtCommand_refs {cs node : Nat} (h : execNmtCommand cs node s = .next t) : t.refs = s.refs := by
  cases h
  (repeat' split) <;> simp

theorem persistStore_refs {idx sub : Nat} (h : execPersistStore idx sub s = .next t) : t.refs = s.refs := by
  cases h
  (repeat' split) <;> simp

theorem slopeGrant_refs (l : List (Nat × Bool)) (b : Nat) (s : State) : (State.slopeGrant l b s).refs = s.refs := by
  induction l generalizing b s with
  | nil => rfl
  | cons r t ih =>
    unfold State.slopeGrant
    refine refs_ite (ih b s) ?_
    cases b with
    | zero => rfl
    | succ b => exact (ih b _).trans (slopeStep_refs s r)

theorem slopeGrantTick_refs {reqs : List (Nat × Bool)} (h : execSlopeGrantTick reqs s = .next t) : t.refs = s.refs :=
  onUnit_refs h (refs_ite rfl (slopeGrant_refs reqs 200 s))

theorem dbgMemRead_refs {p : Path} (h : execDbgMemRead p s = .next t) : t.refs = s.refs :=
  onUnit_refs h (refs_ite rfl (readAnswer_refs (dbgMemRd_refs p) s _ _ _))

theorem stepSyncPulseEnd_refs (h : execStepSyncPulseEnd s = .next t) : t.refs = s.refs := by
  cases h
  refine refs_ite rfl ((foldl_refs (fun s k => ?_) _ _).trans rfl)
  exact (out_refs _ _).trans (setPin_refs s k _)

/-! Commands that may change the references -/

theorem converterShort_refsOk {k : Nat} (hs : refsOk s.refs) (h : execConverterShort k s = .next t) : refsOk t.refs :=
  onUnit_keeps h (convShort_refsOk hs k)

theorem converterRampEnd_refsOk {k pct : Nat} (hs : refsOk s.refs) (h : execConverterRampEnd k pct s = .next t) : refsOk t.refs :=
  onUnit_keeps h (refsOk_ite hs (refsOk_ite (convShort_refsOk hs k) (refsOk_of_eq hs (convOn_refs s k))))

theorem pwrRestart_refsOk {p : Path} {v : W64} (hs : refsOk s.refs) (h : execPwrRestart p v s = .next t) : refsOk t.refs :=
  onUnit_keeps h (writeAnswer_keeps (fun _ hu => pwrRestartEff_refsOk hu) hs _ _ _ _)

theorem refSelWrite_refsOk {p : Path} {v : W64} (hs : refsOk s.refs) (h : execRefSelWrite p v s = .next t) : refsOk t.refs :=
  onUnit_keeps h (writeAnswer_keeps (fun _ hu => refSelEff_refsOk hu p v) hs _ _ _ _)

theorem fwImageWrite_refsOk {p : Path} {img : List Byte} (hs : refsOk s.refs) (h : execFwImageWrite p img s = .next t) : refsOk t.refs :=
  onUnit_keeps h (domAnswer_keeps (fun _ hu => fwImageEff_refsOk hu img) hs _ _ _)

theorem objectWrite_refsOk {p : Path} {idx sub : Nat} {v : W64} (hs : refsOk s.refs) (h : execObjectWrite p idx sub v s = .next t) : refsOk t.refs :=
  onUnit_keeps h (writeAnswer_keeps (fun _ hu => scalarEff_refsOk hu p idx sub v) hs _ _ _ _)

theorem dwGoCommit_refsOk {h : Nat} (hs : refsOk s.refs) (e : execDwGoCommit h s = .next t) : refsOk t.refs :=
  onUnit_keeps e (refsOk_ite (dwCommit_refsOk hs h) (refsOk_of_eq hs (unanswered_refs s _)))

theorem sdoRequest_refsOk {bus : Nat} {frame : List Byte} (hs : refsOk s.refs) (h : execSdoRequest bus frame s = .next t) : refsOk t.refs :=
  onUnit_keeps h (refsOk_ite (sdoFrame_refsOk hs bus frame) hs)

theorem jtagUpdateDr_refsOk {dr : BitVec 73} (hs : refsOk s.refs) (h : execJtagUpdateDr dr s = .next t) : refsOk t.refs := by
  cases h
  exact jtagAccess_refsOk (s := { s with tapDbg := true }) hs _ _ _

theorem resetNAssert_refsOk {us : Nat} (hs : refsOk s.refs) (h : execResetNAssert us s = .next t) : refsOk t.refs := by
  cases h
  exact refsOk_ite (resetN_refsOk s) hs

theorem oscQualifyWindow_refsOk {diff : Int} (hs : refsOk s.refs) (h : execOscQualifyWindow diff s = .next t) : refsOk t.refs := by
  cases h
  exact oscWindow_refsOk hs diff

theorem oscArbitrationDone_refsOk {a b : Int} (hs : refsOk s.refs) (h : execOscArbitrationDone a b s = .next t) : refsOk t.refs := by
  cases h
  exact arbitrate_refsOk hs a b
end

/-- Every command keeps the references' invariant. -/
theorem exec_refsOk {i : Instr} {s t : State} (hs : refsOk s.refs) (h : exec i s = .next t) : refsOk t.refs := by
  cases i <;> dsimp only [exec] at h
  case converterShort => exact converterShort_refsOk hs h
  case converterRampEnd => exact converterRampEnd_refsOk hs h
  case pwrRestart => exact pwrRestart_refsOk hs h
  case refSelWrite => exact refSelWrite_refsOk hs h
  case fwImageWrite => exact fwImageWrite_refsOk hs h
  case objectWrite => exact objectWrite_refsOk hs h
  case dwGoCommit => exact dwGoCommit_refsOk hs h
  case sdoRequest => exact sdoRequest_refsOk hs h
  case jtagUpdateDr => exact jtagUpdateDr_refsOk hs h
  case resetNAssert => exact resetNAssert_refsOk hs h
  case oscQualifyWindow => exact oscQualifyWindow_refsOk hs h
  case oscArbitrationDone => exact oscArbitrationDone_refsOk hs h
  case refEdgeLoss => exact refEdgeLoss_refsOk hs h
  case refSwitchStart => exact refSwitchStart_refsOk hs h
  case refSwitchStop => exact refSwitchStop_refsOk hs h
  case hcTake f e ext => exact onUnit_keeps h (hcTake_refsOk hs f e ext)
  case vkeepOff =>
    cases h
    exact dark_refsOk s
  case firmwareBoot =>
    cases h
    exact firmwareBoot_refsOk hs
  case refSwitchRestart =>
    cases h
    exact refsOk_ite (refRestart_refsOk hs) hs
  all_goals refine refsOk_of_eq hs ?_
  case pairCheckArrival => exact pairCheckArrival_refs h
  case gatherFullResolve => exact gatherFullResolve_refs h
  case storeCellRegWriteArrival => exact storeCellRegWriteArrival_refs h
  case genDescStart => exact genDescStart_refs h
  case genElementMove => exact genElementMove_refs h
  case slSegmentArrival => exact slSegmentArrival_refs h
  case hcSliceTime => exact hcSliceTime_refs h
  case linkWordArrival => exact linkWordArrival_refs h
  case edgeSlotWrite => exact edgeSlotWrite_refs h
  case mfpHandover => exact mfpHandover_refs h
  case passThroughForward => exact passThroughForward_refs h
  case ownerChangeFill => exact ownerChangeFill_refs h
  case switchRestoreDone => exact switchRestoreDone_refs h
  case wakeResend => exact wakeResend_refs h
  case quantumExpire => exact quantumExpire_refs h
  case rxEntryExpire => exact rxEntryExpire_refs h
  case dbgGrantFillDone => exact dbgGrantFillDone_refs h
  case sdoTimeout => exact sdoTimeout_refs h
  case emcySend => exact emcySend_refs h
  case ackIntervalExpire => exact ackIntervalExpire_refs h
  case nmtCommand => exact nmtCommand_refs h
  case persistStore => exact persistStore_refs h
  case slopeGrantTick => exact slopeGrantTick_refs h
  case dbgMemRead => exact dbgMemRead_refs h
  case stepSyncPulseEnd => exact stepSyncPulseEnd_refs h
  case fgPacketIssue => exact fgPacketIssue_refs h
  case cqTailDoorbell | slotCtlSkip | slotCtlRetry | gqClose | pairCtlWrite | registerWrite | gqOccPublish | clauseStart | tileStart |
      shadowLoadDone | weightSwap | activationRead | kmnSegmentStart | bankDrainStart | outputSegmentEmit | clauseComplete | engineWatchdogExpire
      | engineFallbackEntry | slotFreeze | slotWake | linkCreditReturn | errorCompletion | ctwSignal | ctwRelease | fallbackIssue |
      reduceOnArrivalAdd | opFill | opCopy | opUnitDone | eccWriteback | switchBufferDrain | mwUnitsIncrease | mwGranuleFillDone | mwRowSpare |
      partitionReset | partitionResetDone | mwLaneRetrain | readBufferExpire | hcCommit | commitComplete | commitFail | msgDeliver | spillDeliver
      | counterAdd | watchRegister | watchWake | wakeAck | fgTake | fgStart | dispatchOccReadReturn | fgComplete | digestCheck | fcModeChange |
      tyFrameReceive | tyRekey | tyOldKeyExpire | pauseExpire | pauseRepeat | laneRetrainStart | laneTrainDone | laneRequestRetry | sqTailDoorbell
      | cqHeadDoorbell | ringConfigWrite | completionPost | ctxFillDone | contextSwitchStart | hlPortDown | perstAssert | perstRelease |
      linkKeyTimeout | linkKeyRetry | ideKeyProg | freezeRequest | challengeLapse | tokenOpenEntry | tokenReleaseEntry | tokenReleaseAll |
      tokenTenantDebugStart | tokenTenantDebugEnd | pbRunDone | errorReport | combHeartbeat | heartbeatMiss | combFail | combSpareJoinDone |
      converterRetry | converterRetryReset | ibcAlert | thermalTick | throttleStep | avsTick | bistDone | swarmAnswer | portLightReceived |
      portUnconnected | portTrainRetry | neighbourCheck | rollToken | rollReport | spareRemap | spareRegionCopyDone | tpdoTimerExpire | dwSelWrite
      | dwGoTransfer | traceRecordWrite | unitGate | unitWake | peekTimeout | dbgHalt | dbgResume | dbgStep | stepSyncInEdge | hlLinkTrained |
      hlDmaCompletion | ctxDestroyDone | canBusOff | canBusRecover | mwFrame | spdmRequest | spdmCosign | mwCalibrateDone => exact onUnit_refs h (by simp)
  case cmDwWrite | mwResWrite | epochRewind | fgRingWrite | tyCtlWrite | opFrzRelease | pbRun | elogClear | sscOutWrite | fwCommit | rollPlanWrite
      | rollStart | maintReq | snapTake | pcSelWrite | pcValueWrite | pcStickyClear | trCfgWrite | dbgMemWrite | dbgRegWrite | mfpCfgWrite =>
    exact onUnit_refs h (writeAnswer_refs (fun _ => by simp) s _ _ _ _)
  case slRxWrite | pwrCapWrite | ctxSelWrite =>
    exact onUnit_refs h (writeAnswer_refs (fun u => storeObj_refs u _ _ _ _) s _ _ _ _)
  case pcLatch p v => exact onUnit_refs h (writeAnswer_refs (fun u => latch_refs u p) s _ _ _ _)
  case dbgEnd => exact onUnit_refs h (writeAnswer_refs grantEnd_refs s _ _ _ _)
  case ctxNonceWrite | tenantKeyWrite | dbgGrant | pbImageWrite | snapListWrite => exact onUnit_refs h (domAnswer_refs (fun _ => by simp) s _ _ _)
  case challengeRead | frzDataRead | dbgChallengeRead | cperNextRead | dbgRegRead => exact onUnit_refs h (readAnswer_refs (fun _ => by simp) s _ _ _)
  case pktParse | pktHop | pktAccept | ackReceive | nackReceive | busyReceive | dataReceive | retxTimeout | eventPost | dbgGrantExpire | elogIntake
      | inputUndervoltage | inputOvervoltage | inputRecover | lockoutClear | trip | governorTick | pwrAlertPin | floorExit | coolantTick |
      energyTick | swarmBroadcast | moduleReady | rollDeadline | rollCount | tsSyncTick | lssCommand | heartbeatProduce | uartReceive |
      wakeReceive | frameRaise | dbgEndingDone | jtagTrst | powerGood | maintActivityEnd =>
    cases h
    simp
  case cBeq | cBne | cBlt | cBge | cBltu | cBgeu => exact branch_refs h
  case cJal => exact cJal_refs h
  case cJr => exact cJr_refs h
  case cLd => exact cLd_refs h
  case cSt => exact cSt_refs h
  case cVld => exact cVld_refs h
  case cVst => exact cVst_refs h
  case cGld => exact cGld_refs h
  case cGst => exact cGst_refs h
  case cSpx => exact cSpx_refs h
  case cMfs => exact cMfs_refs h
  case cMts => exact cMts_refs h
  case cVpop => exact cVpop_refs h
  case cWsnd => exact cWsnd_refs h
  case cCadd => exact cCadd_refs h
  case cCaddRemote => exact cCaddRemote_refs h
  case cCwait => exact cCwait_refs h
  case cCtest => exact cCtest_refs h
  case cCrd => exact cCrd_refs h
  case cSrr => exact cSrr_refs h
  case cSrw => exact cSrw_refs h
  case cSpawn => exact cSpawn_refs h
  case cLock => exact cLock_refs h
  case cUnlock => exact cUnlock_refs h
  case cEnd => exact cEnd_refs h
  all_goals exact cellPure_refs h

theorem tick_refs (s : State) : s.tick.refs = s.refs := by
  unfold State.tick
  split
  · rfl
  · split <;> rfl

/-- Settles O59: a step is one SCLK, which leaves the references, or a command, and each command keeps their invariant. -/
theorem stepKeepsReferences : Obligations.StepKeepsReferences := by
  intro s t hs h
  unfold step at h
  split at h
  · cases h
    rwa [tick_refs]
  · refine exec_refsOk ?_ h
    exact hs

end Sys2Proof.Proofs
end

section
/-! PROOFS. A step (R443, R498, R499). -/

open Sys2Proof Sys2Proof.Machine Sys2Proof.Claims Sys2Proof.Laws

namespace Sys2Proof.Proofs

variable {s : State}

theorem step_idle (h : s.pending = []) : step s = .next s.tick := by rw [step, h]

theorem tick_stopped (h : s.refs.stopped = true) : s.tick = s := by simp [State.tick, h]

theorem tick_held (h : s.refs.stopped = false) (hold : s.boot.tsHold = true) : s.tick = { s with boot := { s.boot with tsHold := false } } := by
  simp [State.tick, h, hold]

theorem tick_counts (h : s.refs.stopped = false) (hold : s.boot.tsHold = false) : s.tick = { s with ts := s.ts + 1 } := by
  simp [State.tick, h, hold]

/-- Settles O1: `step` matches on the queue. -/
theorem stepRunsFrontCommand : Obligations.StepRunsFrontCommand := fun _ _ _ => rfl

/-- Settles O2: on an empty queue the step is the tick, of which each clause is one case. -/
theorem idleStepCountsTs : Obligations.IdleStepCountsTs := by
  intro s idle
  rw [step_idle idle]
  exact ⟨fun h => congrArg _ (tick_stopped h), fun h hold => congrArg _ (tick_counts h hold), fun h hold => congrArg _ (tick_held h hold)⟩

end Sys2Proof.Proofs
end

section
/-! PROOFS. An access to the dictionary under the test of its unit: the effect of the object's rule, and its answer (R490). -/

open Sys2Proof Sys2Proof.Machine Sys2Proof.Claims Sys2Proof.Laws

namespace Sys2Proof.Proofs

variable {ok : Bool} {p : Path} {idx sub : Nat} {s t : State}

theorem unit_write_accepts {v : W64} {eff : Eff} (hok : ok = true) (h : writable p idx sub v s) (he : eff s = (none, t)) :
    onUnit ok (s.writeAnswer p idx sub v eff) = accepts p idx sub t := by
  rw [onUnit_next hok, write_accepted h he]; rfl

theorem unit_write_refuses {v : W64} {eff : Eff} {r : Refuse} (hok : ok = true) (h : writable p idx sub v s)
    (he : eff s = (some r, t)) : onUnit ok (s.writeAnswer p idx sub v eff) = refuses p idx sub r t := by
  rw [onUnit_next hok, write_refused h he]; rfl

theorem unit_dom_accepts {eff : Eff} (hok : ok = true) (h : domWritable p idx sub s) (he : eff s = (none, t)) :
    onUnit ok (s.domAnswer p idx sub eff) = accepts p idx sub t := by
  rw [onUnit_next hok, dom_accepted h he]; rfl

theorem unit_dom_refuses {eff : Eff} {r : Refuse} (hok : ok = true) (h : domWritable p idx sub s)
    (he : eff s = (some r, t)) : onUnit ok (s.domAnswer p idx sub eff) = refuses p idx sub r t := by
  rw [onUnit_next hok, dom_refused h he]; rfl

theorem unit_read_bytes {rd : Rd} {b : List Byte} (hok : ok = true) (h : readable p idx sub s)
    (he : rd s = (.ok (.bytes b), t)) :
    onUnit ok (s.readAnswer p idx sub rd) = .next (t.out (.answerBytes p idx sub 0 b)) := by
  rw [onUnit_next hok, read_bytes h he]

end Sys2Proof.Proofs
end

section
/-! PROOFS. Tenant keys, challenges and context reports (R370, R378). -/

open Sys2Proof Sys2Proof.Machine Sys2Proof.Claims Sys2Proof.Laws

namespace Sys2Proof.Proofs

variable {n : Nat} {s : State} {b : List Byte}

/-- R370: only the first key is taken, and only a point of the curve. -/
theorem tenantKeyEff_key (h : b.length = 97) : tenantKeyEff n b s =
    if (s.ctx n).tkey = [] ∧ Config.onCurve b = true then (none, s.setCtx n { s.ctx n with tkey := b })
    else (some (ownCode 0x8007#16), s) := by
  unfold tenantKeyEff
  rw [if_neg (not_not.mpr h)]
  by_cases hk : (s.ctx n).tkey = [] ∧ Config.onCurve b = true
  · rw [if_pos hk, if_neg (by simp [hk.1, hk.2])]
  · rw [if_neg hk, if_pos]
    · rfl
    · rcases not_and_or.mp hk with h1 | h1
      · exact .inl (by simp [h1])
      · exact .inr (by simp [h1])

theorem tenantKeyEff_badLength (h : b.length ≠ 97) : tenantKeyEff n b s = (some badLength, s) := if_pos h

theorem ctxNonceEff_nonce (h : b.length = 32) :
    ctxNonceEff n b s = (none, s.setCtx n { s.ctx n with report := s.reportOf n b }) := if_neg (not_not.mpr h)

theorem ctxNonceEff_badLength (h : b.length ≠ 32) : ctxNonceEff n b s = (some badLength, s) := if_pos h

/-- Settles O24: each access passes the dictionary's tests by hypothesis, and its object's rule decides as the branches above say. -/
theorem keysChallengesReports : Obligations.KeysChallengesReports := by
  unfold Obligations.KeysChallengesReports
  intro n s hn
  have hlt : n < 16 := of_decide_eq_true hn
  refine ⟨fun key hw hl => ?_, fun key hw hl => ?_, fun hr => ?_, ?_, ?_, fun b hw hl => ?_, fun b hw hl => ?_⟩
  · have hk := tenantKeyEff_key (n := n) (s := s) hl
    split <;> rename_i hc
    · exact unit_dom_accepts hn hw (hk.trans (if_pos hc))
    · exact unit_dom_refuses hn hw (hk.trans (if_neg hc))
  · exact unit_dom_refuses hn hw (tenantKeyEff_badLength hl)
  · exact unit_read_bytes hn hr rfl
  · change onUnit (decide (n < 17)) (if n = 16 then _ else _) = _
    rw [onUnit_next (decide_eq_true (by omega)), if_neg (by omega)]
  · rfl
  · exact unit_dom_accepts hn hw (ctxNonceEff_nonce hl)
  · exact unit_dom_refuses hn hw (ctxNonceEff_badLength hl)

end Sys2Proof.Proofs
end

section
/-! PROOFS. The error log and CPER records (R406 to R411). -/

open Sys2Proof Sys2Proof.Machine Sys2Proof.Claims Sys2Proof.Laws

namespace Sys2Proof.Proofs

variable {s : State} {r : Report} {l : List Report}

/-! The count of events since power-on (R417) changes nothing but its objects -/

theorem relCount_setObj (s : State) (r : Report) : s.relCount r = s ∨ ∃ sub v, s.relCount r = s.setObj 0 0x2900 sub v := by
  unfold State.relCount
  split
  · exact .inr ⟨_, _, rfl⟩
  · split
    · exact .inr ⟨_, _, rfl⟩
    · exact .inl rfl

@[simp] theorem relCount_elog : (s.relCount r).elog = s.elog := by
  obtain h | ⟨sub, v, h⟩ := relCount_setObj s r <;> simp [h]
@[simp] theorem relCount_intake : (s.relCount r).intake = s.intake := by
  obtain h | ⟨sub, v, h⟩ := relCount_setObj s r <;> simp [h]
@[simp] theorem relCount_cper : (s.relCount r).cper = s.cper := by
  obtain h | ⟨sub, v, h⟩ := relCount_setObj s r <;> simp [h]
@[simp] theorem relCount_mgmt : (s.relCount r).mgmt = s.mgmt := by
  obtain h | ⟨sub, v, h⟩ := relCount_setObj s r <;> simp [h]

@[simp] theorem emcyAdd_elog (i : Nat) : (s.emcyAdd r i).elog = s.elog := by unfold State.emcyAdd; split <;> rfl
@[simp] theorem emcyAdd_intake (i : Nat) : (s.emcyAdd r i).intake = s.intake := by unfold State.emcyAdd; split <;> rfl

section Cper
variable {phase action sev : Nat} {boot : Bool}
@[simp] theorem cperAdd_elog : (s.cperAdd r phase action sev boot).elog = s.elog := by
  unfold State.cperAdd; dsimp only; split <;> rfl
@[simp] theorem cperAdd_intake : (s.cperAdd r phase action sev boot).intake = s.intake := by
  unfold State.cperAdd; dsimp only; split <;> rfl
end Cper

/-- What the intake of a new source's report does to anything but the queue and the log: an EMCY entry, a CPER record, a character (R408, R411, R483). -/
def intakeTail (s : State) (r : Report) (i : Nat) : State :=
  let s2 := if r.sev = 1 || powerEvent r.code then s.emcyAdd r i else s
  let s3 := if r.sev = 1 && !(ownCper r.code) then s2.cperAdd r 2 0 0 false else s2
  if (s3.pinOf 6).func = 5 && !(s3.pinOf 6).parked then s3.out (.uart r.code) else s3

theorem intakeTail_elog (i : Nat) : (intakeTail s r i).elog = s.elog := by
  simp only [intakeTail, apply_ite State.elog, State.out_elog, cperAdd_elog, emcyAdd_elog, ite_self]

theorem intakeTail_intake (i : Nat) : (intakeTail s r i).intake = s.intake := by
  simp only [intakeTail, apply_ite State.intake, State.out_intake, cperAdd_intake, emcyAdd_intake, ite_self]

theorem lfind_none {α : Type} {p : α → Bool} : ∀ {l : List α}, (∀ e, e ∈ l → p e = false) → lfind p l = none
  | [], _ => rfl
  | x :: l, h => by
    rw [lfind, h x List.mem_cons_self, lfind_none fun e he => h e (List.mem_cons_of_mem x he)]; rfl

theorem elogIntake_idle (h : s.intake = []) : s.elogIntake = s := by
  unfold State.elogIntake
  rw [h]

section Intake

variable (h : s.intake = r :: l)
include h

/-- R408: a report of a source that has an entry is coalesced with it. -/
theorem elogIntake_coalesced {i : Nat} {e : ELog} (he : s.elog[i]? = some e)
    (hf : lfind (fun e => sameSource e.rep r) s.elog = some i) :
    s.elogIntake.intake = l ∧ s.elogIntake.elog =
      lset s.elog i { e with count := if e.count = 0xFFFFFFFF#32 then e.count else e.count + 1, last := s.ts } := by
  simp only [State.elogIntake, h, relCount_elog, hf, he]
  split <;> simp

/-- R408: a report of a new source takes the next entry while there is one. -/
theorem elogIntake_new (hl : s.elog.length < 4096) (hf : lfind (fun e => sameSource e.rep r) s.elog = none) :
    s.elogIntake.intake = l ∧ s.elogIntake.elog = s.elog ++ [⟨r, 1, s.ts, s.ts⟩] := by
  have e : s.elogIntake =
      intakeTail { State.relCount { s with intake := l } r with elog := s.elog ++ [⟨r, 1, s.ts, s.ts⟩] } r s.elog.length := by
    simp only [State.elogIntake, h, relCount_elog, hf, if_neg (not_le.mpr hl)]
    rfl
  rw [e, intakeTail_elog, intakeTail_intake]
  exact ⟨relCount_intake, rfl⟩

/-- R408: with every entry in use a new source is counted only. -/
theorem elogIntake_full (hl : 4096 ≤ s.elog.length) (hf : lfind (fun e => sameSource e.rep r) s.elog = none) :
    s.elogIntake.intake = l ∧ s.elogIntake.elog = s.elog ∧ s.elogIntake.cper = s.cper ∧ s.elogIntake.mgmt = s.mgmt := by
  have e : s.elogIntake = (State.relCount { s with intake := l } r).incObj 0x2900 2 32 1 := by
    simp only [State.elogIntake, h, relCount_elog, hf, if_pos hl]
  simp [e, State.incObj]

end Intake

/-- Settles O35: an intake either finds the source's entry, or takes the next entry, or finds the log full. -/
theorem errorLogAndRecords : Obligations.ErrorLogAndRecords := by
  unfold Obligations.ErrorLogAndRecords
  intro s
  refine ⟨fun r hr => ?_, fun r l h => ⟨fun i e he hs hb => ?_, fun hl hn => ?_, fun hl hn => ?_⟩, fun h => ?_, fun p v hp hw => ?_,
    fun p hp hr => ⟨fun r l h => ?_, fun h => ?_⟩⟩
  · have hx : exec (.errorReport r) s = .next (s.report r) := onUnit_next (decide_eq_true hr) _
    rw [hx, State.report]
    exact ⟨fun hl => by rw [if_pos hl], fun hl => by rw [if_neg (not_lt.mpr hl)]⟩
  · exact ⟨_, rfl, elogIntake_coalesced h he (lfind_first he hs hb)⟩
  · exact ⟨_, rfl, elogIntake_new h hl (lfind_none hn)⟩
  · exact ⟨_, rfl, elogIntake_full h hl (lfind_none hn)⟩
  · change execElogIntake s = _
    rw [execElogIntake, elogIntake_idle h]
  · exact unit_write_accepts hp hw rfl
  · exact unit_read_bytes hp hr (by unfold cperRd; rw [h])
  · exact unit_read_bytes hp hr (by unfold cperRd; rw [h])

end Sys2Proof.Proofs
end

section
/-! PROOFS. Freezing and release (R375 to R377, R381). -/

open Sys2Proof Sys2Proof.Machine Sys2Proof.Claims Sys2Proof.Laws

namespace Sys2Proof.Proofs

variable {s t : State} {n : Option Nat} {m : Master} {code : W16} {addr : W64} {c : Nat} {a : Area}

@[simp] theorem report_opFrz (r : Report) : (s.report r).opFrz = s.opFrz := by unfold State.report; split <;> rfl

/-! An area, resident or saved -/

@[simp] theorem setAreaAt_ctxs : (s.setAreaAt n c a).ctxs = s.ctxs := by
  cases n
  · rfl
  · exact setAreaOf_ctxs ..

theorem setAreaAt_setComb (s : State) (n : Option Nat) (c : Nat) (a : Area) : ∃ m : Comb, s.setAreaAt n c a = s.setComb c m := by
  cases n with
  | none => exact ⟨_, rfl⟩
  | some n =>
    rw [State.setAreaAt, State.setAreaOf]
    split <;> exact ⟨_, rfl⟩

@[simp] theorem setAreaAt_events : (s.setAreaAt n c a).events = s.events := by
  obtain ⟨m, e⟩ := setAreaAt_setComb s n c a
  rw [e]; rfl
@[simp] theorem setAreaAt_opFrz : (s.setAreaAt n c a).opFrz = s.opFrz := by
  obtain ⟨m, e⟩ := setAreaAt_setComb s n c a
  rw [e]; rfl
@[simp] theorem setAreaAt_rings : (s.setAreaAt n c a).rings = s.rings := by
  obtain ⟨m, e⟩ := setAreaAt_setComb s n c a
  rw [e]; rfl

@[simp] theorem areaAt_setAreaAt_same : (s.setAreaAt n c a).areaAt n c = a := by
  cases n with
  | none => exact State.area_setArea_same s c a
  | some n => exact areaOf_setAreaOf_same s n c a

/-- An area is the Comb's, live where its context is resident, else saved. -/
theorem areaAt_congr (hc : t.combs = s.combs) (hr : ∀ k, (t.ctx k).resident = (s.ctx k).resident) :
    t.areaAt n c = s.areaAt n c := by
  have e : t.comb c = s.comb c := by rw [State.comb, hc]; rfl
  cases n with
  | none => simp only [State.areaAt, State.area, e]
  | some n => simp only [State.areaAt, State.areaOf, hr, State.area, e]

/-! The frozen flag (R376) -/

/-- A master that a violation freezes: not the Keeper and not a service (R375). -/
def freezable : Master → Bool
  | .keeper => false
  | .service _ => false
  | _ => true

theorem isFrozen_congr (hc : t.combs = s.combs) (hr : ∀ k, (t.ctx k).resident = (s.ctx k).resident) (hg : t.rings = s.rings) :
    t.isFrozen n m = s.isFrozen n m := by
  cases m <;> simp only [State.isFrozen, areaAt_congr hc hr, State.ring, hg]

theorem isFrozen_setFrozen (h : freezable m = true) (b : Bool) : (s.setFrozen n m b).isFrozen n m = b := by
  cases m with
  | worker c k sl => simp [State.setFrozen, State.isFrozen]
  | engine c sl => simp [State.setFrozen, State.isFrozen]
  | forager c f => simp [State.setFrozen, State.isFrozen]
  | host f => simp [State.setFrozen, State.isFrozen]
  | keeper => exact absurd h (by decide)
  | service c => exact absurd h Bool.false_ne_true

@[simp] theorem setFrozen_ctxs (b : Bool) : (s.setFrozen n m b).ctxs = s.ctxs := by
  cases m <;> simp [State.setFrozen]
@[simp] theorem setFrozen_events (b : Bool) : (s.setFrozen n m b).events = s.events := by
  cases m <;> simp [State.setFrozen]
@[simp] theorem setFrozen_opFrz (b : Bool) : (s.setFrozen n m b).opFrz = s.opFrz := by
  cases m <;> simp [State.setFrozen]

/-! The freeze table (R377) -/

/-- The lowest free entry of a table of 16 is the one taken. -/
theorem frzEnter_lowest {t : Tbl Frz} {i : Nat} {z : Frz} (h1 : 1 ≤ i) (h16 : i ≤ 16) (hi : (tget {} t i).st = 0)
    (hlow : ∀ j, 1 ≤ j → j < i → (tget {} t j).st ≠ 0) (o : W32) (more : List Master) :
    tget {} (frzEnter t o more z m).1 i = z := by
  have hf : ((List.range 16).map (· + 1)).find? (fun i => (tget {} t i).st = 0) = some i := by
    rw [List.find?_map, Option.map_eq_some_iff]
    refine ⟨i - 1, List.find?_range_eq_some.mpr ⟨?_, List.mem_range.mpr (by omega), fun j hj => ?_⟩, Nat.sub_add_cancel h1⟩
    · simpa [Nat.sub_add_cancel h1] using hi
    · simpa using hlow (j + 1) (by omega) (by omega)
  rw [frzEnter, hf]
  exact tget_tput_same _ _ i z

/-- The table of a context, or the operator's. -/
def frzTable (n : Option Nat) (s : State) : Tbl Frz := match n with | some n => (s.ctx n).frz | none => s.opFrz

/-- A frozen master enters its table, and its context's fences fail (R259, R377). -/
def enterFrz (s : State) (n : Option Nat) (m : Master) (code : W16) (z : Frz) : State :=
  match n with
  | some n =>
    let x := s.ctx n
    let e := frzEnter x.frz x.frzOver x.frzMore z m
    (s.setCtx n { x with frz := e.1, frzOver := e.2.1, frzMore := e.2.2 }).failAll n code
  | none =>
    let e := frzEnter s.opFrz s.opFrzOver s.opFrzMore z m
    { s with opFrz := e.1, opFrzOver := e.2.1, opFrzMore := e.2.2 }

variable {z : Frz}

@[simp] theorem enterFrz_events : (enterFrz s n m code z).events = s.events := by cases n <;> rfl
@[simp] theorem enterFrz_combs : (enterFrz s n m code z).combs = s.combs := by cases n <;> rfl
@[simp] theorem enterFrz_rings : (enterFrz s n m code z).rings = s.rings := by cases n <;> rfl

theorem failAll_ctx_same (s : State) (n : Nat) (code : W16) :
    ∃ f, (s.failAll n code).ctx n = { s.ctx n with failed := f } := ⟨_, State.ctx_setCtx_same s n _⟩

theorem enterFrz_resident (k : Nat) : ((enterFrz s n m code z).ctx k).resident = (s.ctx k).resident := by
  cases n with
  | none => rfl
  | some n =>
    simp only [enterFrz, State.failAll, State.failEpochs, State.ctx_setCtx_same]
    by_cases hk : k = n
    · simp [hk]
    · simp [State.ctx_setCtx, hk]

theorem enterFrz_table : ∃ o more, frzTable n (enterFrz s n m code z) = (frzEnter (frzTable n s) o more z m).1 := by
  cases n with
  | none => exact ⟨_, _, rfl⟩
  | some n =>
    refine ⟨(s.ctx n).frzOver, (s.ctx n).frzMore, ?_⟩
    simp only [frzTable, enterFrz, State.failAll, State.failEpochs, State.ctx_setCtx_same]

/-! A violation (R375, R376) -/

/-- The report of a violation. -/
def violation (s : State) (m : Master) (code : W16) (addr : W64) : Report :=
  let c := s.offence m code addr
  ⟨code, 1, s.masterCtx m, if masterComb m < 480 then 0 else 6, if c < 480 then c else 0, masterField m, s.faultEpoch (s.masterCtx m), addr, 0⟩

/-- A violation of a master not yet frozen: reported, the master stopped, the event posted. -/
def frozenBy (s : State) (m : Master) (code : W16) (addr : W64) : State :=
  let c := s.offence m code addr
  ((s.report (violation s m code addr)).setFrozen (s.masterCtx m) m true).event (s.masterCtx m) code (if c < 480 then c else 0) (masterField m) 0

section Violation

variable (hc : code = 0x8001#16 ∨ code = 0x8002#16) (hm : freezable m = true)
include hc hm

theorem freeze_unfrozen (hf : s.isFrozen (s.masterCtx m) m = false) :
    s.freeze m code addr = enterFrz (frozenBy s m code addr) (s.masterCtx m) m code
      ⟨code, some m, 1, s.offence m code addr, s.faultEpoch (s.masterCtx m), s.ts, addr⟩ := by
  have known : ¬ (code ≠ 0x8001#16 ∧ code ≠ 0x8002#16) := by tauto
  cases m with
  | keeper => exact absurd hm (by decide)
  | service c => exact absurd hm Bool.false_ne_true
  | _ => simp only [State.freeze, if_neg known, hf]; rfl

/-- A master already frozen: the violation is reported, no more. -/
theorem freeze_frozen (hf : s.isFrozen (s.masterCtx m) m = true) : s.freeze m code addr = s.report (violation s m code addr) := by
  have known : ¬ (code ≠ 0x8001#16 ∧ code ≠ 0x8002#16) := by tauto
  cases m with
  | keeper => exact absurd hm (by decide)
  | service c => exact absurd hm Bool.false_ne_true
  | _ => simp only [State.freeze, if_neg known, hf]; rfl

end Violation

theorem frozenBy_ctxs : (frozenBy s m code addr).ctxs = s.ctxs := by
  change (State.setFrozen (s.report _) _ m true).ctxs = _
  rw [setFrozen_ctxs, report_ctxs]

theorem frozenBy_events : (frozenBy s m code addr).events = s.events ++ [⟨s.masterCtx m, code,
    if s.offence m code addr < 480 then s.offence m code addr else 0, masterField m, 0, s.faultEpoch (s.masterCtx m)⟩] := by
  have hx : ∀ r, ((s.report r).setFrozen (s.masterCtx m) m true).faultEpoch (s.masterCtx m) = s.faultEpoch (s.masterCtx m) := fun r => by
    simp only [State.faultEpoch, State.ctx, setFrozen_ctxs, report_ctxs]
  rw [frozenBy, event_events, setFrozen_events, report_events, hx]

theorem frozenBy_isFrozen (hm : freezable m = true) : (frozenBy s m code addr).isFrozen (s.masterCtx m) m = true := by
  rw [← isFrozen_setFrozen (s := s.report (violation s m code addr)) (n := s.masterCtx m) hm true]
  exact isFrozen_congr rfl (fun k => rfl) rfl

theorem frozenBy_table : frzTable n (frozenBy s m code addr) = frzTable n s := by
  have ho : (frozenBy s m code addr).opFrz = s.opFrz := by
    change (State.setFrozen (s.report _) _ m true).opFrz = _
    rw [setFrozen_opFrz, report_opFrz]
  cases n <;> simp only [frzTable, State.ctx, frozenBy_ctxs, ho]

/-! OP_FRZ_RELEASE (R381) -/

theorem opFrzReleaseEff_badValue {v : W64} (h : v.toNat = 0 ∨ 16 < v.toNat) : opFrzReleaseEff v s = (some badValue, s) := if_pos h

theorem opFrzReleaseEff_unused {v : W64} (h1 : 1 ≤ v.toNat) (h16 : v.toNat ≤ 16) (h : (tget {} s.opFrz v.toNat).st = 0) :
    opFrzReleaseEff v s = (some (ownCode 0x8008#16), s) := (if_neg (by omega)).trans (if_pos h)

theorem opFrzReleaseEff_releases {v : W64} (h1 : 1 ≤ v.toNat) (h16 : v.toNat ≤ 16) (h : (tget {} s.opFrz v.toNat).st ≠ 0) :
    opFrzReleaseEff v s = (none, s.releaseEntry none v.toNat) := (if_neg (by omega)).trans (if_neg h)

/-- The release of a host function that the operator's table holds. -/
theorem releaseEntry_host {i f : Nat} (h : (tget {} s.opFrz i).master = some (.host f)) : s.releaseEntry none i =
    let z := tget {} s.opFrz i
    let u := (s.setRing f (s.ring f).disabled).event none z.code (if z.comb < 480 then z.comb else 0) (masterField (.host f)) (BitVec.ofNat 64 i)
    { u with opFrz := tdel u.opFrz i } := by
  simp only [State.releaseEntry, h]
  rfl

/-- Settles O22: a violation of a master not yet frozen is its report, its stop, its event and its entry; a release is the ring disabled,
the event and the entry emptied. -/
theorem freezesAndReleases : Obligations.FreezesAndReleases := by
  unfold Obligations.FreezesAndReleases
  refine ⟨fun m code addr s hm hc hk hs => ?_, fun p v s hp hw => ⟨fun hv => ?_, fun h1 h16 h0 => ?_, fun f h1 h16 h0 hh => ?_⟩⟩
  · have hz : freezable m = true := by
      cases m with
      | keeper => exact absurd rfl hk
      | service c => exact absurd rfl (hs c)
      | _ => rfl
    have hx : exec (.slotFreeze m code addr) s = .next (s.freeze m code addr) := onUnit_next hm _
    refine ⟨fun hf => ⟨_, hx, ?_⟩, fun hf => ⟨_, hx, ?_⟩, fun src => onUnit_next hm _⟩
    · rw [freeze_unfrozen hc hz hf]
      refine ⟨?_, ?_, fun i h1 h16 h0 hlow => ?_⟩
      · exact (isFrozen_congr enterFrz_combs enterFrz_resident enterFrz_rings).trans (frozenBy_isFrozen hz)
      · rw [enterFrz_events, frozenBy_events]
      · obtain ⟨o, more, e⟩ := enterFrz_table (s := frozenBy s m code addr) (n := s.masterCtx m) (m := m) (code := code)
          (z := ⟨code, some m, 1, s.offence m code addr, s.faultEpoch (s.masterCtx m), s.ts, addr⟩)
        change tget {} (frzTable (s.masterCtx m) _) i = _
        rw [e, frozenBy_table]
        exact frzEnter_lowest h1 h16 h0 hlow o more
    · rw [freeze_frozen hc hz hf]
      exact ⟨report_combs _, report_ctxs _, report_rings _, report_opFrz _, report_events _⟩
  · exact unit_write_refuses hp hw (opFrzReleaseEff_badValue hv)
  · exact unit_write_refuses hp hw (opFrzReleaseEff_unused h1 h16 h0)
  · refine ⟨_, unit_write_accepts hp hw (opFrzReleaseEff_releases h1 h16 h0), ?_⟩
    rw [releaseEntry_host hh]
    exact ⟨State.ring_setRing_same s f _, rfl, ⟨_, rfl⟩, rfl, rfl⟩

end Sys2Proof.Proofs
end

section
/-! PROOFS. Tokens and the inspection of frozen masters (R378 to R381, R383, R388). -/

open Sys2Proof Sys2Proof.Machine Sys2Proof.Claims Sys2Proof.Laws

namespace Sys2Proof.Proofs

variable {n act : Nat} {tok : List Byte} {s t : State}

@[simp] theorem setCtx_setCtx (s : State) (n : Nat) (v w : Ctx) : (s.setCtx n v).setCtx n w = s.setCtx n w := by
  simp [State.setCtx]

/-! A token's checks (R379) -/

/-- The checks of a token of the right length: its fields, its challenge, its signature. -/
def tokenPasses (n : Nat) (tok : List Byte) (x : Ctx) : Bool :=
  tokenFields n tok && !x.tkey.isEmpty && decide (x.chal = some ((tok.drop 16).take 32))
    && Config.verifyP384 x.tkey (Config.sha384 (tok.take 48)) (tok.drop 48)

/-- What a token that passes does, with its challenge used up (R378, R383). -/
def tokenRun (n : Nat) (tok : List Byte) : Eff := fun s =>
  let s1 := s.setCtx n { s.ctx n with chal := none }
  if lget 0 tok 0 = 4 ∧ (!(s.ctx n).resident ∨ s.grant.isSome) then (some badState, s1)
  else match s1.tokenAct n tok with
    | some s2 => (none, s2)
    | none => (some (ownCode 0x8008), s1)

theorem tokenEff_checked (hl : tok.length = 144) : tokenEff n tok s =
    if tokenPasses n tok (s.ctx n) then tokenRun n tok s else (some (ownCode 0x8005#16), s.setCtx n { s.ctx n with chal := none }) := by
  unfold tokenEff
  rw [if_neg (not_not.mpr hl)]
  cases h : tokenPasses n tok (s.ctx n) with
  | true =>
    obtain ⟨⟨⟨hf, hk⟩, hc⟩, hv⟩ : ((tokenFields n tok = true ∧ (!(s.ctx n).tkey.isEmpty) = true)
        ∧ (s.ctx n).chal = some ((tok.drop 16).take 32))
        ∧ Config.verifyP384 (s.ctx n).tkey (Config.sha384 (tok.take 48)) (tok.drop 48) = true := by
      simpa only [tokenPasses, Bool.and_eq_true, decide_eq_true_eq] using h
    rw [if_neg (by simp_all)]
    rfl
  | false =>
    rw [if_pos]
    · rfl
    · simpa [tokenPasses, imp_iff_not_or, or_assoc] using h

/-- The command of its own action decides a token by its checks. -/
theorem token_own (ha : (lget 0 tok 0).toNat = act) : s.token act n tok = s.domAnswer (.tenant n) 0x2803 (n + 1) (tokenEff n tok) := by
  rw [State.token, if_neg fun h => h.1 ha]

section Answer

variable (hn : isCtx n = true) (hw : domWritable (.tenant n) 0x2803 (n + 1) s) (hl : tok.length = 144) (ha : (lget 0 tok 0).toNat = act)
include hn hw hl ha

theorem token_refused (h : tokenPasses n tok (s.ctx n) ≠ true) : onUnit (isCtx n) (s.token act n tok) =
    refuses (.tenant n) 0x2803 (n + 1) (ownCode 0x8005#16) (s.setCtx n { s.ctx n with chal := none }) := by
  rw [token_own ha]
  exact unit_dom_refuses hn hw ((tokenEff_checked hl).trans (if_neg h))

/-- A token that takes effect if it passes. -/
theorem token_accepts (hr : tokenRun n tok s = (none, t)) : onUnit (isCtx n) (s.token act n tok) =
    if tokenPasses n tok (s.ctx n) then accepts (.tenant n) 0x2803 (n + 1) t
    else refuses (.tenant n) 0x2803 (n + 1) (ownCode 0x8005#16) (s.setCtx n { s.ctx n with chal := none }) := by
  split <;> rename_i h
  · rw [token_own ha]
    exact unit_dom_accepts hn hw (((tokenEff_checked hl).trans (if_pos h)).trans hr)
  · exact token_refused hn hw hl ha h

/-- A token whose action is refused even if it passes. -/
theorem token_refuses {r : Refuse} (hr : tokenRun n tok s = (some r, t)) : onUnit (isCtx n) (s.token act n tok) =
    if tokenPasses n tok (s.ctx n) then refuses (.tenant n) 0x2803 (n + 1) r t
    else refuses (.tenant n) 0x2803 (n + 1) (ownCode 0x8005#16) (s.setCtx n { s.ctx n with chal := none }) := by
  split <;> rename_i h
  · rw [token_own ha]
    exact unit_dom_refuses hn hw (((tokenEff_checked hl).trans (if_pos h)).trans hr)
  · exact token_refused hn hw hl ha h

end Answer

/-! The effect of each action (R380, R381, R383, R388) -/

theorem byte_ne_four {k : Nat} (h : (lget 0 tok 0).toNat = k) (hk : k ≠ 4) : lget 0 tok 0 ≠ 4 := fun g => by
  rw [g] at h
  exact hk h.symm

theorem lget_toNat {b : Byte} (h : lget 0 tok 0 = b) : (lget 0 tok 0).toNat = b.toNat := congrArg _ h

theorem tokenRun_done (h4 : lget 0 tok 0 ≠ 4) (h : (s.setCtx n { s.ctx n with chal := none }).tokenAct n tok = some t) :
    tokenRun n tok s = (none, t) := by
  simp only [tokenRun, h4, false_and, if_false, h]

theorem tokenRun_none (h4 : lget 0 tok 0 ≠ 4) (h : (s.setCtx n { s.ctx n with chal := none }).tokenAct n tok = none) :
    tokenRun n tok s = (some (ownCode 0x8008#16), s.setCtx n { s.ctx n with chal := none }) := by
  simp only [tokenRun, h4, false_and, if_false, h]
  rfl

theorem tokenRun_open (h : (lget 0 tok 0).toNat = 1) (hz : (tget {} (s.ctx n).frz (lget 0 tok 2).toNat).st = 1) : tokenRun n tok s =
    (none, s.setCtx n { s.ctx n with chal := none, frz := tput (s.ctx n).frz (lget 0 tok 2).toNat { tget {} (s.ctx n).frz (lget 0 tok 2).toNat with st := 2 } }) := by
  refine tokenRun_done (byte_ne_four h (by decide)) ?_
  simp only [State.tokenAct, State.ctx_setCtx_same, setCtx_setCtx, h, hz, if_true]

theorem tokenRun_open_refused (h : (lget 0 tok 0).toNat = 1) (hz : (tget {} (s.ctx n).frz (lget 0 tok 2).toNat).st ≠ 1) :
    tokenRun n tok s = (some (ownCode 0x8008#16), s.setCtx n { s.ctx n with chal := none }) := by
  refine tokenRun_none (byte_ne_four h (by decide)) ?_
  simp only [State.tokenAct, State.ctx_setCtx_same, h, hz, if_false]

theorem tokenRun_release (h : (lget 0 tok 0).toNat = 2) (hz : (tget {} (s.ctx n).frz (lget 0 tok 2).toNat).st ≠ 0) :
    tokenRun n tok s = (none, (s.setCtx n { s.ctx n with chal := none }).releaseEntry (some n) (lget 0 tok 2).toNat) := by
  refine tokenRun_done (byte_ne_four h (by decide)) ?_
  simp only [State.tokenAct, State.ctx_setCtx_same, h, hz, if_false]

theorem tokenRun_release_refused (h : (lget 0 tok 0).toNat = 2) (hz : (tget {} (s.ctx n).frz (lget 0 tok 2).toNat).st = 0) :
    tokenRun n tok s = (some (ownCode 0x8008#16), s.setCtx n { s.ctx n with chal := none }) := by
  refine tokenRun_none (byte_ne_four h (by decide)) ?_
  simp only [State.tokenAct, State.ctx_setCtx_same, h, hz, if_true]

theorem tokenRun_releaseAll (h : (lget 0 tok 0).toNat = 3) :
    tokenRun n tok s = (none, (s.setCtx n { s.ctx n with chal := none }).releaseAll n) := by
  refine tokenRun_done (byte_ne_four h (by decide)) ?_
  simp only [State.tokenAct, h]

theorem tokenRun_debugStart (h : lget 0 tok 0 = 4) (hr : (s.ctx n).resident = true ∧ s.grant = none) :
    tokenRun n tok s = (none, s.setCtx n { s.ctx n with chal := none, tdbg := true }) := by
  have open4 : ¬ (lget 0 tok 0 = 4 ∧ (!(s.ctx n).resident ∨ s.grant.isSome)) := by simp [hr.1, hr.2]
  simp only [tokenRun, if_neg open4, State.tokenAct, lget_toNat h, State.ctx_setCtx_same, setCtx_setCtx]
  rfl

theorem tokenRun_debugStart_refused (h : lget 0 tok 0 = 4) (hr : ¬ ((s.ctx n).resident = true ∧ s.grant = none)) :
    tokenRun n tok s = (some badState, s.setCtx n { s.ctx n with chal := none }) := by
  refine if_pos ⟨h, ?_⟩
  rcases not_and_or.mp hr with h1 | h1
  · exact .inl (by simpa using h1)
  · exact .inr (Option.isSome_iff_ne_none.mpr h1)

theorem tokenRun_debugEnd (h : (lget 0 tok 0).toNat = 5) : tokenRun n tok s =
    (none, State.resumeHalts (s.setCtx n { s.ctx n with chal := none, tdbg := false }) (.tenant n)) := by
  refine tokenRun_done (byte_ne_four h (by decide)) ?_
  simp only [State.tokenAct, State.ctx_setCtx_same, setCtx_setCtx, h]

/-! Inspection (R380) -/

theorem frzDataRd_worker {c k sl : Nat} (hs : (tget {} (s.ctx n).frz (s.obj 0 0x2806 (n + 1) 0 % 16 + 1)).st = 2)
    (hm : (tget {} (s.ctx n).frz (s.obj 0 0x2806 (n + 1) 0 % 16 + 1)).master = some (.worker c k sl)) :
    frzDataRd n s = (.ok (.bytes (lfit 0 256 (((((s.areaOf n c).worker k).slot sl).region (fld (s.obj 0 0x2806 (n + 1) 0) 4 4)).drop
      (256 * (s.obj 0 0x2806 (n + 1) 0 / 256))))), s) := by
  simp only [frzDataRd, State.frzData, hs, hm]
  rfl

theorem frzDataRd_closed (hs : (tget {} (s.ctx n).frz (s.obj 0 0x2806 (n + 1) 0 % 16 + 1)).st ≠ 2) :
    frzDataRd n s = (.error (ownCode 0x8008#16), s) := by
  simp only [frzDataRd, State.frzData, if_pos hs]
  rfl

/-- Settles O25: the checks of a token decide first, then the state its action needs. -/
theorem tokensAndInspection : Obligations.TokensAndInspection := by
  unfold Obligations.TokensAndInspection
  intro n tok s hn hw hl
  refine ⟨fun h => ?_, fun h => ?_, fun h => ?_, fun h => ?_, fun h => ?_, fun hr => ⟨fun c k sl hs hm => ?_, fun hs => ?_⟩⟩
  · by_cases hz : (tget {} (s.ctx n).frz (lget 0 tok 2).toNat).st = 1
    · rw [if_pos hz]
      exact token_accepts hn hw hl (lget_toNat h) (tokenRun_open (lget_toNat h) hz)
    · rw [if_neg hz]
      exact token_refuses hn hw hl (lget_toNat h) (tokenRun_open_refused (lget_toNat h) hz)
  · by_cases hz : (tget {} (s.ctx n).frz (lget 0 tok 2).toNat).st = 0
    · rw [if_pos hz]
      exact token_refuses hn hw hl (lget_toNat h) (tokenRun_release_refused (lget_toNat h) hz)
    · rw [if_neg hz]
      exact token_accepts hn hw hl (lget_toNat h) (tokenRun_release (lget_toNat h) hz)
  · exact token_accepts hn hw hl (lget_toNat h) (tokenRun_releaseAll (lget_toNat h))
  · by_cases hz : (s.ctx n).resident = true ∧ s.grant = none
    · rw [if_pos hz]
      exact token_accepts hn hw hl (lget_toNat h) (tokenRun_debugStart h hz)
    · rw [if_neg hz]
      exact token_refuses hn hw hl (lget_toNat h) (tokenRun_debugStart_refused h hz)
  · exact token_accepts hn hw hl (lget_toNat h) (tokenRun_debugEnd (lget_toNat h))
  · exact unit_read_bytes hn hr (frzDataRd_worker hs hm)
  · exact (onUnit_next hn _).trans (congrArg _ (read_refused hr (frzDataRd_closed hs)))

end Sys2Proof.Proofs
end

section
/-! PROOFS. The plant: power, clocks, converters, firmware, TS and the objects of power and clocks (0x2100 to 0x23FF). What contexts,
packets, ports, traces and events change leaves it as it is. -/

open Sys2Proof Sys2Proof.Machine Sys2Proof.Claims Sys2Proof.Laws

namespace Sys2Proof.Proofs

variable {s t : State}

/-- The module's plant. -/
structure Plant where
  power : Power
  refs : Refs
  convs : Tbl Conv
  boot : Boot
  ts : W64
  objs : Nat → Option W64

/-- An object of power or clocks, by its key. -/
def plantKey (k : Nat) : Bool := decide (0x210000 ≤ k ∧ k < 0x240000)

def plant (s : State) : Plant :=
  ⟨s.power, s.refs, s.convs, s.boot, s.ts, fun k => if plantKey k then tget none s.objs k else none⟩

section Same
variable (h : plant t = plant s)
include h
theorem plant_power : t.power = s.power := congrArg Plant.power h
theorem plant_refs : t.refs = s.refs := congrArg Plant.refs h
theorem plant_convs : t.convs = s.convs := congrArg Plant.convs h
theorem plant_boot : t.boot = s.boot := congrArg Plant.boot h
theorem plant_ts : t.ts = s.ts := congrArg Plant.ts h
theorem plant_conv (k : Nat) : t.conv k = s.conv k := by rw [State.conv, plant_convs h]; rfl
theorem plant_obj {idx sub : Nat} (hk : plantKey (okey 0 idx sub) = true) (d : Nat) : t.obj 0 idx sub d = s.obj 0 idx sub d := by
  have e := congrFun (congrArg Plant.objs h) (okey 0 idx sub)
  simp only [plant, hk, if_true] at e
  rw [State.obj, e]
  rfl
theorem plant_pwrState : t.pwrState = s.pwrState := plant_obj h (by decide) 0
end Same

/-! Every field but those of the plant -/

section Fields
variable (s)
@[simp] theorem plant_setComb (c : Nat) (v : Comb) : plant (s.setComb c v) = plant s := rfl
@[simp] theorem plant_setCtx (n : Nat) (v : Ctx) : plant (s.setCtx n v) = plant s := rfl
@[simp] theorem plant_setRing (f : Nat) (v : Ring) : plant (s.setRing f v) = plant s := rfl
@[simp] theorem plant_setPort (p : Nat) (v : TyPort) : plant (s.setPort p v) = plant s := rfl
@[simp] theorem plant_setHlp (p : Nat) (v : HlPort) : plant (s.setHlp p v) = plant s := rfl
@[simp] theorem plant_setFrame (f : Nat) (v : Frame) : plant (s.setFrame f v) = plant s := rfl
@[simp] theorem plant_setPin (n : Nat) (v : Pin) : plant (s.setPin n v) = plant s := rfl
@[simp] theorem plant_setArea (c : Nat) (a : Area) : plant (s.setArea c a) = plant s := rfl
@[simp] theorem plant_out (o : OutMsg) : plant (s.out o) = plant s := rfl
@[simp] theorem plant_event (n : Option Nat) (code : W16) (c m : Nat) (res : W64) : plant (s.event n code c m res) = plant s := rfl
@[simp] theorem plant_events (l : List Event) : plant { s with events := l } = plant s := rfl

theorem plant_setObj {i idx sub : Nat} (h : plantKey (okey i idx sub) = false) (v : Nat) : plant (s.setObj i idx sub v) = plant s := by
  simp only [plant, State.setObj, Plant.mk.injEq, true_and]
  funext k
  split
  · next hk =>
    rw [tget_tput_ne]
    rintro rfl
    rw [h] at hk
    exact Bool.false_ne_true hk
  · rfl

theorem plant_ite {c : Prop} [Decidable c] {a b : State} (ha : plant a = plant s) (hb : plant b = plant s) :
    plant (if c then a else b) = plant s := by
  split
  · exact ha
  · exact hb

theorem plant_foldl {α : Type} {f : State → α → State} (h : ∀ s a, plant (f s a) = plant s) (l : List α) :
    plant (l.foldl f s) = plant s := by
  induction l generalizing s with
  | nil => rfl
  | cons a l ih => rw [List.foldl_cons, ih, h]

theorem plant_foldl_mem {α : Type} {f : State → α → State} {l : List α} (h : ∀ s, ∀ a ∈ l, plant (f s a) = plant s) :
    plant (l.foldl f s) = plant s := by
  induction l generalizing s with
  | nil => rfl
  | cons a l ih =>
    rw [List.foldl_cons, ih _ fun s b hb => h s b (List.mem_cons_of_mem a hb), h s a List.mem_cons_self]

/-- What a filter keeps, it keeps the value of. -/
theorem tget_filter_keeps {α : Type} (d : α) {p : Nat × α → Bool} {k : Nat} (h : ∀ v, p (k, v) = true) :
    ∀ t : Tbl α, tget d (t.filter p) k = tget d t k
  | [] => rfl
  | (j, v) :: t => by
    by_cases hj : j = k
    · subst hj
      rw [List.filter_cons_of_pos (h v)]
      simp [tget]
    · by_cases hp : p (j, v) = true
      · rw [List.filter_cons_of_pos hp]
        simp only [tget, if_neg hj]
        exact tget_filter_keeps d h t
      · rw [List.filter_cons_of_neg hp, tget_filter_keeps d h t]
        simp [tget, hj]

/-! Reports and records -/

@[simp] theorem plant_report (r : Report) : plant (s.report r) = plant s :=
  plant_ite _ rfl (plant_setObj s (by decide) _)

@[simp] theorem plant_powerReport (code : W16) (unit sub : Nat) : plant (s.powerReport code unit sub) = plant s := plant_report s _

@[simp] theorem plant_cperAdd (r : Report) (phase action sev : Nat) (boot : Bool) : plant (s.cperAdd r phase action sev boot) = plant s :=
  plant_ite _ (plant_setObj _ (by decide) _) rfl

/-! Contexts and their end -/

@[simp] theorem plant_failAll (n : Nat) (code : W16) : plant (s.failAll n code) = plant s := rfl

@[simp] theorem plant_setAreaOf (n c : Nat) (a : Area) : plant (s.setAreaOf n c a) = plant s := plant_ite _ rfl rfl

@[simp] theorem plant_onAreas (n : Nat) (f : Nat → Area → Area) : plant (s.onAreas n f) = plant s :=
  plant_foldl _ (fun s _ => plant_setAreaOf s ..) _

@[simp] theorem plant_onCombs (n : Nat) (f : Comb → Comb) : plant (s.onCombs n f) = plant s :=
  plant_foldl _ (fun s c => plant_setComb s c _) _

@[simp] theorem plant_writeDone (n : Option Nat) (ep : Bool) : plant (s.writeDone n ep) = plant s := by
  cases n <;> rfl

@[simp] theorem plant_dropDigests (n : Nat) (f : Forager) : plant (s.dropDigests n f) = plant s :=
  plant_foldl _ (fun s _ => plant_ite _ (plant_writeDone s ..) rfl) _

@[simp] theorem plant_dropAllDigests (n : Nat) : plant (s.dropAllDigests n) = plant s :=
  plant_foldl _ (fun _ _ => plant_foldl _ (fun s _ => plant_dropDigests s ..) _) _

@[simp] theorem plant_stopCtx (n : Nat) : plant (s.stopCtx n) = plant s := by
  rw [State.stopCtx, plant_setCtx, plant_onAreas, plant_dropAllDigests]

/-- Objects that a context holds for itself are none of the plant's. -/
theorem plant_dropObjs (n : Nat) (d : Tbl (List Byte)) :
    plant { s with objs := s.objs.filter (fun e => e.1 / 2 ^ 24 != n + 1), doms := d } = plant s := by
  simp only [plant, Plant.mk.injEq, true_and]
  funext k
  split
  · next hk =>
    refine tget_filter_keeps none (fun v => ?_) _
    have : k < 0x240000 := (of_decide_eq_true hk).2
    simp only [bne_iff_ne]
    omega
  · rfl

@[simp] theorem plant_destroyStart (n : Nat) : plant (s.destroyStart n) = plant s := by
  have hk : plantKey (okey 0 0x2806 (n + 1)) = false := by simp [plantKey, okey]; omega
  unfold State.destroyStart
  extract_lets s1 x keep s2
  rw [plant_setCtx, plant_setObj _ hk]
  exact (plant_dropObjs s1 n _).trans ((plant_onCombs ..).trans (plant_stopCtx s n))

@[simp] theorem plant_destroyAll (code : W16) : plant (s.destroyAll code) = plant s :=
  plant_foldl _ (fun s n => plant_ite _ rfl ((plant_destroyStart _ n).trans (plant_event s ..))) _

@[simp] theorem plant_zeroAreas (n : Nat) (keepPair : Bool) : plant (s.zeroAreas n keepPair) = plant s :=
  plant_ite _ (plant_onCombs s ..) (plant_onCombs s ..)

@[simp] theorem plant_zeroCapacity (n : Nat) : plant (s.zeroCapacity n) = plant s :=
  (plant_foldl _ (fun _ _ => plant_foldl _ (fun s _ => plant_setComb s _ _) _) _).trans (plant_onCombs s ..)

@[simp] theorem plant_destroyEnd (n : Nat) : plant (s.destroyEnd n) = plant s := by
  have hk : plantKey (okey 0 0x2610 (n + 1)) = false := by simp [plantKey, okey]; omega
  have sel (s : State) (i : Nat) (hi : i ∈ [17, 18, 19]) :
      plant (if s.obj i 0x2091 3 0 % 16 = n then s.setObj i 0x2091 3 0 else s) = plant s := by
    refine plant_ite _ (plant_setObj _ ?_ _) rfl
    fin_cases hi <;> decide
  have rings (s : State) : plant ((List.range 64).foldl (fun s q => s.setRing (64 * n + q) (s.ring (64 * n + q)).disabled) s) = plant s :=
    plant_foldl _ (fun s q => plant_setRing s _ _) _
  exact (plant_setCtx ..).trans ((plant_foldl_mem _ sel).trans ((plant_setObj _ hk _).trans
    ((rings _).trans ((plant_zeroCapacity ..).trans (plant_zeroAreas s ..)))))

@[simp] theorem plant_destroyAllEnd : plant s.destroyAllEnd = plant s :=
  plant_foldl _ (fun s n => plant_ite _ (plant_destroyEnd s n) rfl) _

/-! Ports, rings and events -/

@[simp] theorem plant_hlDown (p : Nat) : plant (s.hlDown p) = plant s :=
  plant_ite _ (plant_report _ _) rfl

@[simp] theorem plant_portDown (p : Nat) : plant (s.portDown p) = plant s := by
  rw [State.portDown, plant_event, State.portReport, plant_report, plant_setPort]

@[simp] theorem plant_cqWrite (f w0 : Nat) (w1 w2 w3 : W64) : plant (s.cqWrite f w0 w1 w2 w3) = plant s :=
  plant_ite _ rfl rfl

@[simp] theorem plant_eventWrite (f : Nat) (e : Event) : plant (s.eventWrite f e) = plant s :=
  plant_ite _ rfl (plant_ite _ rfl (plant_cqWrite ..))

@[simp] theorem plant_eventOut (e : Event) : plant (s.eventOut e) = plant s := by
  rw [State.eventOut]
  cases e.ctx with
  | none => exact plant_eventWrite ..
  | some n => exact (plant_eventWrite ..).trans (plant_eventWrite ..)

@[simp] theorem plant_eventFlush : plant s.eventFlush = plant s :=
  plant_foldl _ (fun s e => plant_eventOut s e) _

/-! Traces and gated clocks -/

@[simp] theorem plant_trace (c kind unit index arg : Nat) : plant (s.trace c kind unit index arg) = plant s := by
  rw [State.trace]
  cases s.residentAt c with
  | none => rfl
  | some n => exact plant_ite _ rfl rfl

@[simp] theorem plant_gateUnit (c kind ix : Nat) : plant (s.gateUnit c kind ix) = plant s := by
  rw [State.gateUnit]
  cases tget none (s.area c).gated (gateKey kind ix) with
  | none => exact plant_trace ..
  | some t => rfl

@[simp] theorem plant_wakeUnit (c kind ix : Nat) : plant (s.wakeUnit c kind ix) = plant s := by
  rw [State.wakeUnit]
  cases tget none (s.area c).gated (gateKey kind ix) with
  | none => rfl
  | some t => exact plant_trace ..

@[simp] theorem plant_traceUngated (kind arg : Nat) : plant (s.traceUngated kind arg) = plant s := by
  refine plant_foldl _ (fun s c => ?_) _
  cases s.residentAt c with
  | none => rfl
  | some n => exact plant_ite _ (plant_foldl _ (fun s u => plant_trace s ..) _) rfl

@[simp] theorem plant_floorGate : plant s.floorGate = plant s :=
  plant_foldl _ (fun s _ => plant_ite _ rfl ((plant_gateUnit ..).trans (plant_setComb s ..))) _

@[simp] theorem plant_floorUngate : plant s.floorUngate = plant s :=
  plant_foldl _ (fun s _ => plant_ite _ (plant_wakeUnit s ..) rfl) _

/-! Failures of Combs, maintenance -/

@[simp] theorem plant_loseSegments (c : Nat) : plant (s.loseSegments c) = plant s := by
  refine plant_foldl _ (fun s d => ?_) _
  cases slNeighbour c d <;> rfl

theorem plant_maintResult (ticket st code : Nat) : plant (s.maintResult ticket st code) = plant s := plant_setObj s (by decide) _

@[simp] theorem plant_maintAbort (c : Nat) : plant (s.maintAbort c) = plant s :=
  plant_foldl _ (fun s e => plant_ite _ ((plant_setObj _ (by decide) _).trans (plant_maintResult s ..)) (plant_maintResult s ..)) _

@[simp] theorem plant_combFails (c : Nat) : plant (s.combFails c) = plant s := by
  refine plant_ite _ rfl ((plant_maintAbort ..).trans (plant_ite _ ?_ ?_))
  · exact (plant_report ..).trans (plant_loseSegments _ c)
  · exact (plant_foldl _ (fun s n => plant_failAll (s.event _ _ _ _ _) n _) _).trans ((plant_report ..).trans (plant_loseSegments _ c))

@[simp] theorem plant_combLost (c phase : Nat) (boot : Bool) : plant (s.combLost c phase boot) = plant s := by
  rw [State.combLost, plant_cperAdd]
  exact plant_foldl _ (fun s n => plant_event s ..) _

@[simp] theorem plant_railLost (c : Nat) : plant (s.railLost c) = plant s :=
  plant_ite _ rfl ((plant_combLost ..).trans (plant_ite _ (plant_combFails s c) rfl))

end Fields

end Sys2Proof.Proofs
end

section
/-! PROOFS. Trip (R424, R425): its causes, the stages it switches off, and `PWR_STATE`. -/

open Sys2Proof Sys2Proof.Machine Sys2Proof.Claims Sys2Proof.Laws

namespace Sys2Proof.Proofs

variable {s : State} {code : W16} {k : Nat} {ks : List Nat}

theorem pwrState_setObj {v : Nat} (h : v < 2 ^ 64) : (s.setObj 0 0x2100 8 v).pwrState = v := obj_setObj_same 0 0x2100 8 0 h

/-! Stages switched off -/

@[simp] theorem conv_off_off (v : Conv) : v.off.off = v.off := by
  by_cases h : v.st = 3 <;> simp [Conv.off, h]

theorem conv_off_st (v : Conv) : v.off.st = 0 ∨ v.off.st = 3 := by
  by_cases h : v.st = 3 <;> simp [Conv.off, h]

theorem convsOff_conv (s : State) (ks : List Nat) (k : Nat) : (s.convsOff ks).conv k = if k ∈ ks then (s.conv k).off else s.conv k := by
  induction ks generalizing s with
  | nil => rfl
  | cons j ks ih =>
    refine (ih _).trans ?_
    rw [State.conv_setConv]
    by_cases h : k = j
    · subst h; simp
    · simp [h]

theorem convsOff_power (s : State) (ks : List Nat) : (s.convsOff ks).power = s.power := by
  induction ks generalizing s with
  | nil => rfl
  | cons j ks ih => exact ih _

/-! Trip in its steps -/

/-- The cause is noted. -/
def tripNoted (s : State) (code : W16) : State :=
  { s with power := { s.power with
      tripCauses := if s.power.tripCauses.contains code then s.power.tripCauses else s.power.tripCauses ++ [code] } }

/-- The Trip is reported and every context's end begins. -/
def tripReported (any : Bool) (s : State) (code : W16) : State :=
  (s.report ⟨code, if any then 1 else 2, none, 8, 0, 0, 0, 0, 0⟩).event none code 0 0 0

/-- The host links lose their supply, unless the Rim has one; the events go out. -/
def tripLinks (s : State) : State := (if s.rimOn then s else (s.hlDown 0).hlDown 1).eventFlush

/-- Every context ends. -/
def tripContexts (any : Bool) (s : State) (code : W16) : State := (tripLinks ((tripReported any s code).destroyAll code)).destroyAllEnd

/-- The optics' stages and the ports lose their power. -/
def tripOptics (s : State) : State :=
  (List.range 6).foldl (fun s p => if (s.port p).st = 4 then s else s.portDown p) (s.convsOff optStages)

/-- What the governor held is gone. -/
def tripGovernor (w : Power) : Power :=
  { w with causes := 0, floorCode := 0, stuck := 0, hot := [], memThr := false, compDuty := 16 }

/-- Everything of a Trip but `PWR_STATE`. -/
def tripRails (s : State) (code : W16) : State :=
  let u := tripOptics (tripContexts ((List.range 16).any (fun n => (s.ctx n).st != 0)) (tripNoted s code) code).framesOff
  { u with power := tripGovernor u.power }

theorem conv_withPower (s : State) (w : Power) (k : Nat) : State.conv { s with power := w } k = s.conv k := rfl

theorem tripNow_enters (h0 : s.pwrState ≠ 0) (h4 : s.pwrState ≠ 4) : s.tripNow code = (tripRails s code).setObj 0 0x2100 8 4 := by
  unfold State.tripNow
  rw [if_neg h0]
  extract_lets w0 s0 any s1 s2 s3 s4 s5 w5
  rw [if_neg h4]
  have e5 : s5 = tripOptics (tripContexts any (tripNoted s code) code).framesOff := rfl
  rw [tripRails]
  exact congrArg (fun u : State => State.setObj { u with power := tripGovernor u.power } 0 0x2100 8 4) e5

theorem tripNow_again (h4 : s.pwrState = 4) : s.tripNow code = tripNoted s code := by
  unfold State.tripNow
  rw [if_neg (by rw [h4]; decide)]
  extract_lets w0 s0
  rw [if_pos h4]
  rfl

theorem tripNow_off (h0 : s.pwrState = 0) : s.tripNow code = s := if_pos h0

theorem plant_tripLinks (s : State) : plant (tripLinks s) = plant s := by
  rw [tripLinks, plant_eventFlush]
  exact plant_ite _ rfl ((plant_hlDown ..).trans (plant_hlDown ..))

theorem plant_tripContexts (any : Bool) (s : State) (code : W16) : plant (tripContexts any s code) = plant s := by
  rw [tripContexts, plant_destroyAllEnd, plant_tripLinks, plant_destroyAll, tripReported, plant_event, plant_report]

theorem plant_framesOff (s : State) : plant s.framesOff = plant (s.convsOff frameStages) := by
  simp only [plant, State.framesOff]

theorem plant_tripOptics (s : State) : plant (tripOptics s) = plant (s.convsOff optStages) :=
  plant_foldl _ (fun s p => plant_ite _ rfl (plant_portDown s p)) _

/-- The stages of Frames and optics are off. -/
theorem tripOptics_conv (s : State) (k : Nat) :
    (tripOptics s.framesOff).conv k = if k ∈ frameStages ∨ k ∈ optStages then (s.conv k).off else s.conv k := by
  have hf : s.framesOff.conv k = (s.convsOff frameStages).conv k := plant_conv (plant_framesOff s) k
  rw [plant_conv (plant_tripOptics _), convsOff_conv, hf, convsOff_conv]
  by_cases h1 : k ∈ frameStages <;> by_cases h2 : k ∈ optStages <;> simp [h1, h2]

theorem tripOptics_power (s : State) : (tripOptics s.framesOff).power = s.power := by
  rw [plant_power (plant_tripOptics _), convsOff_power, plant_power (plant_framesOff s), convsOff_power]

/-- A stage after Trip: off where it is a Frame's or an optics' one. -/
theorem tripRails_conv (s : State) (code : W16) (k : Nat) :
    (tripRails s code).conv k = if k ∈ frameStages ∨ k ∈ optStages then (s.conv k).off else s.conv k := by
  rw [tripRails, conv_withPower, tripOptics_conv, plant_conv (plant_tripContexts ..), tripNoted, conv_withPower]

theorem tripRails_power (s : State) (code : W16) : (tripRails s code).power = tripGovernor (tripNoted s code).power := by
  rw [tripRails]
  exact congrArg tripGovernor ((tripOptics_power _).trans (plant_power (plant_tripContexts ..)))

/-! What Trip leaves -/

theorem tripNow_pwrState (h0 : s.pwrState ≠ 0) : (s.tripNow code).pwrState = 4 := by
  by_cases h4 : s.pwrState = 4
  · rw [tripNow_again h4]; exact h4
  · rw [tripNow_enters h0 h4, pwrState_setObj (by decide)]

theorem tripNoted_causes (s : State) (code : W16) : code ∈ (tripNoted s code).power.tripCauses := by
  by_cases h : code ∈ s.power.tripCauses <;> simp [tripNoted, h]

theorem tripNow_causes (h0 : s.pwrState ≠ 0) : code ∈ (s.tripNow code).power.tripCauses := by
  by_cases h4 : s.pwrState = 4
  · rw [tripNow_again h4]; exact tripNoted_causes s code
  · rw [tripNow_enters h0 h4, State.setObj_power, tripRails_power]
    exact tripNoted_causes s code

theorem tripNow_conv (s : State) (code : W16) (hk : k ∉ frameStages ∧ k ∉ optStages) : (s.tripNow code).conv k = s.conv k := by
  by_cases h0 : s.pwrState = 0
  · rw [tripNow_off h0]
  · by_cases h4 : s.pwrState = 4
    · rw [tripNow_again h4]; rfl
    · rw [tripNow_enters h0 h4, State.conv_setObj', tripRails_conv, if_neg (by tauto)]

end Sys2Proof.Proofs
end

section
/-! PROOFS. References qualify, fail and are switched (R443 to R446). -/

open Sys2Proof Sys2Proof.Machine Sys2Proof.Claims Sys2Proof.Laws

namespace Sys2Proof.Proofs

variable {s : State}

theorem pwrState_plant {s t : State} (h : plant t = plant s) : t.pwrState = s.pwrState := plant_pwrState h

/-! A reference has qualified at start (R449) -/

theorem qualified_refs (s : State) : s.qualified.refs = s.refs ∨ ∃ k, s.qualified.refs = { s.refs with rclkNow := k } := by
  have e (u : State) : State.refs ([0, 1].foldl (fun s p => if (s.hlp p).st = 0 && !(s.hlp p).perst then s.setHlp p { s.hlp p with st := 1 } else s) u) = u.refs :=
    foldl_refs (fun s p => refs_ite (setHlp_refs s p _) rfl) _ u
  rw [State.qualified, State.raiseBegin]
  split
  · obtain ⟨k, h⟩ := raiseRails_refs (State.tripClear ([0, 1].foldl
      (fun s p => if (s.hlp p).st = 0 && !(s.hlp p).perst then s.setHlp p { s.hlp p with st := 1 } else s) s) 0xA005#16)
    exact .inr ⟨k, by rw [h, tripClear_refs, e]⟩
  · exact .inl ((tripClear_refs _ _).trans (e s))

/-- What a property of the references does not say of the router's clock, it keeps. -/
theorem qualified_keeps {P : Refs → Prop} (h : P s.refs) (hk : ∀ k, P { s.refs with rclkNow := k }) : P s.qualified.refs := by
  obtain e | ⟨k, e⟩ := qualified_refs s
  · exact e ▸ h
  · exact e ▸ hk k

/-! Windows of qualification (R444) -/

theorem natAbs_good {diff : Int} (h : diff.natAbs ≤ 5000) : decide (diff.natAbs ≤ 5000) = true := decide_eq_true h

theorem twos_lt (diff : Int) : twos 32 diff < 2 ^ 64 := by
  unfold twos
  omega

/-- The third good window: both oscillators are qualified. -/
def bothQualified (s : State) (diff : Int) : State :=
  { s.setObj 0 0x2300 5 (twos 32 diff) with
    refs := { s.refs with goodWins := s.refs.goodWins + 1, wins := s.refs.wins + 1, stA := 1, stB := 1 } }

/-- The reference in use is the one that `REF_SEL` names. -/
def refChosen (s : State) : State := { s with refs := { s.refs with inUse := s.refPick } }

theorem refPick_bothQualified (s : State) (diff : Int) : (bothQualified s diff).refPick = decide (s.obj 0 0x2300 3 0 = 2) := by
  have h : (bothQualified s diff).obj 0 0x2300 3 0 = s.obj 0 0x2300 3 0 := obj_setObj_ne (by decide) _ _
  rw [State.refPick, h]
  by_cases h2 : s.obj 0 0x2300 3 0 = 2 <;> simp [h2, bothQualified]

section Window
variable {diff : Int}

theorem oscWindow_arbitrating (h : s.refs.arb = true) : s.oscWindow diff = s.setObj 0 0x2300 5 (twos 32 diff) := if_pos h

section Start
variable (ha : s.refs.arb = false) (hA : s.refs.stA = 0) (hB : s.refs.stB = 0) (hd : diff.natAbs ≤ 5000)
include ha hA hB hd

theorem oscWindow_good (hg : s.refs.goodWins < 2) : s.oscWindow diff = { s.setObj 0 0x2300 5 (twos 32 diff) with
    refs := { s.refs with goodWins := s.refs.goodWins + 1, wins := s.refs.wins + 1, arb := decide (99 ≤ s.refs.wins) } } := by
  have few : ¬ 3 ≤ s.refs.goodWins + 1 := by omega
  simp [State.oscWindow, ha, hA, hB, hd, few]

/-- The third good window qualifies both; `REF_SEL` names the one in use. -/
theorem oscWindow_third (hg : 2 ≤ s.refs.goodWins) : s.oscWindow diff = (refChosen (bothQualified s diff)).qualified := by
  have many : 3 ≤ s.refs.goodWins + 1 := by omega
  have seeking : ¬ s.refs.arb = true := by rw [ha]; decide
  have start : s.refs.stA = 0 ∧ s.refs.stB = 0 := ⟨hA, hB⟩
  simp only [State.oscWindow, State.setObj_refs, if_neg seeking, if_pos start, natAbs_good hd, if_true, if_pos many]
  rfl

end Start

end Window

/-- Both references bad: arbitration begins (R445). -/
theorem oscWindow_bad {diff : Int} (ha : s.refs.arb = false) (hA : s.refs.stA = 1) (hB : s.refs.stB = 1) (hd : 5000 < diff.natAbs) :
    (s.oscWindow diff).refs = { s.refs with arb := true } := by
  have bad : ¬ diff.natAbs ≤ 5000 := by omega
  simp [State.oscWindow, ha, hA, hB, bad]

/-! Arbitration (R444, R445) -/

/-- What arbitration decides. -/
def refsDecided (r : Refs) (aWins : Bool) : Refs :=
  { r with arb := false, stA := if aWins then 1 else 2, stB := if aWins then 2 else 1, inUse := !aWins }

section Arbitration
variable {a b : Int} (ha : s.refs.arb = true) (hA : s.refs.stA = 0) (hB : s.refs.stB = 0)
include ha hA hB

theorem arbitrate_wins {w : Bool} (hne : a.natAbs ≠ b.natAbs) (hw : decide (a.natAbs < b.natAbs) = w)
    (hn : (if w then a.natAbs else b.natAbs) ≤ 10000) :
    s.arbitrate a b = State.qualified { s.powerReport 0xA002#16 9 (b2n w) with refs := refsDecided s.refs w } := by
  have near : ¬ 10000 < (if w then a.natAbs else b.natAbs) := by omega
  simp only [State.arbitrate, ha, hA, hB, if_neg hne, hw, near]
  rfl

theorem arbitrate_none (h1 : 10000 < a.natAbs) (h2 : 10000 < b.natAbs) :
    (s.arbitrate a b).refs = { s.refs with arb := false, stA := 2, stB := 2 } := by
  by_cases he : a.natAbs = b.natAbs
  · simp [State.arbitrate, ha, hA, hB, he, h2, State.drawBool]
  · have far : 10000 < (if a.natAbs < b.natAbs then a.natAbs else b.natAbs) := by split <;> assumption
    simp [State.arbitrate, ha, hA, hB, he, far]

end Arbitration

/-! A failed reference (R445) -/

theorem refFailed_switches (h0 : s.refs.switching = 0) (ho : s.refs.other = 1) :
    s.refFailed = { s with refs := { s.refs with switching := 1 } } := by
  rw [State.refFailed, if_neg (not_not.mpr h0), if_pos ho]

theorem refFailed_trips (h0 : s.refs.switching = 0) (ho : s.refs.other ≠ 1) (hp : s.pwrState ≠ 0) (h4 : s.pwrState ≠ 4) :
    s.refFailed = s.tripNow 0xA005#16 := by
  rw [State.refFailed, if_neg (not_not.mpr h0), if_neg ho, if_neg (by tauto)]

/-- The loss of A's edges, while A is in use. -/
def edgesLost (s : State) : State := ({ s with refs := { s.refs with stA := 2 } } : State).powerReport 0xA002#16 9 (b2n s.refs.inUse)

theorem edgesLost_eq (hu : s.refs.inUse = false) :
    edgesLost s = ({ s with refs := { s.refs with stA := 2 } } : State).powerReport 0xA002#16 9 0 :=
  congrArg (fun k => ({ s with refs := { s.refs with stA := 2 } } : State).powerReport 0xA002#16 9 (b2n k)) hu

theorem edgesLost_refs (s : State) : (edgesLost s).refs = { s.refs with stA := 2 } := powerReport_refs ..

theorem edgesLost_pwrState (s : State) : (edgesLost s).pwrState = s.pwrState := (plant_pwrState (plant_powerReport _ _ _ _)).trans rfl

theorem refEdgeLoss_inUseA (hu : s.refs.inUse = false) (hA : s.refs.stA = 1) :
    exec .refEdgeLoss s = .next (edgesLost s).refFailed := by
  change execRefEdgeLoss s = _
  have used : ¬ s.refs.used ≠ 1 := by simp [Refs.used, hu, hA]
  have notB : ¬ s.refs.inUse = true := by rw [hu]; decide
  simp only [execRefEdgeLoss, if_neg used, if_neg notB]
  rfl

/-! The switch (R443) -/

/-- A state with other references. -/
def withRefs (s : State) (r : Refs) : State := { s with refs := r }
theorem withRefs_ts (s : State) (r : Refs) : (withRefs s r).ts = s.ts := rfl

theorem refSwitchStart_next (s : State) : exec .refSwitchStart s =
    .next (if s.refs.switching = 1 then ({ s with refs := { s.refs with switching := 2 } } : State).floorGate else s) := rfl

theorem refSwitchStop_next (s : State) : exec .refSwitchStop s = .next (if s.refs.switching = 2 then
    withRefs (s.traceUngated 1 0) { s.refs with switching := 3, stopped := true } else s) := rfl

theorem refSwitchRestart_next (s : State) : exec .refSwitchRestart s = .next (if s.refs.switching = 3 then s.refRestart else s) := rfl

/-- A counter object counts up to its greatest value. -/
theorem incObj_obj (s : State) {idx sub w : Nat} (hw : w ≤ 64) {n : Nat} :
    (s.incObj idx sub w n).obj 0 idx sub 0 = min (s.obj 0 idx sub 0 + n) (2 ^ w - 1) := by
  refine obj_setObj_same _ _ _ _ (Nat.lt_of_le_of_lt (Nat.min_le_right ..) ?_)
  have : 2 ^ w ≤ 2 ^ 64 := Nat.pow_le_pow_right (by decide) hw
  have : 0 < 2 ^ w := Nat.two_pow_pos w
  omega

theorem incObj_obj_ne (s : State) {idx sub jdx jsub w n : Nat} (h : okey 0 jdx jsub ≠ okey 0 idx sub) :
    (s.incObj idx sub w n).obj 0 jdx jsub 0 = s.obj 0 jdx jsub 0 := obj_setObj_ne h _ _

theorem refRestarted_obj (s : State) (i idx sub d : Nat) : (refRestarted s).obj i idx sub d = s.obj i idx sub d := by
  simp only [State.obj, refRestarted]

theorem plant_refRestartNoted (s : State) : plant (refRestartNoted s) = plant ((s.incObj 0x2300 7 64 4096).incObj 0x2300 6 32 1) := by
  rw [refRestartNoted, plant_traceUngated, plant_powerReport]

theorem plant_refRestart (s : State) :
    plant s.refRestart = plant (((refRestarted s).incObj 0x2300 7 64 4096).incObj 0x2300 6 32 1) := by
  rw [refRestart_eq, ← plant_refRestartNoted]
  exact plant_ite _ rfl (plant_floorUngate _)

theorem refRestart_ts (s : State) : s.refRestart.ts = s.ts + 4096 := by
  rw [plant_ts (plant_refRestart s)]
  simp only [State.incObj, State.setObj_ts, refRestarted]

/-! `REF_SEL` (R445) and `SSC_OUT` (R446) -/

theorem refPick_refSel (p : Path) (v : W64) (hv : v = 1 ∨ v = 2) :
    (s.storeObj p 0x2300 3 v).refPick = if v = 2 then decide (s.refs.stB = 1) else decide (s.refs.stA ≠ 1) := by
  have h : (s.storeObj p 0x2300 3 v).obj 0 0x2300 3 0 = v.toNat := by
    have hi : s.instOf p 0x2300 3 = 0 := rfl
    rw [State.storeObj, hi]
    exact obj_setObj_same _ _ _ _ v.isLt
  rw [State.refPick, h]
  rcases hv with rfl | rfl <;> rfl

theorem refSelEff_kept {p : Path} {v : W64} (hq : ¬ ((v = 1 ∧ s.refs.stA ≠ 1) ∨ (v = 2 ∧ s.refs.stB ≠ 1)))
    (hb : (s.storeObj p 0x2300 3 v).refPick = s.refs.inUse) : refSelEff p v s = (none, s.storeObj p 0x2300 3 v) := by
  simp only [refSelEff, if_neg hq, hb, ne_eq, not_true, false_and, if_false]

theorem refSelEff_switched {p : Path} {v : W64} (hq : ¬ ((v = 1 ∧ s.refs.stA ≠ 1) ∨ (v = 2 ∧ s.refs.stB ≠ 1)))
    (hb : (s.storeObj p 0x2300 3 v).refPick = true) (hu : s.refs.inUse = false) (hB : s.refs.stB = 1) (h0 : s.refs.switching = 0)
    (hused : s.refs.used ≠ 0) :
    refSelEff p v s = (none, { s.storeObj p 0x2300 3 v with refs := { s.refs with switching := 1 } }) := by
  have go : (s.storeObj p 0x2300 3 v).refPick ≠ s.refs.inUse ∧ (if (s.storeObj p 0x2300 3 v).refPick then s.refs.stB else s.refs.stA) = 1
      ∧ s.refs.switching = 0 ∧ s.refs.used ≠ 0 := by
    rw [hb, hu]
    exact ⟨by decide, hB, h0, hused⟩
  simp only [refSelEff, if_neg hq, if_pos go]

theorem parkPin_pinOf (s : State) (n f : Nat) (park : Bool) :
    (s.parkPin n f park).pinOf n = { s.pinOf n with parked := true, next := some f, level := park, hiZ := false } :=
  State.pinOf_setPin_same s n _

/-- The two pins that can carry clock out. -/
def sscPin (s : State) (n : Nat) : State :=
  if (s.pinOf n).func = 2 || (s.pinOf n).next = some 2 then s.parkPin n 2 (bit (s.obj 0 0x2D00 (n + 1) 0) 3) else s

theorem sscOutEff_pins (p : Path) (v : W64) : sscOutEff p v s = (none, sscPin (sscPin (s.storeObj p 0x2300 8 v) 0) 1) := rfl

theorem sscPin_without {n i idx sub v : Nat} (h : (s.pinOf n).func ≠ 2 ∧ (s.pinOf n).next ≠ some 2) :
    sscPin (s.setObj i idx sub v) n = s.setObj i idx sub v := by
  simp [sscPin, h.1, h.2]

theorem sscPin_with {n : Nat} (h : (s.pinOf n).func = 2) : sscPin s n = s.parkPin n 2 (bit (s.obj 0 0x2D00 (n + 1) 0) 3) := by
  simp [sscPin, h]

theorem sscPin_objs (s : State) (n : Nat) : (sscPin s n).objs = s.objs := by
  unfold sscPin
  split <;> rfl

theorem sscPin_other (s : State) {n j : Nat} (h : j ≠ n) : (sscPin s n).pinOf j = s.pinOf j := by
  unfold sscPin
  split
  · exact (State.pinOf_setPin s n j _).trans (if_neg h)
  · rfl

/-- Settles O49: each step of qualification, arbitration and the switch, from the branch its condition takes. -/
theorem referencesQualifyAndSwitch : Obligations.ReferencesQualifyAndSwitch := by
  unfold Obligations.ReferencesQualifyAndSwitch
  intro s
  refine ⟨fun diff ha => ?_, fun diff ha hA hB hd => ⟨fun hg => ?_, fun hg => ?_⟩, fun diff ha hA hB hd => ?_,
    fun a b ha hA hB => ⟨fun hab hn => ?_, fun hab hn => ?_, fun h1 h2 => ?_⟩, fun a b ha => ?_, fun hu hA hB h0 => ?_,
    fun hu hA hB h0 hp h4 => ?_, fun hu => ?_, fun h => ?_, fun h => ?_, fun h => ?_, fun h => ?_, fun h => ?_, fun h => ?_,
    fun p v hp hw => ⟨fun hv => ?_, fun hv hA hu => ?_, fun hv hB hu hA h0 => ?_⟩, fun p v hp hw => ⟨fun hn => ?_, fun h2 => ?_⟩⟩
  -- windows
  · exact congrArg Host.Outcome.next (oscWindow_arbitrating ha)
  · refine ⟨_, rfl, ?_⟩
    rw [oscWindow_good ha hA hB hd hg]
    exact ⟨rfl, obj_setObj_same _ _ _ _ (twos_lt diff)⟩
  · refine ⟨_, rfl, ?_⟩
    rw [oscWindow_third ha hA hB hd hg]
    refine qualified_keeps (P := fun r => r.stA = 1 ∧ r.stB = 1 ∧ r.inUse = decide (s.obj 0 0x2300 3 0 = 2)) ?_ fun k => ?_
    · exact ⟨rfl, rfl, refPick_bothQualified s diff⟩
    · exact ⟨rfl, rfl, refPick_bothQualified s diff⟩
  · exact ⟨_, rfl, oscWindow_bad ha hA hB hd⟩
  -- arbitration
  · refine ⟨_, rfl, ?_⟩
    rw [arbitrate_wins (w := true) ha hA hB (by omega) (by simpa using hab) hn]
    exact qualified_keeps (P := fun r => r.arb = false ∧ r.stA = 1 ∧ r.stB = 2 ∧ r.inUse = false) ⟨rfl, rfl, rfl, rfl⟩
      fun k => ⟨rfl, rfl, rfl, rfl⟩
  · refine ⟨_, rfl, ?_⟩
    rw [arbitrate_wins (w := false) ha hA hB (by omega) (by simp; omega) hn]
    exact qualified_keeps (P := fun r => r.arb = false ∧ r.stA = 2 ∧ r.stB = 1 ∧ r.inUse = true) ⟨rfl, rfl, rfl, rfl⟩
      fun k => ⟨rfl, rfl, rfl, rfl⟩
  · refine ⟨_, rfl, ?_⟩
    beta_reduce
    rw [arbitrate_none ha hA hB h1 h2]
    exact ⟨rfl, rfl, rfl⟩
  · change Host.Outcome.next (s.arbitrate a b) = _
    rw [State.arbitrate, if_pos (by rw [ha]; rfl)]
  -- edges lost
  · rw [refEdgeLoss_inUseA hu hA, refFailed_switches (by rw [edgesLost_refs]; exact h0)]
    · rw [edgesLost_refs, edgesLost_eq hu]
      rfl
    · rw [edgesLost_refs, Refs.other, hu]
      exact hB
  · refine ⟨_, refEdgeLoss_inUseA hu hA, ?_⟩
    rw [refFailed_trips]
    beta_reduce
    rw [tripNow_refs, edgesLost_refs, tripNow_pwrState]
    · exact ⟨rfl, rfl⟩
    · rwa [edgesLost_pwrState]
    · rw [edgesLost_refs]; exact h0
    · rw [edgesLost_refs, Refs.other, hu]; exact hB
    · rwa [edgesLost_pwrState]
    · rwa [edgesLost_pwrState]
  · change execRefEdgeLoss s = _
    simp only [execRefEdgeLoss, if_pos hu]
  -- the switch
  · rw [Gives, refSwitchStart_next, if_pos h]
    exact ⟨_, rfl, floorGate_refs _, (plant_pwrState (plant_floorGate _)).trans rfl⟩
  · rw [refSwitchStart_next, if_neg h]
  · rw [Gives, refSwitchStop_next, if_pos h]
    exact ⟨_, rfl, rfl, (withRefs_ts _ _).trans (plant_ts (plant_traceUngated s 1 0))⟩
  · rw [refSwitchStop_next, if_neg h]
  · rw [Gives, refSwitchRestart_next, if_pos h]
    refine ⟨_, rfl, refRestart_refs s, refRestart_ts s, ?_, ?_⟩
    · rw [plant_obj (plant_refRestart s) (by decide), incObj_obj _ (by decide), incObj_obj_ne _ (by decide),
        refRestarted_obj]
    · rw [plant_obj (plant_refRestart s) (by decide), incObj_obj_ne _ (by decide), incObj_obj _ (by decide),
        refRestarted_obj]
  · rw [refSwitchRestart_next, if_neg h]
  -- REF_SEL
  · exact unit_write_refuses hp hw (if_pos hv)
  · refine unit_write_accepts hp hw ?_
    exact refSelEff_kept (by simp [hv, hA]) ((refPick_refSel p v (.inl hv)).trans (by simp [hv, hA, hu]))
  · refine unit_write_accepts hp hw ?_
    exact refSelEff_switched (by simp [hv, hB]) ((refPick_refSel p v (.inr hv)).trans (by simp [hv, hB])) hu hB h0 (by simp [Refs.used, hu, hA])
  -- SSC_OUT
  · refine unit_write_accepts hp hw ?_
    rw [sscOutEff_pins, State.storeObj, sscPin_without (hn 0 (by decide)), sscPin_without (hn 1 (by decide))]
  · refine ⟨_, unit_write_accepts hp hw (sscOutEff_pins p v), ?_⟩
    have h0 : sscPin (s.storeObj p 0x2300 8 v) 0 = _ := sscPin_with h2
    refine ⟨?_, ?_, ?_⟩
    · rw [State.pinOf_out', sscPin_other _ (by decide), h0, parkPin_pinOf]
    · rw [State.pinOf_out', sscPin_other _ (by decide), h0, parkPin_pinOf]
    · have hobj : (sscPin (sscPin (s.storeObj p 0x2300 8 v) 0) 1).objs = (s.setObj 0 0x2300 8 v.toNat).objs :=
        (sscPin_objs _ 1).trans (sscPin_objs _ 0)
      rw [State.obj, State.out_objs, hobj]
      exact obj_setObj_same (s := s) 0 0x2300 8 0 v.isLt

end Sys2Proof.Proofs
end

section
/-! PROOFS. Floor (R429 to R431): a cause comes into force, or is no longer in force. -/

open Sys2Proof Sys2Proof.Machine Sys2Proof.Claims Sys2Proof.Laws

namespace Sys2Proof.Proofs

variable {s : State} {b : Nat} {c : W16}

theorem bit_add_self {x : Nat} (h : bit x b = false) : bit (x + 2 ^ b) b = true := by
  have hb : 0 < 2 ^ b := Nat.two_pow_pos b
  rw [bit, decide_eq_false_iff_not] at h
  rw [bit, decide_eq_true_eq, Nat.add_div_right x hb]
  omega

theorem bit_sub_self {x : Nat} (h : bit x b = true) : bit (x - 2 ^ b) b = false := by
  have hd : (x - 2 ^ b) / 2 ^ b = x / 2 ^ b - 1 := by simpa using Nat.sub_mul_div x (2 ^ b) 1
  rw [bit, decide_eq_true_eq] at h
  rw [bit, decide_eq_false_iff_not, hd]
  omega

/-! A cause comes into force -/

/-- The cause's code is logged and its bit set. -/
def causeNoted (s : State) (b : Nat) (c : W16) : State :=
  { s.powerReport c 8 b with power := { (s.powerReport c 8 b).power with causes := (s.powerReport c 8 b).power.causes + 2 ^ b } }

/-- Floor is entered with a code. -/
def floorEntered (s : State) (c : W16) : State :=
  ((State.setObj { s with power := { s.power with floorCode := c } } 0 0x2100 8 3).floorGate).event none c 0 0 0

theorem causeNoted_pwrState (s : State) (b : Nat) (c : W16) : (causeNoted s b c).pwrState = s.pwrState :=
  calc (causeNoted s b c).pwrState = (s.powerReport c 8 b).pwrState := by simp only [causeNoted, State.pwrState, State.obj]
    _ = s.pwrState := plant_pwrState (plant_powerReport ..)

theorem floorCause_run (hp : s.pwrState = 2) (hb : bit s.power.causes b = false) :
    s.floorCause b (some c) = floorEntered (causeNoted s b c) c := by
  have new : ¬ (bit s.power.causes b ∨ s.pwrState = 0 ∨ s.pwrState = 4) := by simp [hb, hp]
  unfold State.floorCause
  rw [if_neg new]
  exact if_pos ((causeNoted_pwrState s b c).trans hp)

theorem floorEntered_power (s : State) (c : W16) : (floorEntered s c).power = { s.power with floorCode := c } := by
  rw [floorEntered, plant_power (plant_event ..), plant_power (plant_floorGate _), State.setObj_power]

theorem floorEntered_pwrState (s : State) (c : W16) : (floorEntered s c).pwrState = 3 := by
  rw [floorEntered, plant_pwrState (plant_event ..), plant_pwrState (plant_floorGate _), pwrState_setObj (by decide)]

theorem causeNoted_power (s : State) (b : Nat) (c : W16) :
    (causeNoted s b c).power = { s.power with causes := s.power.causes + 2 ^ b } := by
  rw [causeNoted, plant_power (plant_powerReport ..)]

/-- In Run a new cause brings Floor. -/
theorem floorCause_enters (hp : s.pwrState = 2) (hb : bit s.power.causes b = false) :
    (s.floorCause b (some c)).pwrState = 3 ∧ (s.floorCause b (some c)).power =
      { s.power with causes := s.power.causes + 2 ^ b, floorCode := c } := by
  rw [floorCause_run hp hb, floorEntered_pwrState, floorEntered_power, causeNoted_power]
  exact ⟨rfl, rfl⟩

theorem floorCause_bit (hp : s.pwrState = 2) (hb : bit s.power.causes b = false) :
    bit (s.floorCause b (some c)).power.causes b = true := by
  rw [(floorCause_enters hp hb).2]
  exact bit_add_self hb

/-- Floor changes no stage. -/
theorem floorCause_convs (s : State) (b : Nat) (c : W16) : (s.floorCause b (some c)).convs = s.convs := by
  have noted : (causeNoted s b c).convs = s.convs :=
    (show (causeNoted s b c).convs = (s.powerReport c 8 b).convs from rfl).trans (plant_convs (plant_powerReport ..))
  unfold State.floorCause
  by_cases new : bit s.power.causes b ∨ s.pwrState = 0 ∨ s.pwrState = 4
  · rw [if_pos new]
  · rw [if_neg new]
    change State.convs (if (causeNoted s b c).pwrState = 2 then floorEntered (causeNoted s b c) c
      else if (causeNoted s b c).pwrState = 3 ∧ (some c).isSome then (causeNoted s b c).event none c 0 0 0 else causeNoted s b c) = _
    split
    · rw [floorEntered, plant_convs (plant_event ..), plant_convs (plant_floorGate _), State.setObj_convs]
      exact noted
    · split
      · exact noted
      · exact noted

/-! A cause is no longer in force -/

theorem floorClear_bit (s : State) (b : Nat) : bit (s.floorClear b).power.causes b = false := by
  cases h : bit s.power.causes b with
  | true => simpa [State.floorClear, h] using bit_sub_self h
  | false => simp [State.floorClear, h]

theorem floorClear_pwrState (s : State) (b : Nat) : (s.floorClear b).pwrState = s.pwrState := by
  simp only [State.pwrState, State.obj, State.floorClear]

theorem tripClear_pwrState (s : State) (c : W16) : (s.tripClear c).pwrState = s.pwrState := by
  simp only [State.pwrState, State.obj, State.tripClear]

theorem tripClear_causes (s : State) (c : W16) : c ∉ (s.tripClear c).power.tripCauses := by
  simp [State.tripClear, List.mem_filter]

end Sys2Proof.Proofs
end

section
/-! PROOFS. Input and converters (R420, R422, R423, R425). -/

open Sys2Proof Sys2Proof.Machine Sys2Proof.Claims Sys2Proof.Laws

namespace Sys2Proof.Proofs

variable {s : State} {k : Nat} {code : W16}

theorem setVin_pwrState (s : State) (dv : Nat) : (s.setVin dv).pwrState = s.pwrState := obj_setObj_ne (by decide) _ _

/-! A stage that fails (R422, R423) -/

/-- The remaining intermediate-bus converters raise their alert (R439). -/
def ibcsAlert (s : State) : State :=
  (List.range 8).foldl (fun s j => if (s.conv j).st = 2 then s.setConv j { s.conv j with alert := true } else s) s

/-- A stage that is not on keeps its state. -/
theorem ibcsAlert_conv (h : (s.conv k).st ≠ 2) : (ibcsAlert s).conv k = s.conv k := by
  have fold (l : List Nat) (s : State) (h : (s.conv k).st ≠ 2) :
      State.conv (l.foldl (fun s j => if (s.conv j).st = 2 then s.setConv j { s.conv j with alert := true } else s) s) k = s.conv k := by
    induction l generalizing s with
    | nil => rfl
    | cons j l ih =>
      have e : State.conv (if (s.conv j).st = 2 then s.setConv j { s.conv j with alert := true } else s) k = s.conv k := by
        split
        · next hj =>
          refine (State.conv_setConv s j k _).trans (if_neg ?_)
          rintro rfl
          exact h hj
        · rfl
      rw [List.foldl_cons, ih _ (by rwa [e]), e]
  exact fold _ s h

theorem alertSettle_convs (s : State) : s.alertSettle.convs = s.convs := by
  unfold State.alertSettle
  split
  · exact floorCause_convs ..
  · rfl

theorem frame_not_stage (h : k < 8 ∨ k = 104 ∨ k = 105) : k ∉ frameStages ∧ k ∉ optStages := by
  refine ⟨fun hm => ?_, fun hm => ?_⟩
  · obtain ⟨a, ha, rfl⟩ := List.mem_map.mp hm
    rw [List.mem_range] at ha
    omega
  · obtain ⟨a, ha, rfl⟩ := List.mem_map.mp hm
    rw [List.mem_range] at ha
    omega

theorem conv_of_convs {t : State} (h : t.convs = s.convs) : t.conv k = s.conv k := by rw [State.conv, h]; rfl

theorem conv_ite {c : Prop} [Decidable c] {a b : State} {v : Conv} (ha : a.conv k = v) (hb : b.conv k = v) :
    (if c then a else b).conv k = v := by
  split
  · exact ha
  · exact hb

theorem stageLost_ibc (h8 : k < 8) : s.stageLost k code = if s.ibcs < 2 then s.tripNow code
    else if s.pwrState = 2 ∧ s.ibcs * (if s.power.peakOff then 3750 else 4250) < s.power.inp then (ibcsAlert s).alertSettle else s := by
  unfold State.stageLost
  exact if_pos h8

/-- The loss of a stage leaves what is noted of the stage itself. -/
theorem stageLost_conv (hk : k < 112) (h : (s.conv k).st ≠ 2) : (s.stageLost k code).conv k = s.conv k := by
  by_cases h8 : k < 8
  · rw [stageLost_ibc h8]
    split
    · exact tripNow_conv s code (frame_not_stage (.inl h8))
    · refine conv_ite ?_ rfl
      rw [conv_of_convs (alertSettle_convs _), ibcsAlert_conv h]
  unfold State.stageLost
  rw [if_neg h8]
  by_cases h104 : k < 104
  · rw [if_pos h104]
    extract_lets f
    split
    · rfl
    · exact plant_conv ((plant_foldl _ (fun s c => plant_railLost s c) _).trans (plant_setFrame s _ _)) k
  rw [if_neg h104]
  by_cases h106 : k < 106
  · rw [if_pos h106]
    split
    · rfl
    · exact tripNow_conv s code (frame_not_stage (by omega))
  rw [if_neg h106, if_pos hk]
  split
  · rfl
  · exact plant_conv (plant_portDown s _) k

/-- A short, latched off. -/
def shortLatched (s : State) (k : Nat) : State :=
  (s.setConv k { s.conv k with st := 0, latched := true, alert := false }).powerReport 0x9003#16 8 k

/-- The report of a lockout. -/
def lockoutReport (k : Nat) : Report := ⟨0x9004#16, 2, none, 8, 0, k, 0, 0, 0⟩

/-- A short, locked out. -/
def shortLocked (s : State) (k : Nat) : State :=
  (((((s.setConv k { s.conv k with st := 3, latched := false, alert := false }).powerReport 0x9003#16 8 k).report (lockoutReport k)).cperAdd
    (lockoutReport k) (if s.stage < 5 then 0 else 2) 0 1 (s.stage < 5)).event none 0x9004#16 0 0 (BitVec.ofNat 64 k))

section Short
variable (h : (s.conv k).st = 1 ∨ (s.conv k).st = 2)
include h

theorem convShort_latches (hr : (s.conv k).retries < 3) : s.convShort k = (shortLatched s k).stageLost k 0x9003#16 := by
  have on : ¬ ((s.conv k).st ≠ 1 ∧ (s.conv k).st ≠ 2) := by omega
  simp only [State.convShort, if_neg on, if_pos hr]
  rfl

theorem convShort_locks (hr : 3 ≤ (s.conv k).retries) : s.convShort k = (shortLocked s k).stageLost k 0x9004#16 := by
  have on : ¬ ((s.conv k).st ≠ 1 ∧ (s.conv k).st ≠ 2) := by omega
  simp only [State.convShort, if_neg on, if_neg (not_lt.mpr hr)]
  rfl

end Short

theorem convShort_off (h1 : (s.conv k).st ≠ 1) (h2 : (s.conv k).st ≠ 2) : s.convShort k = s := if_pos ⟨h1, h2⟩

theorem shortLatched_conv (s : State) (k : Nat) : (shortLatched s k).conv k = { s.conv k with st := 0, latched := true, alert := false } :=
  (plant_conv (plant_powerReport ..) k).trans (State.conv_setConv_same s k _)

theorem plant_shortLocked (s : State) (k : Nat) :
    plant (shortLocked s k) = plant (s.setConv k { s.conv k with st := 3, latched := false, alert := false }) := by
  rw [shortLocked, plant_event, plant_cperAdd, plant_report, plant_powerReport]

theorem shortLocked_conv (s : State) (k : Nat) : (shortLocked s k).conv k = { s.conv k with st := 3, latched := false, alert := false } :=
  (plant_conv (plant_shortLocked s k) k).trans (State.conv_setConv_same s k _)

/-- Without power a Frame's stage loses nothing. -/
theorem stageLost_frame_off (h8 : 8 ≤ k) (h104 : k < 104) (hp : s.pwrState = 0) : s.stageLost k code = s := by
  unfold State.stageLost
  rw [if_neg (by omega), if_pos h104]
  exact if_pos (.inl hp)

theorem shortLocked_event (s : State) (k : Nat) : ∃ e ∈ (shortLocked s k).events, e.code = 0x9004#16 ∧ e.ctx = none :=
  ⟨_, List.mem_append_right _ (List.mem_singleton_self _), rfl, rfl⟩

/-! A stage that is on (R422, R458) -/

/-- The causes of Trip that a supply's return clears. -/
def supplyBack (s : State) : State :=
  if s.ibcs < 2 then s else if s.rimOn then [0x9003#16, 0x9004#16].foldl (fun s c => s.tripClear c) s else s

/-- A port begins to train. -/
def opticsOn (s : State) (q : Nat) : State :=
  s.setPort q { s.port q with st := 1, lanes := (List.range 96).map (fun l => (l, 1)), light := false }

theorem convOn_eq (s : State) (k : Nat) : s.convOn k =
    let s2 := supplyBack (s.setConv k { s.conv k with st := 2 })
    if 106 ≤ k ∧ k < 112 ∧ (s2.pwrState = 1 ∨ s2.pwrState = 2 ∨ s2.pwrState = 3) then opticsOn s2 (k - 106) else s2 := rfl

theorem supplyBack_convs (s : State) : (supplyBack s).convs = s.convs := by
  unfold supplyBack
  split
  · rfl
  · split <;> rfl

theorem supplyBack_pwrState (s : State) : (supplyBack s).pwrState = s.pwrState := by
  unfold supplyBack
  split
  · rfl
  · split
    · exact (tripClear_pwrState _ _).trans (tripClear_pwrState _ _)
    · rfl

theorem setConv_pwrState (s : State) (k : Nat) (v : Conv) : (s.setConv k v).pwrState = s.pwrState := by
  simp only [State.pwrState, State.obj, State.setConv]

theorem convOn_conv (s : State) (k : Nat) : (s.convOn k).conv k = { s.conv k with st := 2 } := by
  have e : (s.convOn k).convs = (s.setConv k { s.conv k with st := 2 }).convs := by
    rw [convOn_eq]
    dsimp only
    split <;> exact supplyBack_convs _
  rw [State.conv, e]
  exact State.conv_setConv_same s k _

theorem convOn_port (h1 : 106 ≤ k) (h2 : k < 112) (hp : s.pwrState = 1 ∨ s.pwrState = 2 ∨ s.pwrState = 3) :
    ((s.convOn k).port (k - 106)).st = 1 := by
  have e : (supplyBack (s.setConv k { s.conv k with st := 2 })).pwrState = s.pwrState :=
    (supplyBack_pwrState _).trans (setConv_pwrState ..)
  rw [convOn_eq]
  dsimp only
  rw [if_pos ⟨h1, h2, by rwa [e]⟩, opticsOn, State.port_setPort_same]

/-! Lockouts, the rails and the dark -/

/-- A lockout that is cleared. -/
def unlocked (v : Conv) : Conv := if v.st = 3 then {} else v

def lockoutsCleared (s : State) : State := { s with convs := s.convs.map (fun (e : Nat × Conv) => (e.1, if e.2.st = 3 then {} else e.2)) }

theorem lockoutsCleared_conv (s : State) (j : Nat) : (lockoutsCleared s).conv j = unlocked (s.conv j) :=
  tget_map unlocked rfl s.convs j

theorem rampUp_conv (s : State) (ks : List Nat) (j : Nat) :
    (s.rampUp ks).conv j = if j ∈ ks ∧ (s.conv j).st = 0 then { s.conv j with st := 1 } else s.conv j := by
  induction ks generalizing s with
  | nil => simp [State.rampUp]
  | cons i ks ih =>
    rw [show s.rampUp (i :: ks) = State.rampUp (if (s.conv i).st = 0 then s.setConv i { s.conv i with st := 1 } else s) ks from rfl, ih]
    by_cases hi : (s.conv i).st = 0
    · rw [if_pos hi, State.conv_setConv]
      by_cases hj : j = i
      · subst hj; simp [hi]
      · simp [hj]
    · rw [if_neg hi]
      by_cases hj : j = i
      · subst hj; simp [hi]
      · simp [hj]

theorem conv_withBoot (s : State) (b : Boot) (r : Refs) (j : Nat) : State.conv { s with boot := b, refs := r } j = s.conv j := rfl

theorem raiseRails_conv (s : State) (j : Nat) :
    s.raiseRails.conv j = (s.rampUp (List.range 8 ++ [104, 105] ++ optStages)).conv j := by
  simp only [State.raiseRails, State.conv_setObj', conv_withBoot]

theorem raiseRails_pwrState (s : State) : s.raiseRails.pwrState = 1 :=
  (obj_setObj_ne (by decide) _ _).trans (pwrState_setObj (by decide))

theorem raiseRails_stage (s : State) : s.raiseRails.stage = 1 := obj_setObj_same _ _ _ _ (by decide)

theorem raiseRails_framesUp (s : State) : s.raiseRails.boot.framesUp = 0 := by
  simp only [State.raiseRails, State.setObj_boot]

theorem out_pwrState (s : State) (o : OutMsg) : (s.out o).pwrState = s.pwrState := rfl
theorem out_stage (s : State) (o : OutMsg) : (s.out o).stage = s.stage := rfl

theorem startDefaults_conv (s : State) (j : Nat) : s.startDefaults.conv j = s.conv j := rfl

/-- A filter by the values keeps an entry whose value it keeps, where it drops what an unlisted key reads as. -/
theorem tget_filter_value {α : Type} {d : α} {p : α → Bool} (hd : p d = false) (k : Nat) : ∀ t : Tbl α, p (tget d t k) = true →
    tget d (t.filter (fun e => p e.2)) k = tget d t k
  | [], h => by rw [show tget d [] k = d from rfl, hd] at h; exact absurd h Bool.false_ne_true
  | (j, v) :: t, h => by
    by_cases hj : j = k
    · have e : tget d ((j, v) :: t) k = v := by simp [tget, hj]
      rw [e] at h ⊢
      rw [List.filter_cons_of_pos (p := fun e : Nat × α => p e.2) h]
      simp [tget, hj]
    · have e : tget d ((j, v) :: t) k = tget d t k := by simp [tget, hj]
      rw [e] at h ⊢
      by_cases hv : p v = true
      · rw [List.filter_cons_of_pos (p := fun e : Nat × α => p e.2) hv]
        simp only [tget, if_neg hj]
        exact tget_filter_value hd k t h
      · rw [List.filter_cons_of_neg (p := fun e : Nat × α => p e.2) hv]
        exact tget_filter_value hd k t h

/-- A lockout survives the dark. -/
theorem dark_conv (h : (s.conv k).st = 3) : s.dark.conv k = s.conv k :=
  tget_filter_value (p := fun v : Conv => decide (v.st = 3)) rfl k s.convs (decide_eq_true h)

/-! The commands -/

theorem inputUndervoltage_trips {dv ms : Nat} (h1 : dv < 3300) (h2 : 10 ≤ ms) :
    exec (.inputUndervoltage dv ms) s = .next ((s.setVin dv).tripNow 0x9001#16) := by
  change execInputUndervoltage dv ms s = _
  rw [execInputUndervoltage, if_pos ⟨h1, h2⟩]

theorem inputUndervoltage_floor {dv ms : Nat} (h1 : 3300 ≤ dv) (h2 : dv < 3550) (h3 : 1 ≤ ms) :
    exec (.inputUndervoltage dv ms) s = .next ((s.setVin dv).floorCause 4 (some 0x9001#16)) := by
  change execInputUndervoltage dv ms s = _
  rw [execInputUndervoltage, if_neg (by omega), if_pos ⟨h2, h3⟩]

theorem inputUndervoltage_good {dv ms : Nat} (h1 : 3550 ≤ dv) : exec (.inputUndervoltage dv ms) s = .next (s.setVin dv) := by
  change execInputUndervoltage dv ms s = _
  rw [execInputUndervoltage, if_neg (by omega), if_neg (by omega)]

theorem inputOvervoltage_trips {dv us : Nat} (h1 : 4300 < dv) (h2 : 100 ≤ us) :
    exec (.inputOvervoltage dv us) s = .next ((s.setVin dv).tripNow 0x9002#16) := by
  change execInputOvervoltage dv us s = _
  rw [execInputOvervoltage, if_pos ⟨h1, h2⟩]

theorem inputOvervoltage_good {dv us : Nat} (h : dv ≤ 4300 ∨ us < 100) : exec (.inputOvervoltage dv us) s = .next (s.setVin dv) := by
  change execInputOvervoltage dv us s = _
  rw [execInputOvervoltage, if_neg (by omega)]

/-- An input that has recovered clears its causes of Floor and Trip. -/
def inputBack (s : State) (dv : Nat) : State := (((s.setVin dv).floorClear 4).tripClear 0x9001#16).tripClear 0x9002#16

theorem inputRecover_recovers {dv ms : Nat} (h1 : 3600 ≤ dv) (h2 : dv ≤ 4300) (h3 : 10 ≤ ms) :
    exec (.inputRecover dv ms) s = .next (inputBack s dv) := by
  change execInputRecover dv ms s = _
  simp only [execInputRecover, if_pos (And.intro h1 h3), if_pos h2]
  rfl

theorem inputRecover_above {dv ms : Nat} (h1 : 4300 < dv) (h2 : ms < 10) : exec (.inputRecover dv ms) s = .next (s.setVin dv) := by
  change execInputRecover dv ms s = _
  rw [execInputRecover, if_neg (by omega), if_neg (by omega)]

theorem inputBack_obj (s : State) (dv : Nat) : (inputBack s dv).obj 0 0x2100 1 0 = min dv 65535 := by
  have e : (inputBack s dv).obj 0 0x2100 1 0 = (s.setVin dv).obj 0 0x2100 1 0 := by
    simp only [inputBack, State.obj, State.tripClear, State.floorClear]
  exact e.trans (obj_setObj_same _ _ _ _ (by omega))

theorem inputBack_tripCauses (s : State) (dv : Nat) :
    0x9001#16 ∉ (inputBack s dv).power.tripCauses ∧ 0x9002#16 ∉ (inputBack s dv).power.tripCauses := by
  simp [inputBack, State.tripClear, List.mem_filter]

theorem inputBack_pwrState (s : State) (dv : Nat) : (inputBack s dv).pwrState = s.pwrState := by
  rw [inputBack, tripClear_pwrState, tripClear_pwrState, floorClear_pwrState, setVin_pwrState]

section Stage
variable (hk : isConv k = true)
include hk

theorem converterShort_next : exec (.converterShort k) s = .next (s.convShort k) := onUnit_next hk _

theorem converterRetry_next : exec (.converterRetry k) s = .next (if (s.conv k).latched ∧ (s.conv k).st = 0 then
    s.setConv k { s.conv k with st := 1, latched := false, retries := (s.conv k).retries + 1 } else s) := onUnit_next hk _

theorem converterRetryReset_next : exec (.converterRetryReset k) s =
    .next (if (s.conv k).st = 2 then s.setConv k { s.conv k with retries := 0 } else s) := onUnit_next hk _

theorem converterRampEnd_next (pct : Nat) : exec (.converterRampEnd k pct) s =
    .next (if (s.conv k).st ≠ 1 then s else if pct < 50 then s.convShort k else s.convOn k) := onUnit_next hk _

end Stage

theorem lockoutClear_next (s : State) : exec .lockoutClear s = .next (if s.boot.powerGood then s else lockoutsCleared s) := rfl

theorem unlocked_st (v : Conv) : (unlocked v).st ≠ 3 ∧ (v.st ≠ 3 → unlocked v = v) := by
  by_cases h : v.st = 3 <;> simp [unlocked, h]

theorem trip_next (s : State) (code : W16) : exec (.trip code) s = .next (if tripCodes.contains code then s.tripNow code else s) := rfl

theorem mem_optStages {j : Nat} (h1 : 106 ≤ j) (h2 : j < 112) : j ∈ optStages :=
  List.mem_map.mpr ⟨j - 106, List.mem_range.mpr (by omega), by omega⟩

theorem mem_railStages {j : Nat} (h : j < 8 ∨ j = 104 ∨ j = 105 ∨ (106 ≤ j ∧ j < 112)) : j ∈ List.range 8 ++ [104, 105] ++ optStages := by
  rcases h with h | rfl | rfl | ⟨h1, h2⟩
  · exact List.mem_append_left _ (List.mem_append_left _ (List.mem_range.mpr h))
  · exact List.mem_append_left _ (List.mem_append_right _ List.mem_cons_self)
  · exact List.mem_append_left _ (List.mem_append_right _ (List.mem_cons_of_mem _ List.mem_cons_self))
  · exact List.mem_append_right _ (mem_optStages h1 h2)

theorem tripNow_entered (h0 : s.pwrState ≠ 0) (h4 : s.pwrState ≠ 4) : (s.tripNow code).power.causes = 0
    ∧ ∀ j, 106 ≤ j → j < 112 → ((s.tripNow code).conv j).st = 0 ∨ ((s.tripNow code).conv j).st = 3 := by
  rw [tripNow_enters h0 h4]
  refine ⟨by rw [State.setObj_power, tripRails_power]; rfl, fun j h1 h2 => ?_⟩
  rw [State.conv_setObj', tripRails_conv, if_pos (.inr (mem_optStages h1 h2))]
  exact conv_off_st _

theorem pwrRestartEff_restarts (h4 : s.pwrState = 4) (hc : s.power.tripCauses = []) : pwrRestartEff s = (none, s.startDefaults.raiseRails) :=
  if_neg (by simp [h4, hc])

theorem pwrRestartEff_refuses (h : s.pwrState ≠ 4 ∨ s.power.tripCauses ≠ []) : pwrRestartEff s = (some badState, s) :=
  if_pos (h.imp_right (by simp))

/-- Settles O47: the commands' branches, and what Trip, Floor and the loss of a stage leave of the stages. -/
theorem inputsConvertersTrip : Obligations.InputsConvertersTrip := by
  unfold Obligations.InputsConvertersTrip
  intro k s hk
  refine ⟨fun dv ms h1 h2 h0 h4 => ?_, fun dv ms h1 h2 h3 hp hb => ?_, fun dv ms h1 => inputUndervoltage_good h1,
    fun dv us h1 h2 h0 h4 => ?_, fun dv us h => inputOvervoltage_good h, fun dv ms h1 h2 h3 => ?_, fun dv ms h1 h2 => inputRecover_above h1 h2,
    fun hon h112 => ⟨fun hr => ?_, fun hr => ?_⟩, fun hon hk' hr => ?_, fun h1 h2 => ?_, fun h0 hl => ?_, fun h => ?_, fun h2 => ?_,
    fun h2 => ?_, fun pct => ⟨fun h1 hp => ?_, fun h1 hp => ?_, fun h1 => ?_⟩, fun hg => ?_, fun hg => ?_,
    fun code => ⟨fun hm h0 h4 => ?_, fun hm => ?_⟩, fun p w hp hw => ⟨fun h4 hc => ?_, fun h => ?_⟩, ?_⟩
  -- the input
  · have h0' : (s.setVin dv).pwrState ≠ 0 := by rwa [setVin_pwrState]
    exact ⟨_, inputUndervoltage_trips h1 h2, tripNow_pwrState h0', tripNow_causes h0'⟩
  · have hp' : (s.setVin dv).pwrState = 2 := by rwa [setVin_pwrState]
    exact ⟨_, inputUndervoltage_floor h1 h2 h3, (floorCause_enters hp' hb).1, floorCause_bit hp' hb⟩
  · have h0' : (s.setVin dv).pwrState ≠ 0 := by rwa [setVin_pwrState]
    exact ⟨_, inputOvervoltage_trips h1 h2, tripNow_pwrState h0', tripNow_causes h0'⟩
  · refine ⟨_, inputRecover_recovers h1 h2 h3, floorClear_bit _ 4, (inputBack_tripCauses s dv).1, (inputBack_tripCauses s dv).2, ?_,
      inputBack_pwrState s dv⟩
    rw [inputBack_obj, Nat.min_eq_left (by omega)]
  -- a short
  · refine ⟨_, converterShort_next hk, ?_⟩
    beta_reduce
    have hst : ((shortLatched s k).conv k).st ≠ 2 := by rw [shortLatched_conv]; exact Nat.zero_ne_add_one 1
    rw [convShort_latches hon hr, stageLost_conv h112 hst, shortLatched_conv]
  · refine ⟨_, converterShort_next hk, ?_⟩
    beta_reduce
    have hst : ((shortLocked s k).conv k).st ≠ 2 := by rw [shortLocked_conv]; exact Nat.succ_ne_self 2
    rw [convShort_locks hon hr, stageLost_conv h112 hst, shortLocked_conv]
    refine ⟨rfl, fun h8 h104 hp => ?_⟩
    have hp' : (shortLocked s k).pwrState = 0 := by rw [plant_pwrState (plant_shortLocked s k), setConv_pwrState, hp]
    rw [stageLost_frame_off h8 h104 hp']
    exact shortLocked_event s k
  · refine ⟨_, converterShort_next hk, ?_⟩
    beta_reduce
    rw [convShort_latches hon hr, hk']
    exact ⟨rfl, rfl⟩
  · rw [converterShort_next hk, convShort_off h1 h2]
  -- retries
  · rw [converterRetry_next hk, if_pos ⟨hl, h0⟩]
  · rw [converterRetry_next hk, if_neg]
    rintro ⟨hl, h0⟩
    rcases h with h | h
    · exact h h0
    · rw [h] at hl
      exact Bool.false_ne_true hl
  · rw [converterRetryReset_next hk, if_pos h2]
  · rw [converterRetryReset_next hk, if_neg h2]
  -- ramps
  · rw [Gives, converterRampEnd_next hk, if_neg (by omega), if_neg (by omega)]
    exact ⟨_, rfl, convOn_conv s k, fun h1 h2 hs => convOn_port h1 h2 hs⟩
  · rw [converterRampEnd_next hk, if_neg (by omega), if_pos hp, converterShort_next hk]
  · rw [converterRampEnd_next hk, if_pos h1]
  -- lockouts
  · rw [Gives, lockoutClear_next, if_neg (by rw [hg]; decide)]
    refine ⟨_, rfl, fun j => ?_⟩
    rw [lockoutsCleared_conv]
    exact unlocked_st _
  · rw [lockoutClear_next, hg]
    rfl
  -- Trip and its end
  · rw [Gives, trip_next, if_pos (List.contains_iff_mem.mpr hm)]
    exact ⟨_, rfl, tripNow_pwrState h0, tripNow_causes h0, tripNow_entered h0 h4⟩
  · rw [trip_next, if_neg (by simpa using hm)]
  · refine ⟨_, unit_write_accepts hp hw (pwrRestartEff_restarts h4 hc), ?_⟩
    beta_reduce
    rw [out_pwrState, raiseRails_pwrState, out_stage, raiseRails_stage, State.out_boot, raiseRails_framesUp]
    refine ⟨rfl, rfl, rfl, List.mem_cons_self, fun j hj hst => ?_⟩
    rw [State.conv_out', raiseRails_conv, rampUp_conv, startDefaults_conv, if_pos ⟨mem_railStages hj, hst⟩]
  · exact unit_write_refuses hp hw (pwrRestartEff_refuses h)
  · exact ⟨_, rfl, rfl, rfl, rfl, rfl, rfl, rfl, rfl, rfl, fun h => by rw [dark_conv h, h]⟩

end Sys2Proof.Proofs
end


section
/-! PROOFS. The governor (R426 to R428, R436). -/

open Sys2Proof Sys2Proof.Machine Sys2Proof.Claims Sys2Proof.Laws

namespace Sys2Proof.Proofs

variable {s : State} {inp base links mem comp : Nat}

theorem pwrState_of_objs {t : State} (h : t.objs = s.objs) : t.pwrState = s.pwrState := by
  rw [State.pwrState, State.obj, h]; rfl

/-! A sample -/

/-- The sample enters the window and the sums of the millisecond. -/
def sampled (s : State) (inp base : Nat) : State :=
  let w0 := s.power.sample inp s.pwrCap
  State.setObj { s with power := { w0 with inpSum := w0.inpSum + inp, inpN := w0.inpN + 1, baseSum := w0.baseSum + base } } 0 0x2100 6
    (10 * w0.aboveAt.length)

theorem governor_eq (s : State) (inp base links mem comp : Nat) : s.governor inp base links mem comp =
    if (sampled s inp base).pwrState == 2 || (sampled s inp base).pwrState == 3 then
      ((sampled s inp base).throttleTo inp ((sampled s inp base).levels base links mem comp)).thrCount (base + links + mem + comp)
    else sampled s inp base := rfl

theorem sampled_pwrState (s : State) (inp base : Nat) : (sampled s inp base).pwrState = s.pwrState :=
  (obj_setObj_ne (by decide) _ _).trans (pwrState_of_objs rfl)

theorem sampled_pwrCap (s : State) (inp base : Nat) : (sampled s inp base).pwrCap = s.pwrCap := by
  refine (obj_setObj_ne (by decide) _ _).trans ?_
  simp only [State.pwrCap, State.obj]

theorem sampled_prio (s : State) (inp base : Nat) : (sampled s inp base).obj 0 0x2100 7 0x24 = s.obj 0 0x2100 7 0x24 := by
  refine (obj_setObj_ne (by decide) _ _).trans ?_
  simp only [State.obj]

/-- A sample above the cap is counted (R427). -/
theorem sampled_above (h : s.pwrCap < inp) : s.power.tick + 1 ∈ (sampled s inp base).power.aboveAt := by
  rw [sampled, State.setObj_power]
  simp [Power.sample, h]

/-! What the classes are given (R428) -/

/-- Where everything fits, each class is given its demand. -/
theorem tget_allot {demand : Nat → Nat} {c : Nat} : ∀ {l : List Nat} {rest : Nat}, (l.map demand).sum ≤ rest → c ∈ l →
    tget 0 (allot demand l rest) c = demand c
  | a :: l, rest, hs, hc => by
    rw [List.map_cons, List.sum_cons] at hs
    rw [allot, Nat.min_eq_left (by omega)]
    by_cases h : a = c
    · subst h; simp [tget]
    · have hc' : c ∈ l := (List.mem_cons.mp hc).resolve_left fun e => h e.symm
      simp only [tget, if_neg h]
      exact tget_allot (by omega) hc'

theorem three_classes : ∀ a b c : Fin 3, a ≠ b → b ≠ c → a ≠ c → [a.val, b.val, c.val].Perm [0, 1, 2] := by decide

/-- `PRIO_ORDER` names each class once. -/
theorem prio_perm (h : prioOk (s.obj 0 0x2100 7 0x24) = true) : s.prio.Perm [0, 1, 2] := by
  obtain ⟨-, ha, hb, hc, hab, hbc, hac⟩ := of_decide_eq_true h
  exact three_classes ⟨_, ha⟩ ⟨_, hb⟩ ⟨_, hc⟩ (Fin.ne_of_val_ne hab) (Fin.ne_of_val_ne hbc) (Fin.ne_of_val_ne hac)

/-- With every class given its demand none is held back. -/
theorem levels_full (hp : prioOk (s.obj 0 0x2100 7 0x24) = true) (h : base + links + mem + comp ≤ s.limitW) :
    s.levels base links mem comp = (96, false, 16) := by
  have fits : (s.prio.map (fun c => lget comp [links, mem] c)).sum ≤ s.limitW - base := by
    rw [((prio_perm hp).map _).sum_eq]
    simp only [lget, List.map_cons, List.map_nil, List.sum_cons, List.sum_nil, List.getElem?_cons_zero, List.getElem?_cons_succ,
      List.getElem?_nil, Option.getD_some, Option.getD_none]
    omega
  have given {c : Nat} (hc : c ∈ [0, 1, 2]) := tget_allot fits ((prio_perm hp).mem_iff.mpr hc)
  simp only [State.levels, given (c := 0) (by decide), given (c := 1) (by decide), given (c := 2) (by decide)]
  simp [level, lget]

/-- The limit is at least the cap where cooling and converters carry it (R426, R427). -/
theorem limitW_ge (hc : s.pwrCap ≤ 30000) (hcool : s.pwrCap ≤ s.power.pcool) (hibc : s.pwrCap ≤ 3750 * s.ibcOn) : s.pwrCap ≤ s.limitW := by
  have grant : s.pwrCap ≤ s.grantW := by
    unfold State.grantW State.peakW
    split <;> omega
  have ibc : s.pwrCap ≤ s.ibcW := by
    unfold State.ibcW
    split <;> omega
  exact le_min (le_min grant hcool) ibc

/-! Classes that are not all at their lowest -/

/-- The levels are in force. -/
def throttled (s : State) (l : Nat × Bool × Nat) : State :=
  let s1 : State := { s with power := { s.power with limit := s.limitW, linkWant := l.1, memThr := l.2.1, compDuty := l.2.2, stuck := 0 } }
  (s1.governLanes l.1 (s1.power.tick % 100 == 0)).dutyCut (fun _ => true)

theorem throttleTo_free {l : Nat × Bool × Nat} (hl : atLowest l = false) :
    s.throttleTo inp l = if Nat.ble inp s.limitW then (throttled s l).floorClear 1 else throttled s l := by
  simp only [State.throttleTo, hl, Bool.false_and, Bool.false_eq_true, if_false]
  rfl

theorem throttleTo_power {l : Nat × Bool × Nat} (hl : atLowest l = false) :
    (s.throttleTo inp l).power.linkWant = l.1 ∧ (s.throttleTo inp l).power.memThr = l.2.1 ∧ (s.throttleTo inp l).power.compDuty = l.2.2
      ∧ (s.throttleTo inp l).power.stuck = 0 := by
  rw [throttleTo_free hl]
  split <;> exact ⟨rfl, rfl, rfl, rfl⟩

theorem throttleTo_pwrState {l : Nat × Bool × Nat} (hl : atLowest l = false) : (s.throttleTo inp l).pwrState = s.pwrState := by
  rw [throttleTo_free hl]
  split
  · exact (floorClear_pwrState _ 1).trans (pwrState_of_objs rfl)
  · exact pwrState_of_objs rfl

/-! The reasons of throttling are counted (R436) -/

theorem reasons_counted (f : Nat → Nat) (l : List Nat) (s : State) :
    State.power (l.foldl (fun s i => s.incObj 0x2120 (i + 1) 64 (f i)) s) = s.power
      ∧ State.pwrState (l.foldl (fun s i => s.incObj 0x2120 (i + 1) 64 (f i)) s) = s.pwrState := by
  induction l generalizing s with
  | nil => exact ⟨rfl, rfl⟩
  | cons i l ih =>
    have hk : okey 0 0x2100 8 ≠ okey 0 0x2120 (i + 1) := by unfold okey; omega
    rw [List.foldl_cons, (ih _).1, (ih _).2]
    exact ⟨rfl, obj_setObj_ne hk _ _⟩

theorem thrCount_power (s : State) (want : Nat) : (s.thrCount want).power = { s.power with slopeUs := 0 } := by
  simp only [State.thrCount, State.incObj, State.setObj_power]
  exact congrArg (fun w : Power => { w with slopeUs := 0 }) (reasons_counted _ _ s).1

theorem thrCount_pwrState (s : State) (want : Nat) : (s.thrCount want).pwrState = s.pwrState := by
  unfold State.thrCount
  extract_lets r s1 s2 w
  have h1 : s1.pwrState = s.pwrState := (reasons_counted _ _ s).2
  have h2 : s2.pwrState = s1.pwrState := obj_setObj_ne (by decide) _ _
  rw [← h1, ← h2]
  exact pwrState_of_objs rfl

end Sys2Proof.Proofs
end

section
/-! PROOFS. Floor, the sensors and energy (R429 to R437). -/

open Sys2Proof Sys2Proof.Machine Sys2Proof.Claims Sys2Proof.Laws

namespace Sys2Proof.Proofs

variable {s : State} {k f : Nat}

/-! Alerts (R429) -/

theorem alertSettle_on (h : s.alerts = true) : s.alertSettle = s.floorCause 0 (some 0x9008#16) := if_pos h
theorem alertSettle_off (h : s.alerts = false) : s.alertSettle = s.floorClear 0 := if_neg (by rw [h]; decide)

/-- The pin's level after a pulse. -/
def pinPulse (s : State) (ns : Nat) : State := { s with power := { s.power with alertLow := decide (0 < ns), alertPin := decide (1000 ≤ ns) } }

theorem pwrAlertPin_next (s : State) (ns : Nat) : exec (.pwrAlertPin ns) s = .next (pinPulse s ns).alertSettle := rfl

theorem pinPulse_pwrState (s : State) (ns : Nat) : (pinPulse s ns).pwrState = s.pwrState := pwrState_of_objs rfl

theorem ibcAlert_next (hk : k < 8) (on : Bool) :
    exec (.ibcAlert k on) s = .next (s.setConv k { s.conv k with alert := on }).alertSettle := onUnit_next (decide_eq_true hk) _

theorem alerts_ibc (hk : k < 8) (v : Conv) (hv : v.alert = true) : (s.setConv k v).alerts = true := by
  have : ∃ j, j < 8 ∧ ((s.setConv k v).conv j).alert = true := ⟨k, hk, by rw [State.conv_setConv_same, hv]⟩
  simpa [State.alerts] using Or.inr this

theorem alerts_none (hp : s.power.alertPin = false) (h : ∀ j < 8, (s.conv j).alert = false) : s.alerts = false := by
  simpa [State.alerts, hp] using h

/-! FLOOR_EXIT (R431) -/

theorem floorExit_next (s : State) : exec .floorExit s = .next s.floorExit := rfl

theorem floorExit_leaves (h : s.pwrState = 3 ∧ s.power.causes = 0) :
    s.floorExit = ((s.setObj 0 0x2100 8 2).floorUngate).event none s.power.floorCode 0 0 0 := if_pos h

theorem floorExit_stays (h : ¬ (s.pwrState = 3 ∧ s.power.causes = 0)) : s.floorExit = s := if_neg h

/-! Current steps (R432) -/

theorem slopeGrantTick_next {reqs : List (Nat × Bool)} (h : reqs.all (fun r => isComb r.1) = true) :
    exec (.slopeGrantTick reqs) s = .next (if s.floorLevel then s else State.slopeGrant reqs 200 s) := onUnit_next h _

theorem slopeGrant_one (r : Nat × Bool) (b : Nat) : State.slopeGrant [r] (b + 1) s = if (s.slopeStep r).1 then (s.slopeStep r).2 else s := by
  cases h : (s.slopeStep r).1 <;> simp [State.slopeGrant, h]

section One
variable {c : Nat} (hc : isComb c = true) (hf : s.floorLevel = false)
include hc hf

theorem slopeGrantTick_one (up : Bool) : exec (.slopeGrantTick [(c, up)]) s =
    .next (if (s.slopeStep (c, up)).1 then (s.slopeStep (c, up)).2 else s) := by
  rw [slopeGrantTick_next (by simpa using hc), if_neg (by rw [hf]; decide), slopeGrant_one]

end One

/-! Temperature (R433) -/

/-- The Frames' temperatures. -/
def tjsRead (s : State) (tj : List Int) : State :=
  (List.range 48).foldl (fun s f => s.setFrame f { s.frame f with tj := lget 0 tj f }) s

/-- Samples in a row at 95 degrees or more, by Frame. -/
def hotAfter (tj : List Int) (hot : Tbl Nat) : Tbl Nat :=
  (List.range 48).foldl (fun h f => tset 0 h f (if 950 ≤ lget 0 tj f then tget 0 h f + 1 else 0)) hot

theorem tjsRead_frames (s : State) (tj : List Int) : ∃ fr, tjsRead s tj = { s with frames := fr } :=
  foldl_setFrame (fun s f => { s.frame f with tj := lget 0 tj f }) _ s

theorem setFrames_tj (tj : List Int) (l : List Nat) (s : State) :
    (State.frame (l.foldl (fun s f => s.setFrame f { s.frame f with tj := lget 0 tj f }) s) f).tj =
      if f ∈ l then lget 0 tj f else (s.frame f).tj := by
  induction l generalizing s with
  | nil => rfl
  | cons g l ih =>
    rw [List.foldl_cons, ih, State.frame_setFrame]
    by_cases hg : f = g
    · subst hg; simp
    · simp [hg]

theorem tjsRead_tj (hf : f < 48) (tj : List Int) : ((tjsRead s tj).frame f).tj = lget 0 tj f := by
  rw [tjsRead, setFrames_tj, if_pos (List.mem_range.mpr hf)]

theorem hotAfter_cool {tj : List Int} (h : ∀ f < 48, lget 0 tj f < 950) : hotAfter tj [] = [] := by
  have fold : ∀ l : List Nat, (∀ f ∈ l, f < 48) →
      l.foldl (fun h f => tset 0 h f (if 950 ≤ lget 0 tj f then tget 0 h f + 1 else 0)) [] = [] := by
    intro l
    induction l with
    | nil => exact fun _ => rfl
    | cons f l ih =>
      intro hl
      have cool : ¬ 950 ≤ lget 0 tj f := by have := h f (hl f List.mem_cons_self); omega
      rw [List.foldl_cons, if_neg cool]
      exact ih fun g hg => hl g (List.mem_cons_of_mem f hg)
  exact fold _ fun f hf => List.mem_range.mp hf

/-- The temperatures and the samples at 95 degrees are taken. -/
def thermalRead (s : State) (tj : List Int) : State :=
  { tjsRead s tj with power := { (tjsRead s tj).power with hot := hotAfter tj (tjsRead s tj).power.hot } }

theorem thermalTick_next {tj : List Int} (h : tj.length = 48) : exec (.thermalTick tj) s = .next (s.thermal tj) :=
  onUnit_next (decide_eq_true h) _

/-- The thermal cause of Floor comes or goes. -/
def thermalFloor (hot : Tbl Nat) (tj : List Int) (s : State) : State :=
  if hot.any (fun e => decide (10 ≤ e.2)) then s.floorCause 2 (some 0x9005#16) else if tj.all (fun t => decide (t ≤ 900)) then s.floorClear 2 else s

/-- Channels are retrained in Run and Floor (R237). -/
def thermalRetrain (tj : List Int) (s : State) : State :=
  if s.pwrState = 2 ∨ s.pwrState = 3 then (List.range 48).foldl (fun s f => s.recalibrate f (lget 0 tj f)) s else s

theorem thermal_eq (s : State) (tj : List Int) : s.thermal tj =
    if tj.any (fun t => decide (1050 ≤ t)) then (thermalRead s tj).tripNow 0x9006#16
    else thermalRetrain tj (thermalFloor (hotAfter tj (tjsRead s tj).power.hot) tj ((thermalRead s tj).tripClear 0x9006#16)) := rfl

theorem thermal_trips {tj : List Int} (h : ∃ x ∈ tj, 1050 ≤ x) : s.thermal tj = (thermalRead s tj).tripNow 0x9006#16 := by
  have above : (tj.any (fun t => decide (1050 ≤ t))) = true := by simpa using h
  rw [thermal_eq, if_pos above]

theorem thermalRead_pwrState (s : State) (tj : List Int) : (thermalRead s tj).pwrState = s.pwrState := by
  obtain ⟨fr, h⟩ := tjsRead_frames s tj
  refine pwrState_of_objs ?_
  rw [thermalRead, h]

theorem thermalRead_hot (s : State) (tj : List Int) : (thermalRead s tj).power.hot = hotAfter tj s.power.hot := by
  obtain ⟨fr, h⟩ := tjsRead_frames s tj
  rw [thermalRead, h]

/-- Below every threshold the thermal cause ends; where Floor and Run are not, no channel is retrained. -/
theorem thermal_cool {tj : List Int} (hl : tj.length = 48) (h : ∀ x ∈ tj, x ≤ 900) (hh : s.power.hot = []) (h2 : s.pwrState ≠ 2) (h3 : s.pwrState ≠ 3) :
    s.thermal tj = ((thermalRead s tj).tripClear 0x9006#16).floorClear 2 := by
  have mem : ∀ f < 48, lget 0 tj f < 950 := by
    intro f hf
    have : lget 0 tj f = tj[f] := by simp [lget, hl, hf]
    have := h _ (List.getElem_mem (l := tj) (n := f) (by omega))
    omega
  have cool : ¬ (tj.any (fun t => decide (1050 ≤ t))) = true := by
    simp only [List.any_eq_true, decide_eq_true_eq, not_exists, not_and, not_le]
    intro x hx
    have := h x hx
    omega
  have hot : hotAfter tj (tjsRead s tj).power.hot = [] := by
    obtain ⟨fr, e⟩ := tjsRead_frames s tj
    rw [e]
    exact (congrArg _ hh).trans (hotAfter_cool mem)
  have all : tj.all (fun t => decide (t ≤ 900)) = true := by simpa using h
  have still : ¬ ((((thermalRead s tj).tripClear 0x9006#16).floorClear 2).pwrState = 2
      ∨ (((thermalRead s tj).tripClear 0x9006#16).floorClear 2).pwrState = 3) := by
    rw [floorClear_pwrState, tripClear_pwrState, thermalRead_pwrState]
    omega
  rw [thermal_eq, if_neg cool, hot, thermalFloor, if_neg (by decide), if_pos all, thermalRetrain, if_neg still]

theorem frame_withPower (s : State) (w : Power) (f : Nat) : State.frame { s with power := w } f = s.frame f := rfl

theorem thermalRead_tj (hf : f < 48) (tj : List Int) : ((thermalRead s tj).frame f).tj = lget 0 tj f := by
  rw [thermalRead, frame_withPower, tjsRead_tj hf]

/-! Duty and voltage of a Frame (R433, R435) -/

section Frame
variable (hf : isFrame f = true)
include hf

theorem throttleStep_next : exec (.throttleStep f) s = .next (s.throttle f) := onUnit_next hf _
theorem avsTick_next (need : Nat) : exec (.avsTick f need) s = .next (s.avs f need) := onUnit_next hf _

end Frame

theorem throttle_up (h : (s.frame f).tj < (s.frameThr f * 10 : Nat) - 20) :
    s.throttle f = s.setFrame f { s.frame f with duty := min 16 ((s.frame f).duty + 1) } := by
  simp only [State.throttle, if_neg (show ¬ ((s.frameThr f * 10 : Nat) : Int) ≤ (s.frame f).tj by omega), if_pos h]

theorem throttle_same (h1 : ((s.frameThr f * 10 : Nat) : Int) - 20 ≤ (s.frame f).tj) (h2 : (s.frame f).tj < (s.frameThr f * 10 : Nat)) :
    s.throttle f = s := by
  simp only [State.throttle, if_neg (not_le.mpr h2), if_neg (not_lt.mpr h1)]

theorem throttle_down (h : ((s.frameThr f * 10 : Nat) : Int) ≤ (s.frame f).tj) :
    (s.throttle f).frame f = { s.frame f with duty := max 1 ((s.frame f).duty - 1) } := by
  simp only [State.throttle, if_pos h]
  exact State.frame_setFrame_same s f _

theorem avs_nominal {need : Nat} (h : vcoreFor (s.frame f) need ≤ 750) :
    s.avs f need = s.setFrame f { s.frame f with vcore := vcoreFor (s.frame f) need } := if_pos h

section Above
variable {need : Nat} (h : 750 < vcoreFor (s.frame f) need)
include h

theorem avs_ms (hm : tget 0 s.power.wearMs f + 1 < 1000) : s.avs f need =
    { s.setFrame f { s.frame f with vcore := vcoreFor (s.frame f) need } with
      power := { s.power with wearMs := tset 0 s.power.wearMs f (tget 0 s.power.wearMs f + 1) } } := by
  simp only [State.avs, if_neg (not_le.mpr h), if_pos hm]

/-- A second above nominal: the wear counts, with a report in the 9,000th hour. -/
theorem avs_second (hm : tget 0 s.power.wearMs f = 999) (hw : (s.frame f).wear + 1 ≠ 36000000) :
    (s.avs f need).frame f = { s.frame f with vcore := vcoreFor (s.frame f) need, wear := (s.frame f).wear + 1 }
      ∧ tget 0 (s.avs f need).power.wearMs f = 0 := by
  have full : ¬ tget 0 s.power.wearMs f + 1 < 1000 := by omega
  simp only [State.avs, if_neg (not_le.mpr h), if_neg full, if_neg hw]
  split
  · rw [State.powerReport, State.frame, report_frames, plant_power (plant_report ..)]
    exact ⟨State.frame_setFrame_same s f _, tget_tset_same 0 s.power.wearMs f 0⟩
  · exact ⟨State.frame_setFrame_same s f _, tget_tset_same 0 s.power.wearMs f 0⟩

end Above

/-! Coolant (R434) -/

/-- The coolant's readings. -/
def coolantRead (s : State) (tin tout : Int) (flow dp : Nat) : State :=
  let s1 := ((((s.setObj 0 0x2200 3 (twos 16 tin)).setObj 0 0x2200 4 (twos 16 tout)).setObj 0 0x2200 5 (min flow 65535)).setObj 0 0x2200 6 (min dp 65535))
  { s1 with power := { s1.power with pcool := pCool tin flow } }

theorem coolantTick_next (s : State) (tin tout : Int) (flow dp : Nat) : exec (.coolantTick tin tout flow dp) s =
    .next (if pCool tin flow < 4000 ∨ flow < 150 ∨ 600 < tout then (coolantRead s tin tout flow dp).floorCause 3 (some 0x9007#16)
      else (coolantRead s tin tout flow dp).floorClear 3) := rfl

theorem coolantRead_pwrState (s : State) (tin tout : Int) (flow dp : Nat) : (coolantRead s tin tout flow dp).pwrState = s.pwrState := by
  have h : (coolantRead s tin tout flow dp).pwrState = ((((s.setObj 0 0x2200 3 (twos 16 tin)).setObj 0 0x2200 4 (twos 16 tout)).setObj 0 0x2200 5
      (min flow 65535)).setObj 0 0x2200 6 (min dp 65535)).pwrState := pwrState_of_objs rfl
  rw [h]
  iterate 3 refine (obj_setObj_ne (by decide) _ _).trans ?_
  exact obj_setObj_ne (by decide) _ _

/-! Energy (R437) -/

theorem addEnergy_obj_ne {slot idx sub fj jdx jsub : Nat} (h : okey 0 jdx jsub ≠ okey 0 idx sub) :
    (s.addEnergy slot idx sub fj).obj 0 jdx jsub 0 = s.obj 0 jdx jsub 0 := by
  rw [State.addEnergy, incObj_obj_ne _ h]
  simp only [State.obj]

theorem addEnergy_obj {slot idx sub fj : Nat} : (s.addEnergy slot idx sub fj).obj 0 idx sub 0 =
    min (s.obj 0 idx sub 0 + (tget 0 s.power.enFrac slot + fj) / mJ) (2 ^ 64 - 1) := by
  rw [State.addEnergy, incObj_obj _ (le_refl 64)]
  simp only [State.obj]

theorem addEnergy_frac (s : State) (slot idx sub fj j : Nat) : tget 0 (s.addEnergy slot idx sub fj).power.enFrac j =
    if j = slot then (tget 0 s.power.enFrac slot + fj) % mJ else tget 0 s.power.enFrac j := tget_tset ..

/-- The baseline and the input of the last millisecond. -/
def energyCounted (s : State) : State := (s.addEnergy 16 0x2A00 17 (s.power.baseSum * 10 ^ 10)).addEnergy 17 0x2100 3 (s.power.inpSum * 10 ^ 10)

/-- The mean of the input over the last millisecond. -/
def inputMean (s : State) (sum n : Nat) : State := if n = 0 then s else s.setObj 0 0x2100 2 (sum / n)

/-- The sums start again. -/
def sumsZeroed (s : State) : State := { s with power := { s.power with inpSum := 0, inpN := 0, baseSum := 0 } }

def energyRest (s : State) : State := sumsZeroed (inputMean (energyCounted s) s.power.inpSum s.power.inpN)

theorem energyTick_one {n : Nat} {a : Activity} (ha : a.ctx = some n) :
    exec (.energyTick [a]) s = .next (energyRest (s.addEnergy (n % 16) 0x2A00 (n % 16 + 1) (energyOf a))) := by
  change Host.Outcome.next (s.energy [a]) = _
  simp only [State.energy, List.foldl_cons, List.foldl_nil, ha]
  rfl

theorem sumsZeroed_obj (s : State) (i idx sub d : Nat) : (sumsZeroed s).obj i idx sub d = s.obj i idx sub d := by
  simp only [State.obj, sumsZeroed]

theorem sumsZeroed_frac (s : State) : (sumsZeroed s).power.enFrac = s.power.enFrac := rfl

theorem inputMean_obj (s : State) (sum k : Nat) {idx sub : Nat} (h : okey 0 idx sub ≠ okey 0 0x2100 2) :
    (inputMean s sum k).obj 0 idx sub 0 = s.obj 0 idx sub 0 := by
  unfold inputMean
  split
  · rfl
  · exact obj_setObj_ne h _ _

theorem inputMean_power (s : State) (sum k : Nat) : (inputMean s sum k).power = s.power := by
  unfold inputMean
  split <;> rfl

theorem energyRest_obj {n : Nat} (hn : n < 16) (s : State) : (energyRest s).obj 0 0x2A00 (n + 1) 0 = s.obj 0 0x2A00 (n + 1) 0 := by
  have h17 : okey 0 0x2A00 (n + 1) ≠ okey 0 0x2A00 17 := by unfold okey; omega
  have h3 : okey 0 0x2A00 (n + 1) ≠ okey 0 0x2100 3 := by unfold okey; omega
  have h2 : okey 0 0x2A00 (n + 1) ≠ okey 0 0x2100 2 := by unfold okey; omega
  rw [energyRest, sumsZeroed_obj, inputMean_obj _ _ _ h2, energyCounted, addEnergy_obj_ne h3, addEnergy_obj_ne h17]

theorem energyRest_frac {n : Nat} (hn : n < 16) (s : State) : tget 0 (energyRest s).power.enFrac n = tget 0 s.power.enFrac n := by
  rw [energyRest, sumsZeroed_frac, inputMean_power, energyCounted, addEnergy_frac, if_neg (by omega), addEnergy_frac, if_neg (by omega)]

end Sys2Proof.Proofs
end


section
/-! PROOFS. Start-up: power-good, reset, firmware, rails (R449, R450, R457, R470). -/

open Sys2Proof Sys2Proof.Machine Sys2Proof.Claims Sys2Proof.Laws

namespace Sys2Proof.Proofs

variable {s : State} {k : Bool} {img : List Byte}

/-! Power-good and reset (R449, R457) -/

theorem powerGood_next (s : State) : exec .powerGood s = .next (if s.boot.powerGood then s else s.powerUp) := rfl

theorem resetNAssert_next (s : State) (us : Nat) : exec (.resetNAssert us) s = .next (if 1000 ≤ us ∧ s.boot.powerGood then s.resetN else s) := rfl

/-- What is put out on the way changes nothing else. -/
theorem foldl_out {α : Type} (g : α → OutMsg) (l : List α) (s : State) : ∃ o, l.foldl (fun s e => s.out (g e)) s = { s with outs := o } := by
  induction l generalizing s with
  | nil => exact ⟨s.outs, rfl⟩
  | cons e l ih =>
    obtain ⟨o, h⟩ := ih (s.out (g e))
    exact ⟨o, h⟩

/-- What a reset leaves, before its pins are low. -/
def resetStart (s : State) : State :=
  State.powerUp { s.dark with
    objs := s.dark.objs ++ s.objs.filter (fun e => [okey 0 0x2100 3, okey 0 0x2900 7, okey 0 0x2900 8].contains e.1)
    power := { s.dark.power with enFrac := s.power.enFrac }, cperNext := s.cperNext }

theorem resetN_outs (s : State) : ∃ o, s.resetN = { resetStart s with outs := o } := foldl_out _ _ _

/-! Firmware (R450) -/

theorem canOut_outs (s : State) (cob : Nat) (l : List Byte) : ∃ o, s.canOut cob l = { s with outs := o } := by
  unfold State.canOut
  simp only [List.foldl_cons, List.foldl_nil]
  split <;> split <;> exact ⟨_, rfl⟩

/-- The Management Port as reset. -/
def mgmtReset (s : State) : Mgmt :=
  { s.mgmt with
    nmt := 127, node := s.obj 0 0x2010 1 127, nomRate := s.obj 0 0x2010 2 1, dataRate := s.obj 0 0x2010 3 1, busEn := s.obj 0 0x2010 4 3
    lss := 0, lssMatch := 0, sdo := none, peekBus := none }

theorem commReset_outs (s : State) : ∃ o, s.commReset = { s with mgmt := mgmtReset s, outs := o } :=
  canOut_outs { s with mgmt := mgmtReset s } (0x700 + s.obj 0 0x2010 1 127) [0]

theorem commReset_boot (s : State) : s.commReset.boot = s.boot := by
  obtain ⟨o, h⟩ := commReset_outs s
  rw [h]

theorem rampUp_cons (s : State) (j : Nat) (ks : List Nat) :
    s.rampUp (j :: ks) = State.rampUp (if (s.conv j).st = 0 then s.setConv j { s.conv j with st := 1 } else s) ks := rfl

theorem rampUp_boot (s : State) (ks : List Nat) : (s.rampUp ks).boot = s.boot := by
  induction ks generalizing s with
  | nil => rfl
  | cons j ks ih =>
    rw [rampUp_cons, ih]
    split <;> rfl

theorem raiseRails_boot (s : State) : s.raiseRails.boot = { s.boot with framesUp := 0 } := by
  simp only [State.raiseRails, State.setObj_boot, rampUp_boot]

theorem forwardTokens_boot (s : State) : s.forwardTokens.boot = { s.boot with asked := tokenPorts, kids := [], counted := 0 } := by
  have sent (l : List Nat) (s : State) : State.boot (l.foldl (fun s p => s.sendToken p) s) = s.boot := by
    induction l generalizing s with
    | nil => rfl
    | cons p l ih => exact ih _
  exact sent _ _

/-- The firmware runs from bank `k`. -/
def runs (k : Bool) (b : Boot) : Prop := b.fw = true ∧ b.bank = k

theorem rollBegin_runs (h : runs k s.boot) : runs k s.rollBegin.boot := by
  unfold State.rollBegin
  split
  · exact h
  · rw [forwardTokens_boot]
    exact h

/-- The bank is entered: the firmware runs, and the pins take their reset configuration. -/
def bankEntered (s : State) (k : Bool) : State :=
  { s with boot := { s.boot with fw := true, bank := k }, pins := (List.range 8).map (fun n => (n, ({ hiZ := false } : Pin))) }

theorem runBank_eq (s : State) (k : Bool) : s.runBank k = (bankEntered s k).commReset.raiseBegin := rfl

theorem runBank_runs (s : State) (k : Bool) : runs k (s.runBank k).boot := by
  have start : runs k (bankEntered s k).commReset.boot := by
    rw [commReset_boot]
    exact ⟨rfl, rfl⟩
  rw [runBank_eq, State.raiseBegin]
  split
  · rw [raiseRails_boot]
    exact start
  · exact start

section Boots
variable (hg : s.boot.powerGood = true) (hf : s.boot.fw = false) (h6 : s.stage ≠ 6)
include hg hf h6

theorem firmwareBoot_waits : ¬ (!s.boot.powerGood ∨ s.boot.fw ∨ s.stage = 6) := by simp [hg, hf, h6]

theorem firmwareBoot_next (h : s.boot.bankOk s.boot.nextBank = true) : s.firmwareBoot = (s.runBank s.boot.nextBank).rollBegin := by
  unfold State.firmwareBoot
  rw [if_neg (firmwareBoot_waits hg hf h6)]
  exact if_pos h

theorem firmwareBoot_other (h : s.boot.bankOk s.boot.nextBank = false) (ho : s.boot.bankOk (!s.boot.nextBank) = true) :
    s.firmwareBoot = ((s.badBank s.boot.nextBank).runBank (!s.boot.nextBank)).rollBegin := by
  unfold State.firmwareBoot
  rw [if_neg (firmwareBoot_waits hg hf h6), if_neg (by rw [h]; decide), if_pos ho]

/-- Neither bank passes: ROM recovery. -/
theorem firmwareBoot_rom (h : s.boot.bankOk s.boot.nextBank = false) (ho : s.boot.bankOk (!s.boot.nextBank) = false) :
    s.firmwareBoot = (((s.badBank s.boot.nextBank).badBank (!s.boot.nextBank)).setObj 0 0x2C00 1 6).setObj 0 0x2100 8 0 := by
  unfold State.firmwareBoot
  rw [if_neg (firmwareBoot_waits hg hf h6), if_neg (by rw [h]; decide), if_neg (by rw [ho]; decide)]

end Boots

theorem badBank_boot (s : State) (k : Bool) : (s.badBank k).boot = s.boot := plant_boot (plant_report ..)

/-! FRAME_RAISE (R449, step 4) -/

/-- The stages of the next Frame ramp. -/
def frameRamped (s : State) : State :=
  { s.rampUp [8 + s.boot.framesUp, 56 + s.boot.framesUp] with boot := { s.boot with framesUp := s.boot.framesUp + 1 } }

theorem frameRaise_raises (h1 : s.stage = 1) (hp : s.pwrState = 1) (hf : s.boot.framesUp < 48) :
    s.frameRaise = if s.boot.framesUp = 47 then (frameRamped s).setObj 0 0x2C00 1 2 else frameRamped s := by
  have go : ¬ (s.stage ≠ 1 ∨ s.pwrState ≠ 1 ∨ 48 ≤ s.boot.framesUp) := by omega
  unfold State.frameRaise
  exact if_neg go

theorem frameRaise_stays (h : s.stage ≠ 1 ∨ s.pwrState ≠ 1 ∨ 48 ≤ s.boot.framesUp) : s.frameRaise = s := if_pos h

theorem rampUp_objs (s : State) (ks : List Nat) : (s.rampUp ks).objs = s.objs := by
  induction ks generalizing s with
  | nil => rfl
  | cons j ks ih =>
    rw [rampUp_cons, ih]
    split <;> rfl

theorem stage_of_objs {t : State} (h : t.objs = s.objs) : t.stage = s.stage := by
  rw [State.stage, State.obj, h]; rfl

theorem frameRamped_stage (s : State) : (frameRamped s).stage = s.stage := stage_of_objs (rampUp_objs s _)

theorem conv_withBoot' (s : State) (b : Boot) (j : Nat) : State.conv { s with boot := b } j = s.conv j := rfl

theorem frameRamped_conv (s : State) (j : Nat) (hj : j = 8 + s.boot.framesUp ∨ j = 56 + s.boot.framesUp) :
    (frameRamped s).conv j = if (s.conv j).st = 0 then { s.conv j with st := 1 } else s.conv j := by
  have hm : j ∈ [8 + s.boot.framesUp, 56 + s.boot.framesUp] := by simpa using hj
  rw [frameRamped, conv_withBoot', rampUp_conv]
  simp only [hm, true_and]

/-! Images (R470) -/

theorem maintAsk_boot (s : State) (m : Maint) : (s.maintAsk m).2.boot = s.boot := by
  unfold State.maintAsk
  extract_lets ours t e
  split <;> rfl

theorem fwImageEff_unsigned (h : Config.vendorSigned img = false) : fwImageEff img s = (some (ownCode 0x8006), s) := by
  unfold fwImageEff
  rw [if_pos (by rw [h]; rfl)]

section Signed
variable (h : Config.vendorSigned img ≠ false)
include h

theorem fwImageEff_old (hv : (Config.fwVersion img).toNat < s.boot.minimum) : fwImageEff img s = (some (ownCode 0xB007), s) := by
  unfold fwImageEff
  rw [if_neg (by simpa using h), if_pos hv]

theorem fwImageEff_recovers (hv : ¬ (Config.fwVersion img).toNat < s.boot.minimum) (h6 : s.stage = 6) :
    fwImageEff img s = (none, (s.storeImage s.boot.nextBank img).resetN) := by
  unfold fwImageEff
  rw [if_neg (by simpa using h), if_neg hv, if_pos h6]

section Service
variable (hv : ¬ (Config.fwVersion img).toNat < s.boot.minimum) (h6 : s.stage ≠ 6)
include hv h6

theorem fwImageEff_busy {s1 : State} (ha : s.maintAsk { ticket := 0, cls := 3, deferred := false, scope := 0 } = (none, s1)) :
    fwImageEff img s = (some badState, s1) := by
  unfold fwImageEff
  rw [if_neg (by simpa using h), if_neg hv, if_neg h6, ha]

theorem fwImageEff_asked {s1 : State} {e : Maint} (ha : s.maintAsk { ticket := 0, cls := 3, deferred := false, scope := 0 } = (some e, s1)) :
    fwImageEff img s = (none, if e.deferred then (s1.maintResult e.ticket 1 0).setDom 0 0x2C30 1 img
      else (s1.maintResult e.ticket 0 0).storeImage (!s.boot.bank) img) := by
  have hb : s1.boot = s.boot := by simpa [ha] using maintAsk_boot s { ticket := 0, cls := 3, deferred := false, scope := 0 }
  unfold fwImageEff
  rw [if_neg (by simpa using h), if_neg hv, if_neg h6, ha]
  have hr (t : Nat) : (s1.maintResult e.ticket t 0).boot = s.boot := hb
  cases hd : e.deferred with
  | true => simp only [hd, if_true]; rfl
  | false => simp only [hd, hr, Bool.false_eq_true, if_false]; rfl

end Service
end Signed

end Sys2Proof.Proofs
end

section
/-! PROOFS. BIST, the Memory Wafer's calibration, the Swarm, ready (R449, R453 to R456). -/

open Sys2Proof Sys2Proof.Machine Sys2Proof.Claims Sys2Proof.Laws

namespace Sys2Proof.Proofs

variable {s : State} {f sl : Nat} {rs : List SlotRating}

/-! Frames and slots -/

/-- Each slot of each Frame has its own Comb (R14). -/
theorem combAt_inj {g tl : Nat} (h1 : sl < 10) (h2 : tl < 10) (h : combAt f sl = combAt g tl) : f = g ∧ sl = tl := by
  unfold combAt at h
  omega

/-! Start-up defects change neither Combs nor Frames -/

@[simp] theorem startDefect_combs (f slot action sev : Nat) : (s.startDefect f slot action sev).combs = s.combs := by
  rw [State.startDefect, cperAdd_combs, report_combs]
@[simp] theorem startDefect_frames (f slot action sev : Nat) : (s.startDefect f slot action sev).frames = s.frames := by
  rw [State.startDefect, cperAdd_frames, report_frames]
@[simp] theorem plant_startDefect (s : State) (f slot action sev : Nat) : plant (s.startDefect f slot action sev) = plant s := by
  rw [State.startDefect, plant_cperAdd, plant_report]

theorem logDefects_keeps (all rs : List SlotRating) (s : State) :
    (s.logDefects all rs).combs = s.combs ∧ (s.logDefects all rs).frames = s.frames ∧ plant (s.logDefects all rs) = plant s := by
  unfold State.logDefects
  induction rs generalizing s with
  | nil => exact ⟨rfl, rfl, rfl⟩
  | cons r rs ih =>
    obtain ⟨h1, h2, h3⟩ := ih (s.startDefect r.frame r.slot (defectAction (remapOf all r.frame (s.railsUp r.frame)) r).1
      (defectAction (remapOf all r.frame (s.railsUp r.frame)) r).2)
    rw [List.foldl_cons]
    exact ⟨h1.trans (startDefect_combs ..), h2.trans (startDefect_frames ..), h3.trans (plant_startDefect ..)⟩

/-! The remap of a Frame (R453) -/

/-- A Comb after its Frame's remap. -/
def remapped (rs : List SlotRating) (f : Nat) (rails : Bool) (sl : Nat) : Comb :=
  let m := remapOf rs f rails
  { lost := m.2.2.1.contains sl, engDead := m.2.2.2.contains sl, live := { eng := { fallback := m.2.2.2.contains sl } } }

theorem setSlots_comb (v : Nat → Comb) (hsl : sl < 10) (g : Nat) : ∀ (l : List Nat), (∀ x ∈ l, x < 10) → ∀ s : State,
    State.comb (l.foldl (fun s x => s.setComb (combAt f x) (v x)) s) (combAt g sl) = if f = g ∧ sl ∈ l then v sl else s.comb (combAt g sl)
  | [], _, s => by simp
  | x :: l, hl, s => by
    have hx : x < 10 := hl x List.mem_cons_self
    rw [List.foldl_cons, setSlots_comb v hsl g l (fun y hy => hl y (List.mem_cons_of_mem x hy)), State.comb_setComb]
    by_cases hc : combAt g sl = combAt f x
    · obtain ⟨rfl, rfl⟩ := combAt_inj hsl hx hc
      simp
    · have hne : ¬ (f = g ∧ sl = x) := by rintro ⟨rfl, rfl⟩; exact hc rfl
      by_cases hg : f = g
      · have : sl ≠ x := fun h => hne ⟨hg, h⟩
        subst hg
        simp [hc, this]
      · simp [hc, hg]

theorem setSlots_keeps (v : Nat → Comb) (l : List Nat) (s : State) :
    State.frames (l.foldl (fun s x => s.setComb (combAt f x) (v x)) s) = s.frames
      ∧ plant (l.foldl (fun s x => s.setComb (combAt f x) (v x)) s) = plant s := by
  induction l generalizing s with
  | nil => exact ⟨rfl, rfl⟩
  | cons x l ih => exact ih _

theorem railsUp_plant {t : State} (h : plant t = plant s) (f : Nat) : t.railsUp f = s.railsUp f := by
  simp only [State.railsUp, plant_conv h]

/-- The Frame after its remap. -/
def remapFrameOf (s : State) (rs : List SlotRating) (f : Nat) : Frame :=
  let m := remapOf rs f (s.railsUp f)
  { s.frame f with
    combFor := m.1, regionFor := m.2.1
    spareBad := !(s.railsUp f) || (rated rs f .comb).contains 10 || (rated rs f .engine).contains 10
    regionBad := !(s.railsUp f) || (rated rs f .region).contains 10
    copyTo := none, railLost := !(s.railsUp f), pbPass := false }

theorem remapFrame_eq (s : State) (rs : List SlotRating) (f : Nat) : s.remapFrame rs f =
    (List.range 10).foldl (fun t x => t.setComb (combAt f x) (remapped rs f (s.railsUp f) x)) (s.setFrame f (remapFrameOf s rs f)) := by
  unfold State.remapFrame
  rfl

theorem remapFrame_comb (s : State) (rs : List SlotRating) (f g : Nat) (hsl : sl < 10) : (s.remapFrame rs f).comb (combAt g sl) =
    if f = g then remapped rs f (s.railsUp f) sl else s.comb (combAt g sl) := by
  rw [remapFrame_eq, setSlots_comb _ hsl g _ (fun x hx => List.mem_range.mp hx)]
  simp [List.mem_range, hsl]

theorem remapFrame_frame (s : State) (rs : List SlotRating) (f g : Nat) : (s.remapFrame rs f).frame g =
    if g = f then remapFrameOf s rs f else s.frame g := by
  have h : (s.remapFrame rs f).frames = (s.setFrame f (remapFrameOf s rs f)).frames := by
    rw [remapFrame_eq]
    exact (setSlots_keeps _ _ _).1
  rw [State.frame, h]
  exact State.frame_setFrame s f g _

@[simp] theorem plant_remapFrame (s : State) (rs : List SlotRating) (f : Nat) : plant (s.remapFrame rs f) = plant s := by
  rw [remapFrame_eq]
  exact (setSlots_keeps _ _ _).2

theorem remapFrames_comb (rs : List SlotRating) (hsl : sl < 10) (g : Nat) (l : List Nat) (s : State) :
    State.comb (l.foldl (fun s f => s.remapFrame rs f) s) (combAt g sl) =
      if g ∈ l then remapped rs g (s.railsUp g) sl else s.comb (combAt g sl) := by
  induction l generalizing s with
  | nil => rfl
  | cons f l ih =>
    rw [List.foldl_cons, ih, remapFrame_comb _ _ _ _ hsl, railsUp_plant (plant_remapFrame ..)]
    by_cases hf : f = g
    · subst hf; simp
    · have : g ≠ f := fun h => hf h.symm
      simp [hf, this]

/-- What slot 10 and the spare region of a Frame stand for. -/
def sparesOf (s : State) (g : Nat) : Option Nat × Option Nat := ((s.frame g).combFor, (s.frame g).regionFor)

theorem remapFrames_spares (rs : List SlotRating) (g : Nat) (l : List Nat) (s : State) :
    sparesOf (l.foldl (fun s f => s.remapFrame rs f) s) g =
      if g ∈ l then ((remapOf rs g (s.railsUp g)).1, (remapOf rs g (s.railsUp g)).2.1) else sparesOf s g := by
  induction l generalizing s with
  | nil => rfl
  | cons f l ih =>
    rw [List.foldl_cons, ih, railsUp_plant (plant_remapFrame ..), sparesOf, remapFrame_frame]
    by_cases hf : g = f
    · subst hf
      rw [if_pos rfl, if_pos List.mem_cons_self]
      exact ite_self _
    · simp [hf, sparesOf]

/-! BIST (R453) -/

/-- Every Frame remapped, its defects logged. -/
def bistRemapped (s : State) (rs : List SlotRating) : State := ((List.range 48).foldl (fun s f => s.remapFrame rs f) s).logDefects rs rs

theorem bistDone_takes (h : s.stage = 2) : s.bistDone rs =
    State.setObj { bistRemapped s rs with boot := { (bistRemapped s rs).boot with ratings := rs, faultMap := rs } } 0 0x2C00 1 3 := by
  unfold State.bistDone
  exact if_neg (not_not.mpr h)

theorem comb_of_combs {t : State} {c : Nat} (h : t.combs = s.combs) : t.comb c = s.comb c := by rw [State.comb, h]; rfl
theorem frame_of_frames {t : State} (h : t.frames = s.frames) : t.frame f = s.frame f := by rw [State.frame, h]; rfl

theorem bistRemapped_comb (hf : f < 48) (hsl : sl < 10) : (bistRemapped s rs).comb (combAt f sl) = remapped rs f (s.railsUp f) sl := by
  rw [bistRemapped, comb_of_combs (logDefects_keeps ..).1, remapFrames_comb rs hsl f _ s, if_pos (List.mem_range.mpr hf)]

theorem bistRemapped_spares (hf : f < 48) :
    sparesOf (bistRemapped s rs) f = ((remapOf rs f (s.railsUp f)).1, (remapOf rs f (s.railsUp f)).2.1) := by
  rw [sparesOf, bistRemapped, frame_of_frames (logDefects_keeps ..).2.1]
  exact (remapFrames_spares rs f _ s).trans (if_pos (List.mem_range.mpr hf))

/-! Calibration (R455) -/

/-- A region found defective leaves memories, temperatures and calibrations as they are. -/
theorem regionBad_keeps (s : State) (f sl : Nat) : (∀ c, ((s.regionBad f sl).comb c).mw = (s.comb c).mw)
    ∧ ∀ g, ((s.regionBad f sl).frame g).calTj = (s.frame g).calTj ∧ ((s.regionBad f sl).frame g).tj = (s.frame g).tj := by
  have lost (j : Nat) (t : State) (c : Nat) : ((t.setComb j { t.comb j with lost := true }).comb c).mw = (t.comb c).mw := by
    rw [State.comb_setComb]
    split
    · next h => rw [h]
    · rfl
  have kept (t : State) (x : Frame) (hc : x.calTj = (t.frame f).calTj) (ht : x.tj = (t.frame f).tj) (g : Nat) :
      ((t.setFrame f x).frame g).calTj = (t.frame g).calTj ∧ ((t.setFrame f x).frame g).tj = (t.frame g).tj := by
    rw [State.frame_setFrame]
    split
    · next h => rw [h]; exact ⟨hc, ht⟩
    · exact ⟨rfl, rfl⟩
  have logged (t : State) (a b c d : Nat) : (∀ j, (t.startDefect a b c d).comb j = t.comb j) ∧ ∀ j, (t.startDefect a b c d).frame j = t.frame j :=
    ⟨fun _ => comb_of_combs (startDefect_combs ..), fun _ => frame_of_frames (startDefect_frames ..)⟩
  unfold State.regionBad
  extract_lets x s1
  by_cases h10 : sl = 10
  · rw [if_pos h10]
    have h1 : (∀ c, (s1.comb c).mw = (s.comb c).mw) ∧ s1.frames = s.frames := by
      cases hx : x.regionFor with
      | none =>
        have e : s1 = s := by simp only [s1, hx]
        rw [e]
        exact ⟨fun _ => rfl, rfl⟩
      | some k =>
        have e : s1 = s.setComb (combAt f k) { s.comb (combAt f k) with lost := true } := by simp only [s1, hx]
        rw [e]
        exact ⟨lost _ s, rfl⟩
    refine ⟨fun c => ?_, fun g => ?_⟩
    · rw [(logged _ _ _ _ _).1, State.comb_setFrame', h1.1]
    · rw [(logged _ _ _ _ _).2, ← frame_of_frames h1.2]
      exact kept s1 _ (by rw [frame_of_frames h1.2]) (by rw [frame_of_frames h1.2]) g
  · rw [if_neg h10]
    split
    · refine ⟨fun c => ?_, fun g => ?_⟩
      · rw [(logged _ _ _ _ _).1, State.comb_setFrame']
      · rw [(logged _ _ _ _ _).2]
        exact kept s { s.frame f with regionFor := some sl } rfl rfl g
    · refine ⟨fun c => ?_, fun g => ?_⟩
      · rw [(logged _ _ _ _ _).1, lost]
      · rw [(logged _ _ _ _ _).2]
        exact ⟨rfl, rfl⟩

theorem regionsBad_keep (f : Nat) (l : List Nat) (s : State) : (∀ c, (State.comb (l.foldl (fun s sl => s.regionBad f sl) s) c).mw = (s.comb c).mw)
    ∧ ∀ g, (State.frame (l.foldl (fun s sl => s.regionBad f sl) s) g).calTj = (s.frame g).calTj
      ∧ (State.frame (l.foldl (fun s sl => s.regionBad f sl) s) g).tj = (s.frame g).tj := by
  induction l generalizing s with
  | nil => exact ⟨fun _ => rfl, fun _ => ⟨rfl, rfl⟩⟩
  | cons sl l ih =>
    obtain ⟨h1, h2⟩ := ih (s.regionBad f sl)
    obtain ⟨k1, k2⟩ := regionBad_keeps s f sl
    exact ⟨fun c => (h1 c).trans (k1 c), fun g => ⟨(h2 g).1.trans (k2 g).1, (h2 g).2.trans (k2 g).2⟩⟩

/-- A Frame's channels are calibrated at its temperature, and its bad regions taken out of use. -/
def frameCalibrated (bad : List (Nat × Nat)) (s : State) (f : Nat) : State :=
  ((List.range 11).filter (fun sl => bad.contains (f, sl))).foldl (fun s sl => s.regionBad f sl)
    (s.setFrame f { s.frame f with calTj := some (s.frame f).tj })

theorem frameCalibrated_keeps (bad : List (Nat × Nat)) (s : State) (f : Nat) : (∀ c, ((frameCalibrated bad s f).comb c).mw = (s.comb c).mw)
    ∧ ∀ g, ((frameCalibrated bad s f).frame g).calTj = (if g = f then some (s.frame g).tj else (s.frame g).calTj)
      ∧ ((frameCalibrated bad s f).frame g).tj = (s.frame g).tj := by
  obtain ⟨h1, h2⟩ := regionsBad_keep f ((List.range 11).filter (fun sl => bad.contains (f, sl)))
    (s.setFrame f { s.frame f with calTj := some (s.frame f).tj })
  refine ⟨h1, fun g => ?_⟩
  rw [frameCalibrated, (h2 g).1, (h2 g).2, State.frame_setFrame]
  by_cases hg : g = f
  · subst hg; simp
  · simp [hg]

theorem framesCalibrated_keep (bad : List (Nat × Nat)) (l : List Nat) (s : State) :
    (∀ c, ((l.foldl (frameCalibrated bad) s).comb c).mw = (s.comb c).mw)
    ∧ ∀ g, ((l.foldl (frameCalibrated bad) s).frame g).calTj = if g ∈ l then some (s.frame g).tj else (s.frame g).calTj := by
  induction l generalizing s with
  | nil => exact ⟨fun _ => rfl, fun _ => rfl⟩
  | cons f l ih =>
    obtain ⟨h1, h2⟩ := ih (frameCalibrated bad s f)
    obtain ⟨k1, k2⟩ := frameCalibrated_keeps bad s f
    refine ⟨fun c => (h1 c).trans (k1 c), fun g => ?_⟩
    rw [List.foldl_cons, h2, (k2 g).1, (k2 g).2]
    by_cases hg : g = f <;> simp [hg]

/-- Every region reads zero. -/
def mwZeroed (s : State) : State := { s with combs := s.combs.map (fun (e : Nat × Comb) => (e.1, { e.2 with mw := {} })) }

theorem mwZeroed_mw (s : State) (c : Nat) : ((mwZeroed s).comb c).mw = {} := by
  have h : (mwZeroed s).comb c = { s.comb c with mw := {} } := tget_map (fun m : Comb => { m with mw := {} }) rfl s.combs c
  rw [h]

/-- The Memory Wafer calibrated, without the notes of it. -/
def mwReady (s : State) (bad : List (Nat × Nat)) : State := (List.range 48).foldl (frameCalibrated bad) (mwZeroed s)

theorem mwCalibrated_takes {bad : List (Nat × Nat)} (h : s.stage = 3) : s.mwCalibrated bad =
    State.setObj { mwReady s bad with boot := { (mwReady s bad).boot with
      ratings := (mwReady s bad).boot.ratings ++ bad.map (fun b => (⟨b.1, b.2, .region⟩ : SlotRating)), badRegions := bad } } 0 0x2C00 1 4 := by
  unfold State.mwCalibrated
  exact if_neg (not_not.mpr h)

theorem mwReady_keeps (s : State) (bad : List (Nat × Nat)) : (∀ c, ((mwReady s bad).comb c).mw = {})
    ∧ ∀ f < 48, ((mwReady s bad).frame f).calTj = some (s.frame f).tj := by
  obtain ⟨h1, h2⟩ := framesCalibrated_keep bad (List.range 48) (mwZeroed s)
  refine ⟨fun c => (h1 c).trans (mwZeroed_mw s c), fun f hf => ?_⟩
  exact (h2 f).trans (if_pos (List.mem_range.mpr hf))

/-! The Swarm (R456) -/

section Swarm
variable {slot : Nat} (h4 : s.stage = 4) (hd : (f, slot) ∉ s.boot.dead)
include h4 hd

theorem swarm_asks : ¬ (!s.swarming ∨ s.boot.dead.contains (f, slot)) := by simp [State.swarming, h4, hd]

theorem swarmAnswer_pass (ha : (f, slot) ∉ s.boot.answered) : s.swarmAnswer f slot true =
    { s with boot := { s.boot with answered := s.boot.answered ++ [(f, slot)] } } := by
  unfold State.swarmAnswer
  rw [if_neg (swarm_asks h4 hd)]
  simp [ha]

theorem swarmAnswer_again (hr : (f, slot) ∉ s.boot.retried) : s.swarmAnswer f slot false =
    { s with boot := { s.boot with retried := s.boot.retried ++ [(f, slot)] } } := by
  unfold State.swarmAnswer
  rw [if_neg (swarm_asks h4 hd)]
  simp [hr]

end Swarm

/-- A slot that failed twice is rated defective. -/
def swarmDead (s : State) (f slot : Nat) : State :=
  let rs := s.boot.ratings ++ [⟨f, slot, .comb⟩]
  { s with boot := { s.boot with ratings := rs, faultMap := rs, dead := s.boot.dead ++ [(f, slot)] } }

theorem swarmAnswer_dead {slot : Nat} (h4 : s.stage = 4) (hd : (f, slot) ∉ s.boot.dead) (hr : (f, slot) ∈ s.boot.retried) :
    s.swarmAnswer f slot false = ((swarmDead s f slot).remapFrame (s.boot.ratings ++ [⟨f, slot, .comb⟩]) f).logDefects
      (s.boot.ratings ++ [⟨f, slot, .comb⟩]) [⟨f, slot, .comb⟩] := by
  unfold State.swarmAnswer
  rw [if_neg (swarm_asks h4 hd)]
  have again : ¬ (!(s.boot.retried.contains (f, slot))) = true := by simp [hr]
  simp only [Bool.false_eq_true, if_false, if_neg again]
  rfl

/-! Ready (R449, step 8) -/

/-- Only Combs differ. -/
def OnlyCombs (s t : State) : Prop := ∃ cs, t = { s with combs := cs }

theorem onlyCombs_setComb (s : State) (c : Nat) (m : Comb) : OnlyCombs s (s.setComb c m) := ⟨_, rfl⟩

theorem OnlyCombs.trans {s t u : State} (h : OnlyCombs s t) (k : OnlyCombs t u) : OnlyCombs s u := by
  obtain ⟨cs, rfl⟩ := h
  obtain ⟨ds, rfl⟩ := k
  exact ⟨ds, rfl⟩

theorem onlyCombs_ite {c : Prop} [Decidable c] {a b : State} (ha : OnlyCombs s a) (hb : OnlyCombs s b) : OnlyCombs s (if c then a else b) := by
  split
  · exact ha
  · exact hb

theorem onlyCombs_foldl {α : Type} {g : State → α → State} (h : ∀ s a, OnlyCombs s (g s a)) (l : List α) (s : State) : OnlyCombs s (l.foldl g s) := by
  induction l generalizing s with
  | nil => exact ⟨s.combs, rfl⟩
  | cons a l ih => exact (h s a).trans (ih _)

theorem onlyCombs_trace (s : State) (c kind unit index arg : Nat) : OnlyCombs s (s.trace c kind unit index arg) := by
  rw [State.trace]
  cases s.residentAt c with
  | none => exact ⟨s.combs, rfl⟩
  | some n => exact onlyCombs_ite ⟨_, rfl⟩ ⟨s.combs, rfl⟩

theorem onlyCombs_gateUnit (s : State) (c kind ix : Nat) : OnlyCombs s (s.gateUnit c kind ix) := by
  rw [State.gateUnit]
  cases tget none (s.area c).gated (gateKey kind ix) with
  | none => exact OnlyCombs.trans ⟨_, rfl⟩ (onlyCombs_trace ..)
  | some t => exact ⟨s.combs, rfl⟩

theorem onlyCombs_floorGate (s : State) : OnlyCombs s s.floorGate :=
  onlyCombs_foldl (fun s _ => onlyCombs_ite ⟨s.combs, rfl⟩ ((onlyCombs_setComb s _ _).trans (onlyCombs_gateUnit ..))) _ _

/-- Stage 5 and Run, with the time since power-good, and the event. -/
def readyNoted (s : State) : State :=
  let s1 := ((s.setObj 0 0x2C00 1 5).setObj 0 0x2100 8 2).setObj 0 0x2C00 2 (s.msSince % 2 ^ 32)
  s1.draw.2.event none (s1.draw.1.setWidth 16) 0 0 0

theorem ready_enters (h4 : s.stage = 4) (hp : s.pwrState = 1) :
    s.ready = if s.power.causes = 0 then readyNoted s else ((readyNoted s).setObj 0 0x2100 8 3).floorGate := by
  have go : ¬ (s.stage ≠ 4 ∨ s.pwrState ≠ 1) := by omega
  unfold State.ready
  exact if_neg go

theorem ready_stays (h : s.stage ≠ 4 ∨ s.pwrState ≠ 1) : s.ready = s := if_pos h

/-- The objects after ready. -/
def readyObjs (s : State) : State := ((s.setObj 0 0x2C00 1 5).setObj 0 0x2100 8 2).setObj 0 0x2C00 2 (s.msSince % 2 ^ 32)

theorem readyNoted_objs (s : State) : (readyNoted s).objs = (readyObjs s).objs := rfl

theorem readyNoted_events (s : State) : ∃ e, (readyNoted s).events = s.events ++ [e] ∧ e.ctx = none := ⟨_, rfl, rfl⟩

theorem obj_of_objs {t : State} (h : t.objs = s.objs) (i idx sub d : Nat) : t.obj i idx sub d = s.obj i idx sub d := by
  rw [State.obj, h]; rfl

theorem readyObjs_values (s : State) : (readyObjs s).stage = 5 ∧ (readyObjs s).pwrState = 2 ∧ (readyObjs s).obj 0 0x2C00 2 0 = s.msSince % 2 ^ 32 := by
  have hms : s.msSince % 2 ^ 32 < 2 ^ 64 := Nat.lt_trans (Nat.mod_lt _ (by decide)) (by decide)
  refine ⟨?_, ?_, obj_setObj_same _ _ _ _ hms⟩
  · exact (obj_setObj_ne (by decide) _ _).trans ((obj_setObj_ne (by decide) _ _).trans (obj_setObj_same _ _ _ _ (by decide)))
  · exact (obj_setObj_ne (by decide) _ _).trans (pwrState_setObj (by decide))

/-- Settles O50: the branches of each step of the start, with what the remap and the calibration leave of each Comb and Frame. -/
theorem startUpReachesRun : Obligations.StartUpReachesRun := by
  unfold Obligations.StartUpReachesRun
  intro s
  refine ⟨fun hg => ?_, fun hg => ?_, fun us hu hg => ?_, fun us h => ?_, fun hg hf h6 => ?_, fun h => ?_, fun h1 hp hf => ?_, fun h => ?_,
    fun rs hrs => ⟨fun h => ?_, fun h => ?_⟩, fun bad hb => ⟨fun h => ?_, fun h => ?_⟩, fun fw => ⟨fun h4 hl => ?_, fun h4 hd => ?_, fun hl => ?_⟩,
    fun f slot hf hs h4 hd => ⟨fun ha => ?_, fun hr => ?_, fun hr => ?_⟩, fun h4 hp => ?_, fun h => ?_, fun p img hp hw => ?_, fun p v hp hw => ?_⟩
  -- power-good and reset
  · rw [powerGood_next, if_neg (by rw [hg]; decide)]
    rfl
  · rw [powerGood_next, if_pos hg]
  · obtain ⟨o, e⟩ := resetN_outs s
    rw [Gives, resetNAssert_next, if_pos ⟨hu, hg⟩, e]
    exact ⟨_, rfl, rfl, rfl, rfl, rfl, rfl, rfl, congrArg Conv.st (tget_tput_same _ _ 112 _), rfl, rfl, rfl, rfl⟩
  · rw [resetNAssert_next, if_neg]
    rintro ⟨h1, h2⟩
    rcases h with h | h
    · omega
    · rw [h] at h2
      exact Bool.false_ne_true h2
  -- firmware
  · refine ⟨_, rfl, ?_⟩
    beta_reduce
    by_cases hk : s.boot.bankOk s.boot.nextBank = true
    · rw [if_pos hk, firmwareBoot_next hg hf h6 hk]
      exact rollBegin_runs (runBank_runs s _)
    · rw [if_neg hk]
      have hk' := eq_false_of_ne_true hk
      by_cases ho : s.boot.bankOk (!s.boot.nextBank) = true
      · rw [if_pos ho, firmwareBoot_other hg hf h6 hk' ho]
        exact rollBegin_runs (runBank_runs _ _)
      · rw [if_neg ho, firmwareBoot_rom hg hf h6 hk' (eq_false_of_ne_true ho)]
        refine ⟨(obj_setObj_ne (by decide) _ _).trans (obj_setObj_same _ _ _ _ (by decide)), ?_⟩
        rw [State.setObj_boot, State.setObj_boot, badBank_boot, badBank_boot, hf]
  · exact congrArg Host.Outcome.next (if_pos (by simpa using h))
  -- rails
  · refine ⟨_, rfl, ?_⟩
    beta_reduce
    rw [frameRaise_raises h1 hp hf]
    by_cases h47 : s.boot.framesUp = 47
    · rw [if_pos h47, if_pos h47]
      exact ⟨rfl, obj_setObj_same _ _ _ _ (by decide), frameRamped_conv s⟩
    · rw [if_neg h47, if_neg h47]
      exact ⟨rfl, (frameRamped_stage s).trans h1, frameRamped_conv s⟩
  · exact congrArg Host.Outcome.next (frameRaise_stays h)
  -- BIST
  · have hx : exec (.bistDone rs) s = .next (s.bistDone rs) := onUnit_next hrs _
    rw [Gives, hx, bistDone_takes h]
    refine ⟨_, rfl, obj_setObj_same _ _ _ _ (by decide), rfl, rfl, fun f sl hf hsl => ?_⟩
    have hc := bistRemapped_comb (s := s) (rs := rs) hf hsl
    have hs := bistRemapped_spares (s := s) (rs := rs) hf
    exact ⟨congrArg Comb.lost hc, congrArg (fun m : Comb => m.live.eng.fallback) hc, congrArg Prod.fst hs, congrArg Prod.snd hs⟩
  · exact (onUnit_next hrs _).trans (congrArg Host.Outcome.next (if_pos h))
  -- calibration
  · have hx : exec (.mwCalibrateDone bad) s = .next (s.mwCalibrated bad) := onUnit_next hb _
    rw [Gives, hx, mwCalibrated_takes h]
    exact ⟨_, rfl, obj_setObj_same _ _ _ _ (by decide), rfl, (mwReady_keeps s bad).1, (mwReady_keeps s bad).2⟩
  · exact (onUnit_next hb _).trans (congrArg Host.Outcome.next (if_pos h))
  -- the Swarm
  · exact congrArg Host.Outcome.next (if_pos (by simp [State.swarming, h4, hl]))
  · exact congrArg Host.Outcome.next (if_neg (by simp [State.swarming, h4, hd]))
  · exact congrArg Host.Outcome.next (if_neg (by simp; omega))
  · have hx (b : Bool) : exec (.swarmAnswer f slot b) s = .next (s.swarmAnswer f slot b) := onUnit_next (by rw [hf, decide_eq_true hs]; rfl) _
    rw [hx, swarmAnswer_pass h4 hd ha]
  · have hx (b : Bool) : exec (.swarmAnswer f slot b) s = .next (s.swarmAnswer f slot b) := onUnit_next (by rw [hf, decide_eq_true hs]; rfl) _
    rw [hx, swarmAnswer_again h4 hd hr]
  · have hx (b : Bool) : exec (.swarmAnswer f slot b) s = .next (s.swarmAnswer f slot b) := onUnit_next (by rw [hf, decide_eq_true hs]; rfl) _
    rw [Gives, hx, swarmAnswer_dead h4 hd hr]
    have hk := logDefects_keeps (s.boot.ratings ++ [⟨f, slot, .comb⟩]) [⟨f, slot, .comb⟩]
      ((swarmDead s f slot).remapFrame (s.boot.ratings ++ [⟨f, slot, .comb⟩]) f)
    have hboot := plant_boot (hk.2.2.trans (plant_remapFrame ..))
    refine ⟨_, rfl, ?_, ?_, ?_⟩
    · rw [hboot]; rfl
    · rw [hboot]; rfl
    · rw [frame_of_frames hk.2.1, remapFrame_frame, if_pos rfl]
      rfl
  -- ready
  · obtain ⟨h5, h2, hm⟩ := readyObjs_values s
    obtain ⟨e, he, hn⟩ := readyNoted_events s
    refine ⟨_, rfl, ?_⟩
    beta_reduce
    rw [ready_enters h4 hp]
    by_cases hc : s.power.causes = 0
    · rw [if_pos hc, if_pos hc]
      exact ⟨(stage_of_objs (readyNoted_objs s)).trans h5, (pwrState_of_objs (readyNoted_objs s)).trans h2,
        (obj_of_objs (readyNoted_objs s) ..).trans hm, e, he, hn⟩
    · rw [if_neg hc, if_neg hc]
      obtain ⟨cs, hg⟩ := onlyCombs_floorGate ((readyNoted s).setObj 0 0x2100 8 3)
      have ho : ((readyNoted s).setObj 0 0x2100 8 3).floorGate.objs = ((readyNoted s).setObj 0 0x2100 8 3).objs := by rw [hg]
      refine ⟨?_, ?_, ?_, e, ?_, hn⟩
      · exact (stage_of_objs ho).trans ((obj_setObj_ne (by decide) _ _).trans ((stage_of_objs (readyNoted_objs s)).trans h5))
      · exact (pwrState_of_objs ho).trans (pwrState_setObj (by decide))
      · exact (obj_of_objs ho ..).trans ((obj_setObj_ne (by decide) _ _).trans ((obj_of_objs (readyNoted_objs s) ..).trans hm))
      · rw [hg]
        exact he
  · exact congrArg Host.Outcome.next (ready_stays h)
  -- images
  · by_cases h1 : Config.vendorSigned img = false
    · rw [if_pos h1]
      exact unit_dom_refuses hp hw (fwImageEff_unsigned h1)
    rw [if_neg h1]
    by_cases h2 : (Config.fwVersion img).toNat < s.boot.minimum
    · rw [if_pos h2]
      exact unit_dom_refuses hp hw (fwImageEff_old h1 h2)
    rw [if_neg h2]
    by_cases h6 : s.stage = 6
    · rw [if_pos h6]
      exact unit_dom_accepts hp hw (fwImageEff_recovers h1 h2 h6)
    rw [if_neg h6]
    split <;> rename_i ha
    · exact unit_dom_refuses hp hw (fwImageEff_busy h1 h2 h6 ha)
    · exact unit_dom_accepts hp hw (fwImageEff_asked h1 h2 h6 ha)
  · exact unit_write_accepts hp hw rfl

end Sys2Proof.Proofs
end

section
/-! PROOFS. Link bring-up (R458). -/

open Sys2Proof Sys2Proof.Machine Sys2Proof.Claims Sys2Proof.Laws

namespace Sys2Proof.Proofs

variable {s : State} {q : Nat}

/-- Messages put out in turn, none of which shows in the next. -/
theorem foldl_outs {α : Type} {g : State → α → OutMsg} (hg : ∀ s o a, g (s.out o) a = g s a) (l : List α) (s : State) :
    l.foldl (fun s a => s.out (g s a)) s = { s with outs := (l.map (g s)).reverse ++ s.outs } := by
  induction l generalizing s with
  | nil => rfl
  | cons a l ih =>
    rw [List.foldl_cons, ih, funext (hg s (g s a))]
    simp [State.out]

theorem sendKx_kx (s : State) (p kind : Nat) (msg : List Byte) :
    ((s.sendKx p kind msg).port p).st = (s.port p).st ∧ ((s.sendKx p kind msg).port p).lanes = (s.port p).lanes
      ∧ ((s.sendKx p kind msg).port p).kx = (s.port p).kx := by
  unfold State.sendKx
  generalize chunks 24 msg.length msg = l
  induction l generalizing s with
  | nil => exact ⟨rfl, rfl, rfl⟩
  | cons b l ih =>
    have sent : (s.sendKeeper p kind (words64 (lfit 0 24 b))).port p = { s.port p with txCtr := (s.port p).txCtr + 1 } :=
      State.port_setPort_same ..
    rw [List.foldl_cons]
    simpa only [sent] using ih (s.sendKeeper p kind (words64 (lfit 0 24 b)))

theorem kxStart_runs (s : State) (p : Nat) :
    ((s.kxStart p).port p).st = (s.port p).st ∧ ((s.kxStart p).port p).lanes = (s.port p).lanes ∧ ((s.kxStart p).port p).kx.running = true := by
  unfold State.kxStart
  split
  · extract_lets _ m s1
    obtain ⟨hs, hl, hk⟩ := sendKx_kx (s1.setPort p { s.port p with kx := { running := true, leads := true, await := 2, msgs := m } }) p 0x10 m
    rw [hs, hl, hk, State.port_setPort_same]
    exact ⟨rfl, rfl, rfl⟩
  · rw [State.port_setPort_same]
    exact ⟨rfl, rfl, rfl⟩

/-- The lanes of 96 that pass, in order. -/
def lanesOk (lanes : List Nat) : List Nat := (List.range 96).filter (fun l => lanes.contains l)

/-- Light on a port, with the lanes that pass active. -/
def lit (s : State) (q : Nat) (lanes : List Nat) : State :=
  s.setPort q { s.port q with light := true, lanes := (lanesOk lanes).map (fun l => (l, 2)) }

theorem portLight_trains {lanes : List Nat} (ho : s.optOn q = true) (hs : (s.port q).st = 0 ∨ (s.port q).st = 1) :
    s.portLight q lanes = if (lanesOk lanes).length < 8 then (lit s q lanes).portDown q
      else ((lit s q lanes).setPort q { (lit s q lanes).port q with st := 2 }).kxStart q := by
  have takes : ¬ (!(s.optOn q) ∨ ((s.port q).st ≠ 0 ∧ (s.port q).st ≠ 1)) := by simp only [ho]; grind
  exact if_neg takes

theorem portLight_keys (s : State) (q : Nat) (lanes : List Nat) :
    let t := ((lit s q lanes).setPort q { (lit s q lanes).port q with st := 2 }).kxStart q
    (t.port q).st = 2 ∧ (t.port q).lanes = (lanesOk lanes).map (fun l => (l, 2)) ∧ (t.port q).kx.running = true := by
  obtain ⟨hs, hl, hk⟩ := kxStart_runs ((lit s q lanes).setPort q { (lit s q lanes).port q with st := 2 }) q
  rw [State.port_setPort_same] at hs hl
  refine ⟨hs, hl.trans ?_, hk⟩
  rw [lit, State.port_setPort_same]

theorem portLight_stays {lanes : List Nat} (h : s.optOn q = false ∨ ((s.port q).st ≠ 0 ∧ (s.port q).st ≠ 1)) : s.portLight q lanes = s := by
  have none : !(s.optOn q) ∨ ((s.port q).st ≠ 0 ∧ (s.port q).st ≠ 1) := h.imp_left (fun h => by rw [h]; rfl)
  exact if_pos none

theorem portDown_port (s : State) (q : Nat) : ∃ x : TyPort, (s.portDown q).port q = x ∧ x.st = 4 := by
  have kept {t u : State} (r : Report) (h : t.port q = u.port q) : (t.report r).port q = u.port q := by
    rw [← h]
    unfold State.report
    split <;> rfl
  exact ⟨_, (kept _ rfl).trans (State.port_setPort_same ..), rfl⟩

end Sys2Proof.Proofs
end

section
/-! PROOFS. The roll call (R460 to R463, R498, R499). -/

open Sys2Proof Sys2Proof.Machine Sys2Proof.Claims Sys2Proof.Laws

namespace Sys2Proof.Proofs

variable {s t : State} {p : Path} {q n : Nat} {v pts : W64}

/-! Messages -/

theorem sendChecks_outs (l : List Nat) (s : State) : ∃ o, l.foldl (fun s q => s.sendCheck q) s = { s with outs := o } :=
  ⟨_, foldl_outs (g := fun s q => .keeper q kNeighbour (if s.hasPlan then leBytes 4 s.plan ++ leBytes 2 q ++ leBytes 2 s.refs.rclkNow else []))
    (fun _ _ _ => rfl) l s⟩

/-- What the tokens leave. -/
def tokensSent (s : State) : State :=
  { s with
    boot := { s.boot with asked := [0, 2, 4], kids := [], counted := 0 }
    outs := ((tokenPorts.filter s.portPasses).map (fun q => OutMsg.keeper q kToken (leBytes 4 s.boot.remain))).reverse ++ s.outs }

theorem forwardTokens_eq (s : State) : s.forwardTokens = tokensSent s :=
  foldl_outs (g := fun s q => .keeper q kToken (leBytes 4 s.boot.remain)) (fun _ _ _ => rfl) (tokenPorts.filter s.portPasses)
    { s with boot := { s.boot with asked := tokenPorts, kids := [], counted := 0 } }

theorem tokensSent_sends {k : Nat} (hk : k ∈ [0, 2, 4]) (hp : s.portPasses k = true) :
    .keeper k kToken (leBytes 4 s.boot.remain) ∈ (tokensSent s).outs :=
  List.mem_append_left _ (List.mem_reverse.mpr (List.mem_map.mpr ⟨k, List.mem_filter.mpr ⟨hk, hp⟩, rfl⟩))

theorem tokensSent_keeps {m : OutMsg} (h : m ∈ s.outs) : m ∈ (tokensSent s).outs := List.mem_append_right _ h

/-! `ROLL_STATUS` -/

theorem fld_lt (v lo w : Nat) : fld v lo w < 2 ^ w := Nat.mod_lt _ (Nat.two_pow_pos w)

theorem setRoll_status {st count : Nat} (hs : st < 16) :
    ((s.setRoll st count).obj 0 0x2C10 3 0) % 16 = st ∧ fld ((s.setRoll st count).obj 0 0x2C10 3 0) 4 15 = count % 2 ^ 15 := by
  have hf := fld_lt (s.obj 0 0x2C10 3 0) 19 6
  have hc := Nat.mod_lt count (Nat.two_pow_pos 15)
  rw [State.setRoll, obj_setObj_same _ _ _ _ (by omega)]
  generalize fld (s.obj 0 0x2C10 3 0) 19 6 = f at hf
  generalize count % 2 ^ 15 = c at hc
  constructor
  · omega
  · rw [fld]
    omega

/-! Root starts a roll call -/

/-- Root, with the time of the roll call. -/
def rootBoot (s : State) : Boot := { s.boot with isRoot := true, parent := none, running := true, reported := false, remain := 1000 * s.obj 0 0x2C10 2 85 }

theorem rollBegin_root (h : s.isOrigin = true) : s.rollBegin = tokensSent (State.setRoll { s with boot := rootBoot s } 2 0) := by
  have root : ¬ (!s.isOrigin) = true := by rw [h]; decide
  exact (if_neg root).trans (forwardTokens_eq _)

theorem rollBegin_other (h : s.isOrigin = false) : s.rollBegin = s := by
  have other : (!s.isOrigin) = true := by rw [h]; rfl
  exact if_pos other

theorem rootBegun_plan (s : State) : (tokensSent (State.setRoll { s with boot := rootBoot s } 2 0)).plan = s.plan :=
  obj_setObj_ne (by decide) _ _

/-- What a plan leaves, before root starts. -/
def planned (s : State) (v : W64) : State := s.setObj 0 0x2C10 1 v.toNat

theorem planned_plan (s : State) (v : W64) : (planned s v).plan = v.toNat := obj_setObj_same _ _ _ _ v.isLt

theorem planned_isOrigin (s : State) (v : W64) : (planned s v).isOrigin = (bit v.toNat 31 && decide (v.toNat % 2 ^ 14 = 0)) := by
  rw [State.isOrigin, State.hasPlan, planned_plan]

theorem planWrite_quiet (hq : ∀ k < 6, (s.port k).st ≠ 3) (hv : bit v.toNat 31 = false ∨ v.toNat % 2 ^ 14 ≠ 0) :
    rollPlanEff p v s = (none, s.storeObj p 0x2C10 1 v) := by
  have quiet : (List.range 6).filter (fun q => decide (((planned s v).port q).st = 3)) = [] :=
    List.filter_eq_nil_iff.mpr (fun k hk => by simp [planned, hq k (List.mem_range.mp hk)])
  have other : (planned s v).isOrigin = false := by
    rw [planned_isOrigin]
    rcases hv with h | h
    · rw [h]
      rfl
    · rw [decide_eq_false h, Bool.and_false]
  change (none, State.rollBegin (((List.range 6).filter (fun q => decide (((planned s v).port q).st = 3))).foldl (fun s q => s.sendCheck q) (planned s v))) = _
  rw [quiet, List.foldl_nil, rollBegin_other other]
  rfl

theorem planWrite_root (hb : bit v.toNat 31 = true) (h0 : v.toNat % 2 ^ 14 = 0) :
    ∃ o, rollPlanEff p v s = (none, tokensSent (State.setRoll { planned s v with boot := rootBoot (planned s v), outs := o } 2 0)) := by
  obtain ⟨o, ho⟩ := sendChecks_outs ((List.range 6).filter (fun q => decide (((planned s v).port q).st = 3))) (planned s v)
  have root : State.isOrigin { planned s v with outs := o } = true := by
    change (planned s v).isOrigin = true
    rw [planned_isOrigin, hb, h0]
    rfl
  refine ⟨o, ?_⟩
  change (none, State.rollBegin (((List.range 6).filter (fun q => decide (((planned s v).port q).st = 3))).foldl (fun s q => s.sendCheck q) (planned s v))) = _
  rw [ho, rollBegin_root root]
  rfl

theorem planned_remain (s : State) (v : W64) : (planned s v).obj 0 0x2C10 2 85 = s.obj 0 0x2C10 2 85 := obj_setObj_ne (by decide) _ _

/-! A neighbour is checked -/

theorem obj_zero_lt (s : State) (i idx sub : Nat) : s.obj i idx sub 0 < 2 ^ 64 := by
  unfold State.obj
  split
  · exact BitVec.isLt _
  · decide

theorem neighbour_passes {x : Neighbour} (h3 : (s.port q).st = 3) (hp : s.hasPlan = true) (hx : x.noPlan = false) (hn : s.neighbourOk q x = true) :
    ((s.neighbour q x).port q) = { s.port q with checked := true, failed := false } ∧ bit ((s.neighbour q x).obj 0 0x2C10 3 0) (19 + q) = false := by
  have sent (c : Prop) [Decidable c] (u : State) : (if c then u.sendToken q else u).port q = u.port q
      ∧ (if c then u.sendToken q else u).obj 0 0x2C10 3 0 = u.obj 0 0x2C10 3 0 := by split <;> exact ⟨rfl, rfl⟩
  unfold State.neighbour
  rw [if_neg (not_not.mpr h3), if_neg (by simp [hp]), if_neg (by simp [hx]), if_pos hn]
  extract_lets _ s1 w s2
  rw [(sent _ s2).1, (sent _ s2).2]
  by_cases hw : bit w (19 + q) = true
  · have hs : s2 = s1.setObj 0 0x2C10 3 (w - 2 ^ (19 + q)) := if_pos hw
    have hl : w - 2 ^ (19 + q) < 2 ^ 64 := Nat.lt_of_le_of_lt (Nat.sub_le _ _) (obj_zero_lt s1 _ _ _)
    rw [hs]
    refine ⟨State.port_setPort_same .., ?_⟩
    rw [obj_setObj_same _ _ _ _ hl]
    exact bit_sub_self hw
  · have hs : s2 = s1 := if_neg hw
    rw [hs]
    exact ⟨State.port_setPort_same .., Bool.eq_false_iff.mpr hw⟩

theorem add_bit_lt {x b : Nat} (hx : x < 2 ^ 64) (hb : b < 64) (h : bit x b = false) : x + 2 ^ b < 2 ^ 64 := by
  have hp : 0 < 2 ^ b := Nat.two_pow_pos b
  have hd : x / 2 ^ b < 2 * 2 ^ (63 - b) := by
    rw [Nat.div_lt_iff_lt_mul hp, ← pow_succ', ← pow_add]
    exact (show 63 - b + 1 + b = 64 by omega) ▸ hx
  have hs : (x + 2 ^ b) / 2 ^ b < 2 * 2 ^ (63 - b) := by
    rw [bit, decide_eq_false_iff_not] at h
    rw [Nat.add_div_right x hp]
    omega
  rw [Nat.div_lt_iff_lt_mul hp, ← pow_succ', ← pow_add] at hs
  exact (show 63 - b + 1 + b = 64 by omega) ▸ hs

theorem neighbour_fails {x : Neighbour} (hq : q < 6) (h3 : (s.port q).st = 3) (hp : s.hasPlan = true) (hx : x.noPlan = false) (hn : s.neighbourOk q x = false) :
    ((s.neighbour q x).port q).st = 4 ∧ ((s.neighbour q x).port q).failed = true ∧ bit ((s.neighbour q x).obj 0 0x2C10 3 0) (19 + q) = true := by
  unfold State.neighbour
  rw [if_neg (not_not.mpr h3), if_neg (by simp [hp]), if_neg (by simp [hx]), if_neg (by simp [hn])]
  extract_lets s1 _ s2 w
  have marked : (s2.port q).st = 4 ∧ (s2.port q).failed = true := by
    obtain ⟨_, rfl, h4⟩ := portDown_port s q
    have hs : s2.port q = { s1.port q with failed := true } := State.port_setPort_same ..
    rw [hs]
    exact ⟨h4, rfl⟩
  by_cases hw : bit w (19 + q) = true
  · rw [if_pos hw]
    exact ⟨marked.1, marked.2, hw⟩
  · rw [if_neg hw]
    refine ⟨marked.1, marked.2, ?_⟩
    rw [Bool.not_eq_true] at hw
    rw [obj_setObj_same _ _ _ _ (add_bit_lt (obj_zero_lt s2 _ _ _) (by omega) hw)]
    exact bit_add_self hw

/-! Tokens, reports, the count -/

theorem rollToken_held (hp : s.portPasses q = true) (hr : s.boot.running = true) : s.rollToken q n = s.out (.keeper q kHeld []) := by
  have passes : ¬ (!(s.portPasses q)) = true := by rw [hp]; decide
  exact (if_neg passes).trans (if_pos hr)

/-- The first token of a roll call is taken. -/
def tokenTaken (s : State) (q n : Nat) : State :=
  (State.setRoll { s with boot := { s.boot with parent := some q, isRoot := false, running := true, reported := false, remain := n - 1 } } 2 0).out (.keeper q kTaken [])

theorem rollToken_taken (hp : s.portPasses q = true) (hr : s.boot.running = false) : s.rollToken q n = tokensSent (tokenTaken s q n) := by
  have passes : ¬ (!(s.portPasses q)) = true := by rw [hp]; decide
  have first : ¬ s.boot.running = true := by rw [hr]; decide
  exact (if_neg passes).trans ((if_neg first).trans (forwardTokens_eq _))

/-- A report counted in. -/
def reportAdded (s : State) (q n : Nat) : Boot :=
  { s.boot with
    asked := s.boot.asked.filter (· != q), counted := s.boot.counted + n
    kids := if n = 0 then s.boot.kids else s.boot.kids ++ [q] }

theorem rollReport_takes (hr : s.boot.running = true) (hd : s.boot.reported = false) (hq : q ∈ s.boot.asked) :
    s.rollReport q n = if (reportAdded s q n).asked.isEmpty then State.rollReported { s with boot := reportAdded s q n } else { s with boot := reportAdded s q n } := by
  have takes : ¬ (!s.boot.running ∨ s.boot.reported ∨ !(s.boot.asked.contains q)) := by simp [hr, hd, hq]
  exact if_neg takes

theorem rollReport_stays (h : s.boot.running = false ∨ s.boot.reported = true ∨ q ∉ s.boot.asked) : s.rollReport q n = s := by
  have stays : !s.boot.running ∨ s.boot.reported ∨ !(s.boot.asked.contains q) := by simpa using h
  exact if_pos stays

theorem rollReported_parent {k : Nat} (h : s.boot.parent = some k) :
    s.rollReported = State.out { s with boot := { s.boot with reported := true } } (.keeper k 0x24 (leBytes 4 (s.boot.counted + 1))) := by
  unfold State.rollReported
  rw [h]
  rfl

theorem rollReported_root (h : s.boot.parent = none) (hr : s.boot.isRoot = true) : s.rollReported = s.rollEnd (s.boot.counted + 1) := by
  unfold State.rollReported
  rw [h]
  exact if_pos hr

/-- The end of a roll call, but for its messages. -/
def rollEnded (s : State) (n : Nat) : State :=
  let s1 := (s.setObj 0 0x2500 4 s.planTorus).setRoll (if n = s.planCount then 3 else 4) n
  { s1 with boot := { s1.boot with rolled := true, running := false, reported := true } }

theorem rollEnd_outs (s : State) (n : Nat) : ∃ o, s.rollEnd n = { rollEnded s n with outs := o } :=
  ⟨_, foldl_outs (g := fun s k => .keeper k kCount (leBytes 4 n ++ leBytes 8 s.ts.toNat)) (fun _ _ _ => rfl) _ (rollEnded s n)⟩

theorem planTorus_lt (s : State) : s.planTorus < 2 ^ 64 := by
  have h1 := fld_lt s.plan 23 5
  have h2 := fld_lt s.plan 18 5
  have h3 := fld_lt s.plan 14 4
  unfold State.planTorus
  omega

theorem rollEnd_leaves (s : State) (n : Nat) :
    (s.rollEnd n).ts = s.ts ∧ (s.rollEnd n).boot.rolled = true ∧ (s.rollEnd n).boot.running = false ∧ (s.rollEnd n).obj 0 0x2500 4 0 = s.planTorus
      ∧ (s.rollEnd n).obj 0 0x2C10 3 0 % 16 = (if n = s.planCount then 3 else 4) ∧ fld ((s.rollEnd n).obj 0 0x2C10 3 0) 4 15 = n % 2 ^ 15 := by
  obtain ⟨o, ho⟩ := rollEnd_outs s n
  obtain ⟨hs, hc⟩ := setRoll_status (s := s.setObj 0 0x2500 4 s.planTorus) (st := if n = s.planCount then 3 else 4) (count := n) (by split <;> decide)
  rw [ho]
  refine ⟨rfl, rfl, rfl, ?_, hs, hc⟩
  exact (obj_setObj_ne (by decide) _ _).trans (obj_setObj_same _ _ _ _ (planTorus_lt s))

/-- TS set to the parent's, and the step of it traced. -/
def tsStepped (s : State) (pts : W64) : State :=
  (List.range 480).foldl (fun t c => t.trace c 13 6 0 (twos 32 (max (-(2 : Int) ^ 31) (min (2 ^ 31 - 1) ((pts.toNat : Int) - s.ts.toNat))))) { s with ts := pts }

theorem rollCount_takes (hr : s.boot.running = true) (hp : s.boot.parent ≠ none) : s.rollCount n pts = (tsStepped s pts).rollEnd n := by
  have takes : ¬ (!s.boot.running ∨ s.boot.parent.isNone) := by simp [hr, hp]
  exact if_neg takes

theorem rollCount_stays (h : s.boot.running = false ∨ s.boot.parent = none) : s.rollCount n pts = s := by
  have stays : !s.boot.running ∨ s.boot.parent.isNone := by simpa using h
  exact if_pos stays

theorem tsStepped_keeps (s : State) (pts : W64) :
    (tsStepped s pts).ts = pts ∧ (tsStepped s pts).planTorus = s.planTorus ∧ (tsStepped s pts).planCount = s.planCount := by
  obtain ⟨cs, hc⟩ := onlyCombs_foldl (fun t c => onlyCombs_trace t c 13 6 0 _) (List.range 480) { s with ts := pts }
  have hp : (tsStepped s pts).plan = s.plan := obj_of_objs (by rw [tsStepped, hc]) ..
  refine ⟨by rw [tsStepped, hc], ?_, ?_⟩
  · rw [State.planTorus, hp, State.planTorus]
  · rw [State.planCount, hp, State.planCount]

theorem tsSync_adds (hr : s.boot.rolled = true) (hp : s.boot.parent ≠ none) (hs : s.boot.slewAt = none) (h : s.ts < pts) :
    s.tsSync pts = { s with ts := s.ts + 1, boot := { s.boot with slewAt := some s.ts } } := by
  have hne : pts ≠ s.ts := fun e => absurd h (by rw [e]; exact BitVec.lt_irrefl _)
  unfold State.tsSync
  rw [hs]
  exact (if_neg (by simp [hr, hp, hne])).trans (if_pos h)

theorem tsSync_holds (hr : s.boot.rolled = true) (hp : s.boot.parent ≠ none) (hs : s.boot.slewAt = none) (h : pts < s.ts) :
    s.tsSync pts = { s with boot := { s.boot with slewAt := some s.ts, tsHold := true } } := by
  have hne : pts ≠ s.ts := fun e => absurd h (by rw [e]; exact BitVec.lt_irrefl _)
  have behind : ¬ s.ts < pts := fun k => BitVec.lt_asymm h k
  unfold State.tsSync
  rw [hs]
  exact (if_neg (by simp [hr, hp, hne])).trans (if_neg behind)

theorem tsSync_early {x : W64} (hs : s.boot.slewAt = some x) (h : (s.ts - x).toNat < 2500) : s.tsSync pts = s := by
  unfold State.tsSync
  rw [hs]
  have early : (!decide (2500 ≤ (s.ts - x).toNat)) = true := by rw [decide_eq_false (Nat.not_le.mpr h)]; rfl
  exact if_pos (.inr (.inr (.inr early)))

theorem tsSync_alone (h : s.boot.rolled = false ∨ s.boot.parent = none) : s.tsSync pts = s := by
  unfold State.tsSync
  refine if_pos ?_
  rcases h with h | h <;> simp [h]

/-- Settles O51: the branches of each step of a port and of the roll call, with the messages that the tokens and the count put out. -/
theorem portsTrainAndRollCall : Obligations.PortsTrainAndRollCall := by
  unfold Obligations.PortsTrainAndRollCall
  intro q s hq t0
  have hn (t : State) : onUnit (isTyPort q) t = .next t := onUnit_next hq t
  have hq6 : q < 6 := by simpa [isTyPort] using hq
  refine ⟨fun lanes ho hs => ⟨fun h8 => ?_, fun h8 => ?_⟩, fun lanes h => ?_, fun h1 hl => ?_, fun h => ?_, fun h4 ho => ?_, fun h => ?_,
    fun p v hp hw => ⟨fun h3 hv => ?_, fun hb h0 => ?_⟩, fun x => ⟨fun h3 => ?_, fun h3 hp => ?_, fun h3 hp hx => ?_, fun h3 hp hx hk => ?_, fun h3 hp hx hk => ?_⟩,
    fun remain => ⟨fun hp => ?_, fun hp hr => ?_, fun hp hr => ?_⟩,
    fun n hr hd => ⟨fun k hk ha => ?_, fun k ha hp => ?_, fun ha hp hroot => ?_⟩, fun n h => ?_, fun k hr hd hp => ?_, fun h => ?_,
    fun n pts => ⟨fun hr hp => ?_, fun h => ?_⟩, fun p v hp hw => ⟨fun ho => ?_, fun ho => ?_⟩,
    fun pts hr hp hs => ⟨fun h => ?_, fun h => ?_⟩, fun pts x hs h => ?_, fun h pts => ?_⟩
  -- light on a port
  · exact (hn _).trans (congrArg Host.Outcome.next ((portLight_trains ho hs).trans (if_pos h8)))
  · exact ⟨_, (hn _).trans (congrArg Host.Outcome.next ((portLight_trains ho hs).trans (if_neg (Nat.not_lt.mpr h8)))), portLight_keys s q lanes⟩
  · exact (hn _).trans (congrArg Host.Outcome.next (portLight_stays h))
  · exact (hn _).trans (congrArg Host.Outcome.next (if_pos (by simpa using And.intro h1 hl)))
  · exact (hn _).trans (congrArg Host.Outcome.next (if_neg (by simpa [imp_iff_not_or] using h)))
  · exact (hn _).trans (congrArg Host.Outcome.next (if_pos (by simpa [ho] using h4)))
  · exact (hn _).trans (congrArg Host.Outcome.next (if_neg (by simpa [imp_iff_not_or] using h)))
  -- the plan
  · exact unit_write_accepts hp hw (planWrite_quiet h3 hv)
  · obtain ⟨o, ho⟩ := planWrite_root (p := p) (s := s) hb h0
    refine ⟨_, unit_write_accepts hp hw ho, ?_, rfl, rfl, rfl, rfl, rfl, ?_, List.mem_cons_self ..⟩
    · exact (obj_setObj_ne (by decide) _ _).trans (planned_plan s v)
    · exact congrArg (1000 * ·) (planned_remain s v)
  -- a neighbour
  · exact (hn _).trans (congrArg Host.Outcome.next (if_pos h3))
  · have none : State.neighbour s q x = s.sendCheck q := (if_neg (not_not.mpr h3)).trans (if_pos (by simp [hp]))
    refine (hn _).trans (congrArg Host.Outcome.next (none.trans ?_))
    rw [State.sendCheck, hp]
    rfl
  · exact (hn _).trans (congrArg Host.Outcome.next ((if_neg (not_not.mpr h3)).trans ((if_neg (by simp [hp])).trans (if_pos hx))))
  · exact ⟨_, hn _, neighbour_passes h3 hp hx hk⟩
  · exact ⟨_, hn _, neighbour_fails hq6 h3 hp hx hk⟩
  -- tokens
  · exact (hn _).trans (congrArg Host.Outcome.next (if_pos (by simp [hp])))
  · exact (hn _).trans (congrArg Host.Outcome.next (rollToken_held hp hr))
  · refine ⟨_, (hn _).trans (congrArg Host.Outcome.next (rollToken_taken hp hr)), rfl, rfl, rfl, rfl, ?_, fun k hk hpk => ?_⟩
    · exact tokensSent_keeps (List.mem_cons_self ..)
    · exact tokensSent_sends (s := tokenTaken s q remain) hk hpk
  -- reports
  · have hf : (reportAdded s q n).asked = [k] := by
      have hk' : (k != q) = true := by simpa using hk
      simp [reportAdded, ha, hk']
    refine (hn _).trans (congrArg Host.Outcome.next ((rollReport_takes hr hd (by simp [ha])).trans ((if_neg (by simp [hf])).trans ?_)))
    rw [reportAdded, ← hf, reportAdded]
  · have hf : (reportAdded s q n).asked = [] := by simp [reportAdded, ha]
    refine ⟨_, (hn _).trans (congrArg Host.Outcome.next ((rollReport_takes hr hd (by simp [ha])).trans ((if_pos (by simp [hf])).trans (rollReported_parent hp)))),
      rfl, rfl, List.mem_cons_self ..⟩
  · have hf : (reportAdded s q n).asked = [] := by simp [reportAdded, ha]
    obtain ⟨-, h1, h2, h3, h4, h5⟩ := rollEnd_leaves { s with boot := reportAdded s q n } (s.boot.counted + n + 1)
    exact ⟨_, (hn _).trans (congrArg Host.Outcome.next ((rollReport_takes hr hd (by simp [ha])).trans ((if_pos (by simp [hf])).trans (rollReported_root hp hroot)))),
      h1, h2, h3, h4, h5⟩
  · exact (hn _).trans (congrArg Host.Outcome.next (rollReport_stays h))
  -- the deadline
  · exact congrArg Host.Outcome.next ((if_pos (by simp [hr, hd])).trans (rollReported_parent hp))
  · exact congrArg Host.Outcome.next (if_neg (by simpa [imp_iff_not_or] using h))
  -- the count
  · obtain ⟨h0, h1, h2, h3, h4, -⟩ := rollEnd_leaves (tsStepped s pts) n
    obtain ⟨ht, hpt, hpc⟩ := tsStepped_keeps s pts
    exact ⟨_, congrArg Host.Outcome.next (rollCount_takes hr hp), h0.trans ht, h1, h2, h3.trans hpt, hpc ▸ h4⟩
  · exact congrArg Host.Outcome.next (rollCount_stays h)
  · exact unit_write_refuses hp hw (if_neg (by simp [ho]))
  · refine ⟨_, unit_write_accepts hp hw ((if_pos ho).trans (congrArg (Prod.mk none) (rollBegin_root ho))), rfl, rfl, rfl, List.mem_cons_self ..⟩
  -- TS
  · exact congrArg Host.Outcome.next (tsSync_adds hr hp hs h)
  · exact congrArg Host.Outcome.next (tsSync_holds hr hp hs h)
  · exact congrArg Host.Outcome.next (tsSync_early hs h)
  · exact congrArg Host.Outcome.next (tsSync_alone h)

end Sys2Proof.Proofs
end

section
/-! PROOFS. Maintenance (R465, R467, R469, R471). -/

open Sys2Proof Sys2Proof.Machine Sys2Proof.Claims Sys2Proof.Laws

namespace Sys2Proof.Proofs

variable {s : State} {p : Path} {v : W64} {t c f : Nat} {e : Maint}

/-! Requests -/

/-- What a request asks for. -/
def asked (v : W64) : Maint := { ticket := 0, cls := v.toNat % 8, deferred := false, scope := fld v.toNat 3 20 }

theorem maintReqEff_bad (h : maintReqOk v.toNat = false) : maintReqEff v s = (some badValue, s) := by
  have bad : (!(maintReqOk v.toNat)) = true := by rw [h]; rfl
  exact if_pos bad

theorem maintReqEff_asks (h : maintReqOk v.toNat = true) : maintReqEff v s =
    match s.maintAsk (asked v) with
    | (none, s1) => (some badState, s1.maintResult s1.ticket 2 0xC00E)
    | (some e, s1) => (none, s1.maintResult e.ticket (b2n e.deferred) 0) := by
  have good : ¬ (!(maintReqOk v.toNat)) = true := by rw [h]; decide
  exact if_neg good

/-! The end of an activity -/

/-- What an activity that ends has done. -/
def activityDone (s : State) (e : Maint) (ok : Bool) : State :=
  if !ok then s
  else if e.cls = 0 then s.scrubPass e.comb
  else if e.cls = 3 then (match s.dom 0 0x2C30 1 with | [] => s | img => (s.storeImage (!s.boot.bank) img).setDom 0 0x2C30 1 [])
  else s

theorem activityEnd_some {ok : Bool} (h : s.maint.find? (fun e => e.ticket = t && !e.deferred) = some e) :
    s.activityEnd t ok = if ok && [2, 4, 5].contains e.cls then s else ((activityDone s e ok).maintEnd t).maintResult t (if ok then 3 else 4) 0 := by
  unfold State.activityEnd
  rw [h]
  rfl

theorem activityEnd_none {ok : Bool} (h : s.maint.find? (fun e => e.ticket = t && !e.deferred) = none) : s.activityEnd t ok = s := by
  unfold State.activityEnd
  rw [h]

theorem activityEnd_passes (h : s.maint.find? (fun e => e.ticket = t && !e.deferred) = some e) (hc : e.cls ∉ [2, 4, 5]) :
    s.activityEnd t true = ((activityDone s e true).maintEnd t).maintResult t 3 0 := by
  have ends : ¬ (true && [2, 4, 5].contains e.cls) = true := by simpa using hc
  exact (activityEnd_some h).trans (if_neg ends)

theorem activityEnd_fails (h : s.maint.find? (fun e => e.ticket = t && !e.deferred) = some e) :
    s.activityEnd t false = (s.maintEnd t).maintResult t 4 0 := activityEnd_some h

/-! A record of a remap -/

theorem remapRecord_combs (s : State) (c action : Nat) :
    (∀ d, (s.remapRecord c action).comb d = s.comb d) ∧ ∀ f, (s.remapRecord c action).frame f = s.frame f := by
  unfold State.remapRecord State.cperAdd
  extract_lets id s1 sp
  split
  · exact ⟨fun _ => rfl, fun _ => rfl⟩
  · exact ⟨fun _ => rfl, fun _ => rfl⟩

/-! The spare Comb -/

/-- Slot 10 of its Frame stands for Comb `c`, with zero state. -/
def spareTakes (s : State) (c : Nat) : State :=
  (s.setComb c { (s.comb c) with live := {}, lost := false, engDead := false, failing := false, misses := 0 }).setFrame (frameOf c)
    { s.frame (frameOf c) with combFor := some (slotOf c) }

theorem remapComb_takes (hr : (s.frame (frameOf c)).railLost = false) (hs : s.spareFree (frameOf c) = true) (ho : s.frameOn (frameOf c) = true) :
    s.remapComb c = some ((spareTakes s c).remapRecord c 2) := by
  have there : ¬ ((s.frame (frameOf c)).railLost && (s.frame (frameOf c)).pbPass && s.frameOn (frameOf c)) = true := by simp [hr]
  have free : (s.spareFree (frameOf c) && s.frameOn (frameOf c)) = true := by rw [hs, ho]; rfl
  exact (if_neg there).trans (if_pos free)

theorem remapComb_none (hr : (s.frame (frameOf c)).railLost = false) (hs : s.spareFree (frameOf c) = false) : s.remapComb c = none := by
  have there : ¬ ((s.frame (frameOf c)).railLost && (s.frame (frameOf c)).pbPass && s.frameOn (frameOf c)) = true := by simp [hr]
  have taken : ¬ (s.spareFree (frameOf c) && s.frameOn (frameOf c)) = true := by simp [hs]
  exact (if_neg there).trans (if_neg taken)

theorem spareRemap_none {region : Bool} (h : s.maintKick.remapEntry c region = none) : s.spareRemap c region = s := by
  unfold State.spareRemap
  extract_lets s0
  rw [h]

theorem spareRemap_region (h : s.maintKick.remapEntry c true = some e) :
    s.spareRemap c true = if s.maintKick.regionFree (frameOf c) then
        s.maintKick.setFrame (frameOf c) { s.maintKick.frame (frameOf c) with copyTo := some (slotOf c) }
      else (s.maintKick.maintEnd e.ticket).maintResult e.ticket 4 0 := by
  unfold State.spareRemap
  extract_lets s0
  rw [h]
  rfl

theorem spareRemap_comb (h : s.maintKick.remapEntry c false = some e) :
    s.spareRemap c false = match s.maintKick.remapComb c with
      | some s1 => (s1.maintEnd e.ticket).maintResult e.ticket 3 0
      | none => (s.maintKick.maintEnd e.ticket).maintResult e.ticket 4 0 := by
  unfold State.spareRemap
  extract_lets s0
  rw [h]
  rfl

theorem spareTakes_leaves (s : State) (c : Nat) :
    ((spareTakes s c).comb c).live = {} ∧ ((spareTakes s c).comb c).lost = false ∧ ((spareTakes s c).comb c).failing = false
      ∧ ((spareTakes s c).frame (frameOf c)).combFor = some (slotOf c) := by
  have hc : (spareTakes s c).comb c = { (s.comb c) with live := {}, lost := false, engDead := false, failing := false, misses := 0 } :=
    State.comb_setComb_same ..
  have hf : (spareTakes s c).frame (frameOf c) = { s.frame (frameOf c) with combFor := some (slotOf c) } := State.frame_setFrame_same ..
  rw [hc, hf]
  exact ⟨rfl, rfl, rfl, rfl⟩

/-! The spare region -/

/-- The spare region of Frame `f` stands for the region of slot `sl`. -/
def regionServed (s : State) (f sl : Nat) : State :=
  let m := s.comb (combAt f sl)
  (s.setComb (combAt f sl)
      { m with mw := { m.mw with
          mem := { m.mw.mem with ecc := m.mw.mem.ecc.filter (fun (e : Nat × Nat) => decide (3 < e.2)) }, corrPasses := [], spareRows := [], laneSpare := [] } }).setFrame f
    { s.frame f with copyTo := none, regionFor := some sl }

theorem regionCopied_serves {sl : Nat} (h : (s.frame f).copyTo = some sl) :
    (∀ d, (s.regionCopied f).comb d = (regionServed s f sl).comb d) ∧ ∀ g, (s.regionCopied f).frame g = (regionServed s f sl).frame g := by
  obtain ⟨hc, hf⟩ := remapRecord_combs (regionServed s f sl) (combAt f sl) 3
  unfold State.regionCopied
  extract_lets x
  rw [show x.copyTo = some sl from h]
  change (∀ d, State.comb (match (regionServed s f sl).remapEntry (combAt f sl) true with
      | some e => (((regionServed s f sl).remapRecord (combAt f sl) 3).maintEnd e.ticket).maintResult e.ticket 3 0
      | none => (regionServed s f sl).remapRecord (combAt f sl) 3) d = _) ∧ ∀ g, State.frame (match (regionServed s f sl).remapEntry (combAt f sl) true with
      | some e => (((regionServed s f sl).remapRecord (combAt f sl) 3).maintEnd e.ticket).maintResult e.ticket 3 0
      | none => (regionServed s f sl).remapRecord (combAt f sl) 3) g = _
  split
  · exact ⟨hc, hf⟩
  · exact ⟨hc, hf⟩

theorem regionServed_comb (s : State) (f sl : Nat) :
    ((regionServed s f sl).comb (combAt f sl)).mw.mem.bytes = (s.comb (combAt f sl)).mw.mem.bytes
      ∧ ((regionServed s f sl).comb (combAt f sl)).mw.spareRows = [] ∧ ((regionServed s f sl).comb (combAt f sl)).mw.laneSpare = [] := by
  unfold regionServed
  rw [State.comb_setFrame', State.comb_setComb_same]
  exact ⟨rfl, rfl, rfl⟩

theorem regionServed_frame (s : State) (f sl : Nat) : (regionServed s f sl).frame f = { s.frame f with copyTo := none, regionFor := some sl } :=
  State.frame_setFrame_same ..

theorem regionCopied_stays (h : (s.frame f).copyTo = none) : s.regionCopied f = s := by
  unfold State.regionCopied
  extract_lets x
  rw [show x.copyTo = none from h]

/-- Settles O52: the branches of each request and activity, with what a remap leaves of the Comb and its Frame. -/
theorem maintenanceRuns : Obligations.MaintenanceRuns := by
  unfold Obligations.MaintenanceRuns
  intro s
  refine ⟨fun p v hp hw => ⟨fun h => ?_, fun h => ?_⟩, fun t e h => ⟨fun h1 => ?_, ?_, fun h0 => ?_, fun h2 => ?_⟩, fun t ok h => ?_,
    fun c region hc => ⟨fun h => ?_, fun e h hr => ⟨fun hg => ?_, fun hg => ?_⟩, fun e h hr hl hs ho => ?_, fun e h hr hl hs => ?_⟩,
    fun f hf => ⟨fun h => ?_, fun sl h => ?_⟩⟩
  -- requests
  · exact unit_write_refuses hp hw (maintReqEff_bad h)
  · split <;> rename_i ha
    · exact unit_write_refuses hp hw (by rw [maintReqEff_asks h, asked, ha])
    · exact unit_write_accepts hp hw (by rw [maintReqEff_asks h, asked, ha])
  -- ends
  · refine congrArg Host.Outcome.next ((activityEnd_passes h (by rw [h1]; decide)).trans ?_)
    rw [activityDone, h1]
    rfl
  · exact congrArg Host.Outcome.next (activityEnd_fails h)
  · refine congrArg Host.Outcome.next ((activityEnd_passes h (by rw [h0]; decide)).trans ?_)
    rw [activityDone, h0]
    rfl
  · have own : (true && [2, 4, 5].contains e.cls) = true := by simpa using h2
    exact congrArg Host.Outcome.next ((activityEnd_some h).trans (if_pos own))
  · exact congrArg Host.Outcome.next (activityEnd_none h)
  -- remaps
  · exact (onUnit_next hc _).trans (congrArg Host.Outcome.next (spareRemap_none h))
  · subst hr
    exact (onUnit_next hc _).trans (congrArg Host.Outcome.next ((spareRemap_region h).trans (if_pos hg)))
  · subst hr
    exact (onUnit_next hc _).trans (congrArg Host.Outcome.next ((spareRemap_region h).trans (if_neg (Bool.eq_false_iff.mp hg))))
  · subst hr
    obtain ⟨kc, kf⟩ := remapRecord_combs (spareTakes s.maintKick c) c 2
    obtain ⟨h1, h2, h3, h4⟩ := spareTakes_leaves s.maintKick c
    have moves : s.spareRemap c false = (((spareTakes s.maintKick c).remapRecord c 2).maintEnd e.ticket).maintResult e.ticket 3 0 := by
      rw [spareRemap_comb h, remapComb_takes (s := s.maintKick) hl hs ho]
    refine ⟨_, (onUnit_next hc _).trans (congrArg Host.Outcome.next moves), ?_⟩
    rw [← kc c] at h1 h2 h3
    rw [← kf] at h4
    exact ⟨h1, h2, h3, h4⟩
  · subst hr
    refine (onUnit_next hc _).trans (congrArg Host.Outcome.next ?_)
    rw [spareRemap_comb h, remapComb_none (s := s.maintKick) hl hs]
  -- a copied region
  · exact (onUnit_next hf _).trans (congrArg Host.Outcome.next (regionCopied_stays h))
  · obtain ⟨kc, kf⟩ := regionCopied_serves h
    refine ⟨_, onUnit_next hf _, ?_⟩
    beta_reduce
    rw [kc, kf, regionServed_frame]
    exact ⟨rfl, rfl, regionServed_comb s f sl⟩

end Sys2Proof.Proofs
end

section
/-! PROOFS. The Management Port: SDO transfers (R479 to R481, R490). -/

open Sys2Proof Sys2Proof.Machine Sys2Proof.Claims Sys2Proof.Laws

namespace Sys2Proof.Proofs

variable {s : State} {b cmd idx sub : Nat}

/-- The fields of an initiate are read back. -/
theorem sdoHead_fields (hc : cmd < 256) (hi : idx < 65536) (hs : sub < 256) (d : List Byte) :
    leNat ((sdoHead cmd idx sub ++ d).take 1) = cmd ∧ leNat (((sdoHead cmd idx sub ++ d).drop 1).take 2) = idx
      ∧ leNat (((sdoHead cmd idx sub ++ d).drop 3).take 1) = sub ∧ (sdoHead cmd idx sub ++ d).drop 4 = d := by
  have h1 : (sdoHead cmd idx sub ++ d).take 1 = leBytes 1 cmd := rfl
  have h2 : ((sdoHead cmd idx sub ++ d).drop 1).take 2 = leBytes 2 idx := rfl
  have h3 : ((sdoHead cmd idx sub ++ d).drop 3).take 1 = leBytes 1 sub := rfl
  rw [h1, h2, h3, leNat_leBytes hc, leNat_leBytes hi, leNat_leBytes hs]
  exact ⟨rfl, rfl, rfl, rfl⟩

/-- With no transfer open, an initiate starts one. -/
theorem sdoFrame_starts {f : List Byte} (h : s.mgmt.sdo = none) (h80 : leNat (f.take 1) ≠ 0x80) (hi : sdoInit (leNat (f.take 1)) = true) :
    s.sdoFrame b f = s.sdoStart b f := by
  unfold State.sdoFrame
  rw [h]
  exact (if_neg h80).trans (if_pos hi)

theorem sdoStart_upload (hi : idx < 65536) (hs : sub < 256) (d : List Byte) : s.sdoStart b (sdoHead 0x40 idx sub ++ d) = s.sdoUpload b idx sub := by
  obtain ⟨h1, h2, h3, -⟩ := sdoHead_fields (cmd := 0x40) (by decide) hi hs d
  unfold State.sdoStart
  rw [h1, h2, h3]
  rfl

theorem sdoFrame_upload (h : s.mgmt.sdo = none) (hi : idx < 65536) (hs : sub < 256) (d : List Byte) :
    s.sdoFrame b (sdoHead 0x40 idx sub ++ d) = s.sdoUpload b idx sub := by
  obtain ⟨h1, -⟩ := sdoHead_fields (cmd := 0x40) (by decide) hi hs d
  rw [sdoFrame_starts h (by rw [h1]; decide) (by rw [h1]; decide), sdoStart_upload hi hs]

theorem sdoUpload_answers {l : List Byte} {s1 : State} (hw : s.dbgWaits .mgmt idx sub = false) (hl : s.sdoLoad idx sub = (.ok l, s1))
    (h1 : 1 ≤ l.length) (h4 : l.length ≤ 4) : s.sdoUpload b idx sub = s1.sdoOut b (sdoHead (0x43 + (4 - l.length) * 4) idx sub ++ l) := by
  have short : ¬ sdoLimit < l.length := by rw [sdoLimit]; omega
  unfold State.sdoUpload
  rw [hw, hl]
  exact (if_neg short).trans (if_pos ⟨h1, h4⟩)

theorem sdoUpload_aborts {r : Refuse} {s1 : State} (hw : s.dbgWaits .mgmt idx sub = false) (hl : s.sdoLoad idx sub = (.error r, s1)) :
    s.sdoUpload b idx sub = s1.sdoAbort b idx sub r.abort := by
  unfold State.sdoUpload
  rw [hw, hl]
  rfl

/-- The command of an expedited download of `n` bytes. -/
theorem downCmd {n : Nat} (h1 : 1 ≤ n) (h4 : n ≤ 4) :
    let c := 0x23 + (4 - n) * 4
    c < 256 ∧ c ≠ 0x80 ∧ sdoInit c = true ∧ c / 32 = 1 ∧ bit c 1 = true ∧ bit c 0 = true ∧ 4 - fld c 2 2 = n := by
  have each : n = 1 ∨ n = 2 ∨ n = 3 ∨ n = 4 := by omega
  rcases each with rfl | rfl | rfl | rfl <;> decide

theorem sdoFrame_download {d pad : List Byte} (h : s.mgmt.sdo = none) (hi : idx < 65536) (hs : sub < 256) (h1 : 1 ≤ d.length) (h4 : d.length ≤ 4) :
    s.sdoFrame b (sdoHead (0x23 + (4 - d.length) * 4) idx sub ++ d ++ pad) = s.sdoApply b idx sub d (sdoHead 0x60 idx sub) := by
  obtain ⟨hc, h80, hin, h32, hb1, hb0, hn⟩ := downCmd h1 h4
  generalize 0x23 + (4 - d.length) * 4 = c at *
  obtain ⟨f1, f2, f3, f4⟩ := sdoHead_fields hc hi hs (d ++ pad)
  rw [List.append_assoc, sdoFrame_starts h (by rwa [f1]) (by rwa [f1])]
  unfold State.sdoStart
  rw [f1, f2, f3, f4]
  extract_lets c'
  rw [show c' / 32 = 1 from h32]
  change s.sdoDownload b c idx sub (d ++ pad) = _
  unfold State.sdoDownload
  rw [hb1, hb0]
  change s.sdoApply b idx sub ((d ++ pad).take (4 - fld c 2 2)) (sdoHead 0x60 idx sub) = _
  rw [hn, List.take_left' rfl]

end Sys2Proof.Proofs
end

section
/-! PROOFS. NMT, LSS and the frames the module sends (R480 to R485), and JTAG's debug writes (R510). -/

open Sys2Proof Sys2Proof.Machine Sys2Proof.Claims Sys2Proof.Laws

namespace Sys2Proof.Proofs

variable {s t : State} {p : Path} {k idx sub cs node : Nat} {v : W64}

/-! NMT -/

/-- A command that the module takes. -/
theorem nmt_taken (h0 : s.mgmt.nmt ≠ 0) (ho : s.pathOpen .mgmt = true) (hn : node = 0 ∨ node = s.mgmt.node) :
    ¬ (s.mgmt.nmt = 0 ∨ !(s.pathOpen .mgmt) ∨ (node ≠ 0 ∧ node ≠ s.mgmt.node)) := by
  rw [ho]
  rintro (h | h | ⟨h1, h2⟩)
  · exact h0 h
  · exact absurd h (by decide)
  · exact hn.elim h1 h2

theorem nmt_resets (h0 : s.mgmt.nmt ≠ 0) (ho : s.pathOpen .mgmt = true) (hn : node = 0 ∨ node = s.mgmt.node) (hc : cs = 129 ∨ cs = 130) :
    exec (.nmtCommand cs node) s = .next s.commReset := by
  rcases hc with rfl | rfl <;> exact congrArg Host.Outcome.next (if_neg (nmt_taken h0 ho hn))

theorem nmt_other (h0 : node ≠ 0) (hn : node ≠ s.mgmt.node) : exec (.nmtCommand cs node) s = .next s :=
  congrArg Host.Outcome.next (if_pos (.inr (.inr ⟨h0, hn⟩)))

/-! LSS -/

/-- What the LSS server does with a frame. -/
def lssTaken (s : State) (frame : List Byte) : State :=
  let c := leNat (frame.take 1)
  if 0x40 ≤ c ∧ c ≤ 0x43 then (if s.mgmt.lss = 0 then s.lssSelect (c - 0x40) (leNat ((frame.drop 1).take 4)) else s)
  else if s.mgmt.lss = 1 ∧ c = 0x11 then s.lssNode (leNat ((frame.drop 1).take 1))
  else if s.mgmt.lss = 1 ∧ c = 0x17 then s.lssStore
  else s

theorem lss_taken {frame : List Byte} (h0 : s.mgmt.nmt ≠ 0) (ho : s.pathOpen .mgmt = true) (h8 : frame.length = 8) :
    exec (.lssCommand frame) s = .next (lssTaken s frame) := by
  have takes : ¬ (s.mgmt.nmt = 0 ∨ !(s.pathOpen .mgmt) ∨ frame.length ≠ 8) := by
    rw [ho, h8]
    simpa using h0
  exact congrArg Host.Outcome.next (if_neg takes)

/-- A frame that configures the node number. -/
def nodeFrame (n : Byte) : List Byte := 0x11 :: n :: List.replicate 6 0

theorem lssTaken_node (n : Byte) (h : s.mgmt.lss = 1) : lssTaken s (nodeFrame n) = s.lssNode n.toNat := by
  have cmd : leNat ((nodeFrame n).take 1) = 0x11 := rfl
  have num : leNat (((nodeFrame n).drop 1).take 1) = n.toNat := Nat.add_zero _
  unfold lssTaken
  rw [cmd, num]
  exact (if_neg (by decide)).trans (if_pos ⟨h, rfl⟩)

theorem lssNode_sets {n : Nat} (h1 : 1 ≤ n) (h2 : n ≤ 127) : s.lssNode n = (s.setObj 0 0x2010 1 n).lssOut [0x11, 0] := if_pos ⟨h1, h2⟩

theorem lssNode_refuses {n : Nat} (h : 127 < n) : s.lssNode n = s.lssOut [0x11, 1] := if_neg (fun k => absurd k.2 (Nat.not_le.mpr h))

theorem lssTaken_waiting (n : Byte) (h : s.mgmt.lss = 0) : lssTaken s (nodeFrame n) = s := by
  have cmd : leNat ((nodeFrame n).take 1) = 0x11 := rfl
  unfold lssTaken
  rw [cmd, h]
  rfl

/-- A frame that selects by the serial number. -/
def serialFrame (v : Nat) : List Byte := 0x43 :: leBytes 4 v ++ List.replicate 3 0

theorem lssTaken_serial {v : Nat} (hv : v < 256 ^ 4) (h : s.mgmt.lss = 0) : lssTaken s (serialFrame v) = s.lssSelect 3 v := by
  have cmd : leNat ((serialFrame v).take 1) = 0x43 := rfl
  have num : leNat (((serialFrame v).drop 1).take 4) = v := leNat_leBytes (n := 4) hv
  unfold lssTaken
  rw [cmd, num]
  exact (if_pos ⟨by decide, by decide⟩).trans (if_pos h)

theorem lssSelect_last {v : Nat} (hm : s.mgmt.lssMatch = 3) (hv : v = s.objVal .mgmt 0x1018 4) :
    s.lssSelect 3 v = State.lssOut { s with mgmt := { s.mgmt with lss := 1, lssMatch := 0 } } [0x44] := by
  have all : (s.mgmt.lssMatch = 3 && v = s.objVal .mgmt 0x1018 4) ∧ 3 = 3 := by simp [hm, hv]
  exact if_pos all

/-! TPDOs, heartbeat, EMCY -/

theorem tpdoSend_idle (h : s.mgmt.nmt ≠ 5 ∨ s.tpdoMap k = []) : s.tpdoSend k = s := by
  refine if_pos ?_
  rcases h with h | h
  · exact .inl h
  · exact .inr (.inr (.inr (by rw [h]; rfl)))

/-- The COB-ID of a TPDO. -/
def tpdoCob (s : State) (k : Nat) : Nat := s.obj 0 (0x1800 + k) 1 (s.objDefault (0x1800 + k) 1)

theorem tpdoSend_sends {l : List W64} (h5 : s.mgmt.nmt = 5) (ho : s.pathOpen .mgmt = true) (hm : s.tpdoMap k ≠ []) (hb : bit (tpdoCob s k) 31 = false)
    (hr : s.readAll .mgmt ((s.tpdoMap k).map (fun v => (v / 65536, fld v 8 8))) = (.ok l, t)) :
    s.tpdoSend k = t.canOut (tpdoCob s k % 2048) (((s.tpdoMap k).zip l).flatMap (fun (q : Nat × W64) => leBytes (q.1 % 256 / 8) q.2.toNat)) := by
  have sends : ¬ (s.mgmt.nmt ≠ 5 ∨ !(s.pathOpen .mgmt) ∨ bit (tpdoCob s k) 31 ∨ (s.tpdoMap k).isEmpty) := by
    rw [h5, ho, hb]
    simpa using hm
  refine (if_neg sends).trans ?_
  rw [hr]
  rfl

theorem canOut_buses (s : State) (cob : Nat) (l : List Byte) :
    s.canOut cob l = List.foldl (fun t k => if bit s.mgmt.busEn k && !(s.mgmt.off k) then t.out (.can k cob l) else t) s [0, 1] := by
  unfold State.canOut
  simp only [List.foldl_cons, List.foldl_nil]
  have kept (k : Nat) (c : Bool) : (if c then s.out (.can k cob l) else s).mgmt = s.mgmt := by cases c <;> rfl
  rw [kept]

/-! JTAG -/

theorem objPut_eff (h : writable p idx sub v s) (eff : Eff) :
    s.objPut p idx sub v eff = match eff s with | (none, s1) => (none, s1) | (some r, s1) => (some r, s1.refused p idx sub r) := by
  obtain ⟨-, h2, h3, h4, row, h5, h6, h7⟩ := writable_passes h
  have h7' : ¬ 2 ^ row.ty.width ≤ v.toNat := Nat.not_le.mpr h7
  simp only [State.objPut, h2, h3, h4, h5, h6, h7']
  rfl

/-- Bits of `DBG_ACCESS`: subindex 1, a write, the value. -/
theorem dbgAccess_fields (v : W64) :
    (BitVec.ofNat 73 (257 + v.toNat * 512)).toNat % 256 = 1 ∧ bit (BitVec.ofNat 73 (257 + v.toNat * 512)).toNat 8 = true
      ∧ (BitVec.ofNat 73 (257 + v.toNat * 512)).toNat / 512 = v.toNat := by
  have hv := v.isLt
  have hd : (BitVec.ofNat 73 (257 + v.toNat * 512)).toNat = 257 + v.toNat * 512 := by
    rw [BitVec.toNat_ofNat]
    omega
  rw [hd, bit, decide_eq_true_eq]
  omega

theorem jtagAccess_target (h : writable .jtag 0x2B20 1 v s) : s.jtagAccess 1 true v = (s.storeObj .jtag 0x2B20 1 v).jtagKeep v 1 false := by
  have ho : s.pathOpen .jtag = true := (writable_passes h).1
  have stored : s.objWrite .jtag 0x2B20 1 v = (none, s.storeObj .jtag 0x2B20 1 v) := objPut_eff h _
  unfold State.jtagAccess
  rw [ho, stored]
  rfl

theorem jtagAccess_closed (h : s.boot.fw = false) (wr : Bool) : s.jtagAccess sub wr v = s := by
  have closed : (!(s.pathOpen .jtag)) = true := congrArg not h
  exact if_pos closed

theorem jtagTarget_leaves (s : State) (v : W64) :
    let t := (s.storeObj .jtag 0x2B20 1 v).jtagKeep v 1 false
    t.tapDbg = s.tapDbg ∧ t.obj 20 0x2B20 1 0 = v.toNat ∧ (t.dbgOf .jtag).last = v ∧ (t.dbgOf .jtag).sub = 1 ∧ (t.dbgOf .jtag).refused = false := by
  have hd : ((s.storeObj .jtag 0x2B20 1 v).jtagKeep v 1 false).dbgOf .jtag = { (s.storeObj .jtag 0x2B20 1 v).dbgOf .jtag with last := v, sub := 1, refused := false } :=
    tget_tput_same ..
  have hv : (s.setObj 20 0x2B20 1 v.toNat).obj 20 0x2B20 1 0 = v.toNat := obj_setObj_same _ _ _ _ v.isLt
  intro t
  rw [hd]
  exact ⟨rfl, hv, rfl, rfl, rfl⟩

/-! The buses -/

theorem busOff_sets (m : Mgmt) {b : Nat} (hb : b < 2) :
    let n : Mgmt := if b = 0 then { m with offA := true } else { m with offB := true }
    n.off b = true ∧ n.off (1 - b) = m.off (1 - b) ∧ n.busEn = m.busEn := by
  have each : b = 0 ∨ b = 1 := by omega
  rcases each with rfl | rfl <;> exact ⟨rfl, rfl, rfl⟩

theorem busOff_clears (m : Mgmt) {b : Nat} (hb : b < 2) :
    let n : Mgmt := if b = 0 then { m with offA := false } else { m with offB := false }
    n.off b = false ∧ n.off (1 - b) = m.off (1 - b) ∧ n.busEn = m.busEn := by
  have each : b = 0 ∨ b = 1 := by omega
  rcases each with rfl | rfl <;> exact ⟨rfl, rfl, rfl⟩

/-- Settles O53: the branches of each service of the port, with the fields of its frames read back. -/
theorem managementPortServes : Obligations.ManagementPortServes := by
  unfold Obligations.ManagementPortServes
  intro b s hb
  have hok : decide (b < 2) = true := decide_eq_true hb
  have hreq {f : List Byte} (h : s.sdoOn b f = true) : exec (.sdoRequest b f) s = .next (s.sdoFrame b f) :=
    (onUnit_next hok _).trans (congrArg Host.Outcome.next (if_pos h))
  refine ⟨fun f h => ?_, fun idx sub hi hs hn => ⟨fun ho hw => ⟨fun l s1 hl h1 h4 => ?_, fun r s1 hl => ?_⟩, fun d h1 h4 ho => ?_⟩, fun x hx => ?_, fun hx => ?_,
    fun node h0 ho hn => ⟨?_, ?_, ?_, ?_, ?_⟩, fun cs node h0 hn => nmt_other h0 hn, fun h0 ho => ⟨fun n hl h1 h2 => ?_, fun n hl h => ?_, fun hl => ?_, fun v hl hm hv => ?_⟩,
    fun k hk => ⟨fun h => ?_, fun l s1 h5 ho hm hc hr => ?_⟩, fun h0 ho ht => ?_, fun ht => ?_, fun q l hq ho => ⟨fun hn => ?_, fun hn => ?_⟩, fun hq => ?_,
    ?_, ?_, canOut_buses s, fun v hw => ?_, fun hf dr => ?_, rfl⟩
  -- SDO
  · exact (onUnit_next hok _).trans (congrArg Host.Outcome.next (if_neg (Bool.eq_false_iff.mp h)))
  · rw [hreq ho, sdoFrame_upload hn hi hs, sdoUpload_answers hw hl h1 h4]
  · rw [hreq ho, sdoFrame_upload hn hi hs, sdoUpload_aborts hw hl]
  · exact (hreq ho).trans (congrArg Host.Outcome.next (sdoFrame_download hn hi hs h1 h4))
  · change Host.Outcome.next (match s.mgmt.sdo with | some x => s.sdoFail x 0x05040000#32 | none => s) = _
    rw [hx]
    rfl
  · change Host.Outcome.next (match s.mgmt.sdo with | some x => s.sdoFail x 0x05040000#32 | none => s) = _
    rw [hx]
  -- NMT
  · exact congrArg Host.Outcome.next (if_neg (nmt_taken h0 ho hn))
  · exact congrArg Host.Outcome.next (if_neg (nmt_taken h0 ho hn))
  · exact congrArg Host.Outcome.next (if_neg (nmt_taken h0 ho hn))
  · obtain ⟨o, hr⟩ := commReset_outs s
    refine ⟨_, nmt_resets h0 ho hn (.inr rfl), ?_⟩
    beta_reduce
    rw [hr]
    exact ⟨rfl, rfl, rfl, rfl⟩
  · exact (nmt_resets h0 ho hn (.inl rfl)).trans (nmt_resets h0 ho hn (.inr rfl)).symm
  -- LSS
  · exact (lss_taken (frame := nodeFrame n) h0 ho rfl).trans (congrArg Host.Outcome.next ((lssTaken_node n hl).trans (lssNode_sets h1 h2)))
  · exact (lss_taken (frame := nodeFrame n) h0 ho rfl).trans (congrArg Host.Outcome.next ((lssTaken_node n hl).trans (lssNode_refuses h)))
  · exact (lss_taken (frame := nodeFrame 0) h0 ho rfl).trans (congrArg Host.Outcome.next (lssTaken_waiting 0 hl))
  · exact (lss_taken (frame := serialFrame v.toNat) h0 ho rfl).trans (congrArg Host.Outcome.next ((lssTaken_serial v.isLt hl).trans (lssSelect_last hm hv)))
  -- TPDOs, heartbeat, EMCY
  · exact (onUnit_next (decide_eq_true hk) _).trans (congrArg Host.Outcome.next (tpdoSend_idle h))
  · exact (onUnit_next (decide_eq_true hk) _).trans (congrArg Host.Outcome.next (tpdoSend_sends h5 ho hm hc hr))
  · exact congrArg Host.Outcome.next (if_neg (by simp [h0, ho, ht]))
  · exact congrArg Host.Outcome.next (if_pos (.inr (.inr ht)))
  · change Host.Outcome.next (match s.mgmt.emcy with | [] => s | q :: t => _) = _
    rw [hq]
    exact congrArg Host.Outcome.next (if_pos ⟨ho, hn⟩)
  · change Host.Outcome.next (match s.mgmt.emcy with | [] => s | q :: t => _) = _
    rw [hq]
    exact congrArg Host.Outcome.next (if_neg (by simp [hn]))
  · change Host.Outcome.next (match s.mgmt.emcy with | [] => s | q :: t => _) = _
    rw [hq]
  -- the buses
  · exact ⟨_, onUnit_next hok _, busOff_sets s.mgmt hb⟩
  · exact ⟨_, onUnit_next hok _, busOff_clears s.mgmt hb⟩
  -- JTAG
  · obtain ⟨h1, h2, h3⟩ := dbgAccess_fields v
    have runs : exec (.jtagUpdateDr (BitVec.ofNat 73 (257 + v.toNat * 512))) s =
        .next ((State.storeObj { s with tapDbg := true } .jtag 0x2B20 1 v).jtagKeep v 1 false) := by
      change Host.Outcome.next (State.jtagAccess { s with tapDbg := true } _ _ _) = _
      rw [h1, h2, h3, BitVec.ofNat_toNat, BitVec.setWidth_eq, jtagAccess_target hw]
    exact ⟨_, runs, jtagTarget_leaves _ v⟩
  · exact congrArg Host.Outcome.next (jtagAccess_closed (s := { s with tapDbg := true }) hf _)

end Sys2Proof.Proofs
end

section
/-! PROOFS. The dictionary as a whole: writes, snapshots, the boot flash and the DOMAIN channel (R473 to R477, R487 to R494). -/

open Sys2Proof Sys2Proof.Machine Sys2Proof.Claims Sys2Proof.Laws

namespace Sys2Proof.Proofs

variable {s s1 : State} {p : Path} {idx sub h : Nat} {v : W64} {l : List Byte} {r : Refuse}

/-! A write refused by R490's tests -/

theorem writeAnswer_refused {eff : Eff} (ho : s.pathOpen p = true) (h : s.objPut p idx sub v eff = (some r, s.refused p idx sub r)) :
    s.writeAnswer p idx sub v eff = (s.refused p idx sub r).out (.answer p idx sub r.code 0) := by
  have opened : ¬ (!(s.pathOpen p)) = true := by rw [ho]; decide
  refine (if_neg opened).trans ?_
  rw [h]
  rfl

theorem objectWrite_refused (hp : isPath p = true) (ho : s.pathOpen p = true)
    (h : s.objPut p idx sub v (scalarEff p idx sub v) = (some r, s.refused p idx sub r)) :
    exec (.objectWrite p idx sub v) s = refuses p idx sub r s :=
  (onUnit_next hp _).trans (congrArg Host.Outcome.next (writeAnswer_refused ho h))

theorem objPut_unchecked {eff : Eff} (hc : s.objCheck p idx sub true = .error r) : s.objPut p idx sub v eff = (some r, s.refused p idx sub r) := by
  unfold State.objPut
  rw [hc]

/-- A scalar's tests after its access: length, range, state. -/
theorem objPut_scalar {row : ORow} {eff : Eff} (hc : s.objCheck p idx sub true = .ok row) (hd : row.ty.isDom = false) :
    s.objPut p idx sub v eff =
      if 2 ^ row.ty.width ≤ v.toNat then (some badLength, s.refused p idx sub badLength)
      else if !(objRange idx sub v.toNat) then (some badValue, s.refused p idx sub badValue)
      else if !(s.objOpen p idx sub) ∨ !(s.selOk p idx) then (some badState, s.refused p idx sub badState)
      else match eff s with
        | (none, s1) => (none, s1)
        | (some r, s1) => (some r, s1.refused p idx sub r) := by
  have scalar : ¬ row.ty.isDom = true := by rw [hd]; decide
  unfold State.objPut
  rw [hc]
  exact if_neg scalar

/-! Snapshots -/

theorem snapListEff_length (h : l.length % 4 ≠ 0 ∨ 256 < l.length) : snapListEff p l s = (some badLength, s) := if_pos h

/-- A list whose entries are looked at. -/
theorem snapListEff_entries (h4 : l.length % 4 = 0) (h256 : l.length ≤ 256) : snapListEff p l s =
    match (words32 l).findSome? (s.snapBad p) with
    | some r => (some r, s)
    | none => (none, ((s.setDom (pathInst p) 0x2090 1 l).setDom (pathInst p) 0x2090 4 (List.replicate (2 * l.length) 0)).setObj (pathInst p) 0x2090 3 0) := by
  have whole : ¬ (l.length % 4 ≠ 0 ∨ 256 < l.length) := by omega
  exact if_neg whole

theorem snapTakeEff_takes {ws : List W64} (h : s.readAll p (snapEntries (s.dom (pathInst p) 0x2090 1)) = (.ok ws, s1)) :
    snapTakeEff p s = (none, (s1.setDom (pathInst p) 0x2090 4 (bytes64 ws)).setObj (pathInst p) 0x2090 3 s.ts.toNat) := by
  unfold snapTakeEff
  extract_lets i
  rw [show s.readAll p (snapEntries (s.dom i 0x2090 1)) = (.ok ws, s1) from h]

theorem snapTakeEff_fails (h : s.readAll p (snapEntries (s.dom (pathInst p) 0x2090 1)) = (.error r, s1)) : snapTakeEff p s = (some r, s) := by
  unfold snapTakeEff
  extract_lets i
  rw [show s.readAll p (snapEntries (s.dom i 0x2090 1)) = (.error r, s1) from h]

/-! The boot flash -/

theorem persistStore_none (h : persistent idx sub = false) : exec (.persistStore idx sub) s = .next s := by
  have passing : (!(persistent idx sub)) = true := by rw [h]; rfl
  exact congrArg Host.Outcome.next (if_pos passing)

theorem persistStore_dom (h : persistent idx sub = true) (hd : isDomObj idx sub = true) : exec (.persistStore idx sub) s =
    .next { s with flashDoms := tput s.flashDoms (okey 0 idx sub) (s.dom 0 idx sub) } := by
  have kept : ¬ (!(persistent idx sub)) = true := by rw [h]; decide
  exact congrArg Host.Outcome.next ((if_neg kept).trans (if_pos hd))

theorem persistStore_scalar (h : persistent idx sub = true) (hd : isDomObj idx sub = false) (hv : tget none s.objs (okey 0 idx sub) = some v) :
    exec (.persistStore idx sub) s = .next { s with flash := tput s.flash (okey 0 idx sub) (some v) } := by
  have kept : ¬ (!(persistent idx sub)) = true := by rw [h]; decide
  have scalar : ¬ isDomObj idx sub = true := by rw [hd]; decide
  refine congrArg Host.Outcome.next ((if_neg kept).trans ((if_neg scalar).trans ?_))
  rw [hv]

/-! The DOMAIN channel -/

theorem dwSelWrite_next (hh : isHl h = true) (ho : s.pathOpen (.hl h) = true) : exec (.dwSelWrite h v) s = .next (s.dwOpen h v) :=
  (onUnit_next hh _).trans (congrArg Host.Outcome.next (if_pos ho))

theorem dwGoTransfer_next {len off : Nat} {buf : List Byte} (hh : isHl h = true) (ho : s.pathOpen (.hl h) = true) :
    exec (.dwGoTransfer h len off buf) s = .next (s.dwMove h len off buf) :=
  (onUnit_next hh _).trans (congrArg Host.Outcome.next (if_pos ho))

theorem dwGoCommit_next (hh : isHl h = true) (ho : s.pathOpen (.hl h) = true) : exec (.dwGoCommit h) s = .next (s.dwCommit h) :=
  (onUnit_next hh _).trans (congrArg Host.Outcome.next (if_pos ho))

theorem dwEnd_stat (s : State) (h st : Nat) (c : W16) : ((s.dwEnd h st c).hlp h).dwStat = dwWord st c := by
  rw [State.dwEnd, State.hlp_setHlp_same]

/-- The channel as a write of `DW_SEL` leaves it. -/
def dwSelected (x : HlPort) (v : W64) : HlPort :=
  { x with dwSel := v.setWidth 32, dwLen := 0, dwOff := 0, dwStat := 0, dwBuf := [], dwStage := [], dwParts := [] }

theorem dwOpen_write (hv : v.toNat < 2 ^ 25) (hb : bit v.toNat 24 = true) : s.dwOpen h v = s.setHlp h (dwSelected (s.hlp h) v) :=
  (if_neg (Nat.not_le.mpr hv)).trans (if_pos hb)

theorem dwOpen_reserved (hv : 2 ^ 25 ≤ v.toNat) : s.dwOpen h v = (s.setHlp h (dwSelected (s.hlp h) v)).dwEnd h 3 0xC00D#16 := if_pos hv

/-- The channel with a part staged. -/
def dwStaged (x : HlPort) (len off : Nat) (buf : List Byte) : HlPort :=
  { x with
    dwLen := len, dwOff := off, dwBuf := buf, dwStat := dwWord 2 0
    dwStage := (lfit 0 off x.dwStage) ++ buf ++ x.dwStage.drop (off + buf.length)
    dwParts := (off, buf.length) :: x.dwParts.filter (fun q => q.1 != off) }

theorem dwMove_stages {len off : Nat} {buf : List Byte} (h3 : (s.hlp h).dwStat.toNat % 4 ≠ 3) (hoff : off % 65536 = 0)
    (hb : bit (s.hlp h).dwSel.toNat 24 = true) (h1 : buf.length ≤ 65536) (h2 : len ≤ 0x1000000) (hl : off + buf.length ≤ len) :
    s.dwMove h len off buf = s.setHlp h (dwStaged (s.hlp h) len off buf) := by
  have writes : ¬ (!(bit (s.hlp h).dwSel.toNat 24)) = true := by rw [hb]; decide
  have fits : ¬ (65536 < buf.length ∨ 0x1000000 < len ∨ len < off + buf.length) := by omega
  exact (if_neg h3).trans ((if_neg (not_not.mpr hoff)).trans ((if_neg writes).trans (if_neg fits)))

theorem dwMove_loads {len off : Nat} {buf : List Byte} (h3 : (s.hlp h).dwStat.toNat % 4 ≠ 3) (hoff : off % 65536 = 0)
    (hb : bit (s.hlp h).dwSel.toNat 24 = false) : s.dwMove h len off buf =
      s.setHlp h { s.hlp h with dwOff := off, dwBuf := ((s.hlp h).dwStage.drop off).take 65536, dwStat := dwWord 2 0 } := by
  have reads : (!(bit (s.hlp h).dwSel.toNat 24)) = true := by rw [hb]; rfl
  exact (if_neg h3).trans ((if_neg (not_not.mpr hoff)).trans (if_pos reads))

/-- What a commit in order does. -/
theorem dwCommit_runs (hb : bit (s.hlp h).dwSel.toNat 24 = true) (h3 : (s.hlp h).dwStat.toNat % 4 ≠ 3) : s.dwCommit h =
    if ((s.hlp h).dwParts.map (·.2)).foldl (· + ·) 0 < (s.hlp h).dwLen then
      (s.refused (.hl h) ((s.hlp h).dwSel.toNat % 65536) (fld (s.hlp h).dwSel.toNat 16 8) badLength).dwEnd h 3 0xC00D#16
    else match s.domWrite (.hl h) ((s.hlp h).dwSel.toNat % 65536) (fld (s.hlp h).dwSel.toNat 16 8) ((s.hlp h).dwStage.take (s.hlp h).dwLen) with
      | (none, s1) => s1.setHlp h { s1.hlp h with dwStat := dwWord 2 0, dwStage := [], dwParts := [] }
      | (some r, s1) => s1.dwEnd h 3 r.code := by
  have runs : ¬ ((s.hlp h).dwStat.toNat % 4 = 3 ∨ !(bit (s.hlp h).dwSel.toNat 24)) := by
    rw [hb]
    simpa using h3
  exact if_neg runs

/-- Settles O54: R490's tests in their order, then the effect of the object's rule. -/
theorem dictionaryWritesDecide : Obligations.DictionaryWritesDecide := by
  unfold Obligations.DictionaryWritesDecide
  intro p s hp
  refine ⟨fun idx sub v => ⟨fun hw => ⟨fun t ht => ?_, fun r t ht => ?_⟩, fun r ho hc => ?_, fun row ho hc hd => ⟨fun h1 => ?_, fun h1 h2 => ?_, fun h1 h2 h3 => ?_⟩⟩,
    fun v hw => ?_, fun v hw => ?_, fun l hw => ⟨fun h => ?_, fun h4 h256 hf => ?_, fun r h4 h256 hf => ?_⟩, fun v hw => ⟨fun l s1 hr => ?_, fun r s1 hr => ?_⟩,
    fun idx sub => ⟨persistStore_none, fun v => persistStore_scalar, persistStore_dom⟩,
    fun h hh ho => ⟨fun v hv hb => ?_, fun v hv => ?_, fun len off buf h3 hoff => ⟨fun hb h1 h2 hl => ?_, fun hb => ?_⟩,
      fun len off buf h3 => ⟨?_, ?_⟩, fun hb h3 hl => ⟨fun s1 hs => ?_, fun r s1 hs => ?_⟩, fun hb h3 hl => ?_⟩⟩
  -- R490's tests
  · exact unit_write_accepts hp hw ht
  · exact unit_write_refuses hp hw ht
  · exact objectWrite_refused hp ho (objPut_unchecked hc)
  · exact objectWrite_refused hp ho ((objPut_scalar hc hd).trans (if_pos h1))
  · exact objectWrite_refused hp ho ((objPut_scalar hc hd).trans ((if_neg (Nat.not_le.mpr h1)).trans (if_pos (by rw [h2]; rfl))))
  · exact objectWrite_refused hp ho ((objPut_scalar hc hd).trans ((if_neg (Nat.not_le.mpr h1)).trans
      ((if_neg (by rw [h2]; decide)).trans (if_pos (.inl (by rw [h3]; rfl))))))
  -- stored values
  · exact unit_write_accepts hp hw rfl
  · exact unit_write_accepts hp hw rfl
  -- snapshots
  · exact unit_dom_refuses hp hw (snapListEff_length h)
  · exact unit_dom_accepts hp hw (by rw [snapListEff_entries h4 h256, hf])
  · exact unit_dom_refuses hp hw (by rw [snapListEff_entries h4 h256, hf])
  · exact unit_write_accepts hp hw (snapTakeEff_takes hr)
  · exact unit_write_refuses hp hw (snapTakeEff_fails hr)
  -- the DOMAIN channel
  · exact (dwSelWrite_next hh ho).trans (congrArg Host.Outcome.next (dwOpen_write hv hb))
  · exact ⟨_, (dwSelWrite_next hh ho).trans (congrArg Host.Outcome.next (dwOpen_reserved hv)), dwEnd_stat ..⟩
  · exact (dwGoTransfer_next hh ho).trans (congrArg Host.Outcome.next (dwMove_stages h3 hoff hb h1 h2 hl))
  · exact (dwGoTransfer_next hh ho).trans (congrArg Host.Outcome.next (dwMove_loads h3 hoff hb))
  · exact (dwGoTransfer_next hh ho).trans (congrArg Host.Outcome.next (if_pos h3))
  · exact (dwGoCommit_next hh ho).trans (congrArg Host.Outcome.next (if_pos (.inl h3)))
  · refine (dwGoCommit_next hh ho).trans (congrArg Host.Outcome.next ((dwCommit_runs hb h3).trans ((if_neg (Nat.not_lt.mpr hl)).trans ?_)))
    rw [hs]
  · refine (dwGoCommit_next hh ho).trans (congrArg Host.Outcome.next ((dwCommit_runs hb h3).trans ((if_neg (Nat.not_lt.mpr hl)).trans ?_)))
    rw [hs]
    rfl
  · exact ⟨_, (dwGoCommit_next hh ho).trans (congrArg Host.Outcome.next ((dwCommit_runs hb h3).trans (if_pos hl))), dwEnd_stat ..⟩

end Sys2Proof.Proofs
end

section
/-! PROOFS. Performance counters, trace buffers and gated units (R500 to R509). -/

open Sys2Proof Sys2Proof.Machine Sys2Proof.Claims Sys2Proof.Laws

namespace Sys2Proof.Proofs

variable {s : State} {p : Path} {v : W64} {c n k ix : Nat}

/-! Counters -/

theorem latch_operator (s : State) (c : Nat) :
    (s.latch .mgmt).obj 0 0x2A00 19 0 = s.ts.toNat ∧ ((s.latch .mgmt).comb c).opLatch = (s.comb c).live.perf ++ (s.comb c).router :=
  ⟨obj_setObj_same _ _ _ _ s.ts.isLt, congrArg Comb.opLatch (tget_map (fun m : Comb => { m with opLatch := m.live.perf ++ m.router }) rfl s.combs c)⟩

/-- The operator's selected counter of an area. -/
theorem pcLive_area (hc : s.callerComb .mgmt (fld (s.pcSel .mgmt) 3 10) = some c) (h6 : s.pcSel .mgmt % 8 ≠ 6) (g : Perf → Perf) :
    s.pcLive .mgmt g = s.setArea c { s.area c with
      perf := tput (s.area c).perf (perfKey (s.pcSel .mgmt % 8) (fld (s.pcSel .mgmt) 13 13) (fld (s.pcSel .mgmt) 26 4))
        (g (tget {} (s.area c).perf (perfKey (s.pcSel .mgmt % 8) (fld (s.pcSel .mgmt) 13 13) (fld (s.pcSel .mgmt) 26 4)))) } := by
  unfold State.pcLive
  extract_lets w k
  rw [show s.callerComb .mgmt (fld w 3 10) = some c from hc]
  exact if_neg h6

/-! Trace buffers -/

/-- A buffer that the Memory Wafer and Comb Memory cannot hold. -/
theorem trCfgEff_outside (h : trBase v.toNat % 1024 ≠ 0 ∨ trSize v.toNat = 0 ∨ 49152 < trSize v.toNat ∨ 0x3000000 < trBase v.toNat + 1024 * trSize v.toNat) :
    trCfgEff n 1 v s = (some badValue, s) := if_pos h

/-- What a buffer that fits meets. -/
theorem trCfgEff_fits (h1 : trBase v.toNat % 1024 = 0) (h2 : trSize v.toNat ≠ 0) (h3 : trSize v.toNat ≤ 49152) (h4 : trBase v.toNat + 1024 * trSize v.toNat ≤ 0x3000000) :
    trCfgEff n 1 v s =
      if trEn (s.obj (n + 1) 0x2B00 1 0) ∧ (trBase v.toNat ≠ trBase (s.obj (n + 1) 0x2B00 1 0) ∨ trSize v.toNat ≠ trSize (s.obj (n + 1) 0x2B00 1 0)) then (some badState, s)
      else (none, if trEn v.toNat && !(trEn (s.obj (n + 1) 0x2B00 1 0)) then
        (s.storeObj (.tenant n) 0x2B00 1 v).onAreas n (fun _ a =>
          { a with mem := (a.mem.write (trBase v.toNat) (List.replicate 64 0) (s.epLow (some n))).1, trWritten := 0, trLost := 0, trLostAll := 0 })
        else s.storeObj (.tenant n) 0x2B00 1 v) := by
  have fits : ¬ (trBase v.toNat % 1024 ≠ 0 ∨ trSize v.toNat = 0 ∨ 49152 < trSize v.toNat ∨ 0x3000000 < trBase v.toNat + 1024 * trSize v.toNat) := by omega
  exact if_neg fits

/-- The oldest queued record taken: dropped, lost, or written. -/
def traceTaken (s : State) (c n : Nat) (r : TrRec) (l : List TrRec) : State :=
  let cfg := s.obj (n + 1) 0x2B00 1 0
  let a := s.area c
  if !(trEn cfg) then s.setArea c { a with trQ := l }
  else if bit cfg 42 ∧ a.trWritten = trRecords cfg then s.setArea c { a with trQ := l, trLost := a.trLost + 1, trLostAll := a.trLostAll + 1 }
  else
    let first : TrRec := if a.trLost = 0 then r else ⟨12, 6, 0, BitVec.ofNat 32 (min a.trLost (2 ^ 32 - 1)), s.ts⟩
    let w := a.trWritten + 1
    let s1 := s.setArea c { a with trQ := if a.trLost = 0 then l else a.trQ, trLost := 0, trWritten := w }
    let off := trBase cfg + 64 + 16 * (a.trWritten % max 1 (trRecords cfg))
    let s2 := (s1.performWrite (some n) c 0 off first.bytes (s.epLow (some n))).1
    if w % 4 = 0 then (s2.performWrite (some n) c 0 (trBase cfg) (trHeader w a.trLostAll first.time.toNat) (s.epLow (some n))).1 else s2

theorem traceWrite_queued {r : TrRec} {l : List TrRec} (hn : s.residentAt c = some n) (hq : (s.area c).trQ = r :: l) :
    s.traceWrite c = traceTaken s c n r l := by
  unfold State.traceWrite
  rw [hn]
  change (match (s.area c).trQ with | [] => s | r :: t => traceTaken s c n r t) = _
  rw [hq]

theorem traceWrite_idle (h : s.residentAt c = none ∨ (s.area c).trQ = []) : s.traceWrite c = s := by
  unfold State.traceWrite
  split <;> rename_i hn
  · rfl
  · rcases h with h | h
    · rw [h] at hn
      cases hn
    · extract_lets cfg a
      rw [show a.trQ = [] from h]

theorem traceRecordWrite_next (hc : isComb c = true) (hs : s.refs.stopped = false) : exec (.traceRecordWrite c) s = .next (s.traceWrite c) := by
  have runs : ¬ s.refs.stopped = true := by rw [hs]; decide
  exact (onUnit_next hc _).trans (congrArg Host.Outcome.next (if_neg runs))

theorem traceWrite_drops {r : TrRec} {l : List TrRec} (hn : s.residentAt c = some n) (hq : (s.area c).trQ = r :: l)
    (he : trEn (s.obj (n + 1) 0x2B00 1 0) = false) : s.traceWrite c = s.setArea c { s.area c with trQ := l } := by
  have off : (!(trEn (s.obj (n + 1) 0x2B00 1 0))) = true := by rw [he]; rfl
  exact (traceWrite_queued hn hq).trans (if_pos off)

theorem traceWrite_full {r : TrRec} {l : List TrRec} (hn : s.residentAt c = some n) (hq : (s.area c).trQ = r :: l)
    (he : trEn (s.obj (n + 1) 0x2B00 1 0) = true) (hb : bit (s.obj (n + 1) 0x2B00 1 0) 42 = true)
    (hw : (s.area c).trWritten = trRecords (s.obj (n + 1) 0x2B00 1 0)) :
    s.traceWrite c = s.setArea c { s.area c with trQ := l, trLost := (s.area c).trLost + 1, trLostAll := (s.area c).trLostAll + 1 } := by
  have on : ¬ (!(trEn (s.obj (n + 1) 0x2B00 1 0))) = true := by rw [he]; decide
  exact (traceWrite_queued hn hq).trans ((if_neg on).trans (if_pos ⟨hb, hw⟩))

theorem traceWrite_writes {r : TrRec} {l : List TrRec} (hn : s.residentAt c = some n) (hq : (s.area c).trQ = r :: l)
    (he : trEn (s.obj (n + 1) 0x2B00 1 0) = true) (hb : bit (s.obj (n + 1) 0x2B00 1 0) 42 = false)
    (h0 : (s.area c).trLost = 0) (h4 : ((s.area c).trWritten + 1) % 4 ≠ 0) :
    s.traceWrite c = ((s.setArea c { s.area c with trQ := l, trLost := 0, trWritten := (s.area c).trWritten + 1 }).performWrite (some n) c 0
      (trBase (s.obj (n + 1) 0x2B00 1 0) + 64 + 16 * ((s.area c).trWritten % max 1 (trRecords (s.obj (n + 1) 0x2B00 1 0)))) r.bytes (s.epLow (some n))).1 := by
  have on : ¬ (!(trEn (s.obj (n + 1) 0x2B00 1 0))) = true := by rw [he]; decide
  have wraps : ¬ (bit (s.obj (n + 1) 0x2B00 1 0) 42 ∧ (s.area c).trWritten = trRecords (s.obj (n + 1) 0x2B00 1 0)) := by simp [hb]
  refine (traceWrite_queued hn hq).trans ((if_neg on).trans ((if_neg wraps).trans ((if_neg h4).trans ?_)))
  rw [if_pos h0, if_pos h0]

/-! Gated units -/

theorem gated_trace (s : State) (c kind unit index arg : Nat) : ((s.trace c kind unit index arg).area c).gated = (s.area c).gated := by
  obtain ⟨q, l, m, h⟩ := area_trace s c kind unit index arg c
  rw [h]

theorem gateUnit_gates (h : tget none (s.area c).gated (gateKey k ix) = none) : tget none ((s.gateUnit c k ix).area c).gated (gateKey k ix) = some s.ts := by
  unfold State.gateUnit
  extract_lets a
  rw [show tget none a.gated (gateKey k ix) = none from h]
  change tget none ((State.trace (s.setArea c { a with gated := tput a.gated (gateKey k ix) (some s.ts) }) c 1 k ix 0).area c).gated _ = _
  rw [gated_trace, State.area_setArea_same]
  exact tget_tput_same ..

theorem wakeUnit_awake (h : tget none (s.area c).gated (gateKey k ix) = none) : s.wakeUnit c k ix = s := by
  unfold State.wakeUnit
  extract_lets a
  rw [show tget none a.gated (gateKey k ix) = none from h]

theorem wakeUnit_wakes {x : W64} (h : tget none (s.area c).gated (gateKey k ix) = some x) : tget none ((s.wakeUnit c k ix).area c).gated (gateKey k ix) = none := by
  unfold State.wakeUnit
  extract_lets a
  rw [show tget none a.gated (gateKey k ix) = some x from h]
  change tget none ((State.trace (s.setArea c { a with gated := tdel a.gated (gateKey k ix) }) c 2 k ix _).area c).gated _ = _
  rw [gated_trace, State.area_setArea_same]
  exact tget_tdel_same ..

/-- Settles O55: the branches of each counter, trace and gating step. -/
theorem countersTraceAndGating : Obligations.CountersTraceAndGating := by
  unfold Obligations.CountersTraceAndGating
  intro c s hc
  refine ⟨fun p v hp => ⟨fun hw => ?_, fun hw => ⟨fun h => ?_, fun h => ?_⟩⟩, latch_operator s c, fun v hs h6 => ⟨fun hw => ?_, fun hw => ?_⟩,
    fun n v hn => ⟨fun hw => ⟨fun h => ?_, fun h1 h2 h3 h4 => ⟨fun he hd => ?_, fun he ho => ?_⟩⟩, fun hw => ?_⟩,
    fun n r l hs hn hq => ⟨fun he => ?_, fun he hb hf => ?_, fun he hb h0 h4 => ?_⟩, fun h => ?_,
    fun k ix hk hs => ⟨fun hi hg => ?_, fun hi => ?_, fun hg => ?_, fun x hg => ?_⟩⟩
  -- counters
  · exact unit_write_accepts hp hw rfl
  · exact unit_write_accepts hp hw (if_pos h)
  · exact unit_write_refuses hp hw (if_neg (Bool.eq_false_iff.mp h))
  · exact unit_write_accepts rfl hw (congrArg (Prod.mk none) (pcLive_area hs h6 _))
  · exact unit_write_accepts rfl hw (congrArg (Prod.mk none) (pcLive_area hs h6 _))
  -- trace buffers
  · exact unit_write_refuses hn hw (trCfgEff_outside h)
  · exact unit_write_refuses hn hw ((trCfgEff_fits h1 h2 h3 h4).trans (if_pos ⟨he, hd⟩))
  · have keeps : ¬ (trEn (s.obj (n + 1) 0x2B00 1 0) ∧ (trBase v.toNat ≠ trBase (s.obj (n + 1) 0x2B00 1 0) ∨ trSize v.toNat ≠ trSize (s.obj (n + 1) 0x2B00 1 0))) :=
      fun h => absurd h.1 (Bool.eq_false_iff.mp ho)
    refine unit_write_accepts hn hw ((trCfgEff_fits h1 h2 h3 h4).trans ((if_neg keeps).trans ?_))
    rw [he]
    rfl
  · exact unit_write_accepts hn hw rfl
  · exact (traceRecordWrite_next hc hs).trans (congrArg Host.Outcome.next (traceWrite_drops hn hq he))
  · exact (traceRecordWrite_next hc hs).trans (congrArg Host.Outcome.next (traceWrite_full hn hq he hb hf))
  · exact (traceRecordWrite_next hc hs).trans (congrArg Host.Outcome.next (traceWrite_writes hn hq he hb h0 h4))
  · refine (onUnit_next hc _).trans (congrArg Host.Outcome.next ?_)
    split <;> rename_i hs
    · rfl
    · exact traceWrite_idle (h.resolve_left hs)
  -- gating
  · refine ⟨_, (onUnit_next hc _).trans (congrArg Host.Outcome.next (if_pos (by rw [hk, hi, hs]; rfl))), gateUnit_gates hg⟩
  · exact (onUnit_next hc _).trans (congrArg Host.Outcome.next (if_neg (by simp [hi])))
  · have on : (gateUnitOk k ix && !s.refs.stopped) = true := by rw [hk, hs]; rfl
    exact (onUnit_next hc _).trans (congrArg Host.Outcome.next ((if_pos on).trans (wakeUnit_awake hg)))
  · have on : (gateUnitOk k ix && !s.refs.stopped) = true := by rw [hk, hs]; rfl
    exact ⟨_, (onUnit_next hc _).trans (congrArg Host.Outcome.next (if_pos on)), wakeUnit_wakes hg⟩

end Sys2Proof.Proofs
end

section
/-! PROOFS. Debug accesses: peeks, debug writes, registers (R510 to R512). -/

open Sys2Proof Sys2Proof.Machine Sys2Proof.Claims Sys2Proof.Laws

namespace Sys2Proof.Proofs

variable {s s1 t : State} {p : Path} {idx sub c k sl r : Nat} {v : W64} {e : Refuse} {g : Tgt}

/-! Peeks -/

theorem unit_read_val {rd : Rd} (hp : isPath p = true) (h : readable p idx sub s) (he : rd s = (.ok (.val v), t)) :
    onUnit (isPath p) (s.readAnswer p idx sub rd) = .next (t.out (.answer p idx sub 0 v)) := by
  rw [onUnit_next hp, read_val h he]

theorem unit_read_refuses {rd : Rd} (hp : isPath p = true) (h : readable p idx sub s) (he : rd s = (.error e, t)) (h8 : e.code ≠ 0x8008#16) :
    onUnit (isPath p) (s.readAnswer p idx sub rd) = refuses p idx sub e t := by
  rw [onUnit_next hp, read_refused h he, if_neg h8]
  rfl

/-- A peek that need not wait is a read. -/
theorem dbgMemRead_reads (hw : s.dbgWaits p 0x2B20 2 = false) :
    exec (.dbgMemRead p) s = onUnit (isPath p) (s.readAnswer p 0x2B20 2 (dbgMemRd p)) :=
  congrArg (onUnit (isPath p)) (if_neg (Bool.eq_false_iff.mp hw))

theorem dbgMemRd_gives {q : W16} (h : s.peek p = (.ok (v, q), t)) : dbgMemRd p s = (.ok (.val v), t.dbgCode p q) := by
  unfold dbgMemRd
  rw [h]
  rfl

theorem dbgMemRd_refuses (h : s.peek p = (.error e, t)) : dbgMemRd p s = (.error e, t.dbgCode p e.code) := by
  unfold dbgMemRd
  rw [h]
  rfl

theorem peek_counter (h : s.dbgTarget p = .ok g) (h3 : g.space = 3) :
    s.peek p = (.ok (BitVec.ofNat 64 ((s.area g.c).counter (g.off / 8)), 0), s) := by
  unfold State.peek
  rw [h]
  exact (if_neg (by omega)).trans ((if_neg (by omega)).trans (if_pos h3))

theorem peek_cell (h : s.dbgTarget p = .ok g) (h1 : g.space = 1) :
    s.peek p = (.ok (BitVec.ofNat 64 (leNat (cellsRead ((s.area g.c).cellMem (fld g.off 18 10)) (g.off % 2 ^ 18) 8)), 0), s) := by
  unfold State.peek
  rw [h]
  exact (if_neg (by omega)).trans (if_pos h1)

theorem peek_refused (h : s.dbgTarget p = .error e) : s.peek p = (.error e, s) := by
  unfold State.peek
  rw [h]

/-! Debug writes -/

theorem dbgMemEff_refused (h : s.dbgTarget p = .error e) : dbgMemEff p v s = (some e, s.dbgCode p e.code) := by
  unfold dbgMemEff
  rw [h]
  rfl

theorem dbgMemEff_counter (h : s.dbgTarget p = .ok g) (h3 : g.space = 3) : dbgMemEff p v s = (some (ownCode 0x4403), s.dbgCode p 0x4403#16) := by
  unfold dbgMemEff
  rw [h]
  exact if_pos h3

theorem dbgMemEff_endpoint (h : s.dbgTarget p = .ok g) (h4 : g.space = 4) : dbgMemEff p v s = (some (ownCode 0x4504), s.dbgCode p 0x4504#16) := by
  unfold dbgMemEff
  rw [h]
  exact (if_neg (by omega)).trans (if_pos h4)

theorem dbgMemEff_writes (h : s.dbgTarget p = .ok g) (h2 : g.space ≤ 2) (hl : s.lockWait g = false)
    (hw : s.performWrite (pathCtx p) g.c g.space g.off (leBytes 8 v.toNat) (s.epLow (pathCtx p)) = (s1, none)) :
    dbgMemEff p v s = (none, s1.dbgCode p 0) := by
  have free : ¬ s.lockWait g = true := by rw [hl]; decide
  unfold dbgMemEff
  rw [h]
  refine (if_neg (by omega)).trans ((if_neg (by omega)).trans ((if_neg free).trans ?_))
  rw [hw]

/-! Registers of a slot -/

/-- What `DBG_REG_SEL` names: a scalar register of a Worker Cell's slot. -/
structure NamesScalar (s : State) (p : Path) (c k sl r : Nat) : Prop where
  kind : s.obj (pathInst p) 0x2B20 3 0 % 8 = 0
  unit : fld (s.obj (pathInst p) 0x2B20 3 0) 13 13 = 5 * k + sl
  slot : sl < 4
  reg : fld (s.obj (pathInst p) 0x2B20 3 0) 26 12 = r
  scalar : r < 32
  comb : s.dbgUnit p (s.obj (pathInst p) 0x2B20 3 0) = .ok c

theorem slotOwn_scalar (h : r < 32) : slotOwn r = true := by
  have own : r < 0x120 := by omega
  simp [slotOwn, own]

theorem unit_parts (h : sl < 4) : (5 * k + sl) / 5 = k ∧ (5 * k + sl) % 5 = sl := by omega

theorem peekSlot_scalar (hs : sl < 4) (hr : r < 32) (h : s.slotStill c k sl = true) :
    s.peekSlot c k sl r = (.ok ((((s.worker c k).slot sl).s r).setWidth 64, 0), s) := by
  have still : ¬ (slotOwn r ∧ !(s.slotStill c k sl)) := by simp [h]
  have worker : ¬ sl = 4 := by omega
  refine (if_neg still).trans ((if_pos hr).trans ?_)
  rw [if_neg worker]

theorem peekReg_slot (h : NamesScalar s p c k sl r) : s.peekReg p = s.peekSlot c k sl r := by
  obtain ⟨hk, hu, hs, hr, -, hc⟩ := h
  obtain ⟨h1, h2⟩ := unit_parts (k := k) hs
  unfold State.peekReg
  extract_lets w i ix
  rw [show s.dbgUnit p w = .ok c from hc, show dbgKind w = 0 from hk, show ix = 5 * k + sl from hu, show i = r from hr, h1, h2]
  rfl

theorem dbgRegEff_slot (h : NamesScalar s p c k sl r) : dbgRegEff p v s =
    match s.putSlot c k sl r v with | .ok s1 => (none, s1.dbgCode p 0) | .error e => s.dbgBad p e := by
  obtain ⟨hk, hu, hs, hr, -, hc⟩ := h
  obtain ⟨h1, h2⟩ := unit_parts (k := k) hs
  unfold dbgRegEff
  extract_lets w i ix put
  rw [show s.dbgUnit p w = .ok c from hc, show dbgKind w = 0 from hk, show ix = 5 * k + sl from hu, show i = r from hr, h1, h2]
  rfl

theorem putSlot_scalar (hs : sl < 4) (hr : r < 32) (h : s.slotStill c k sl = true) :
    s.putSlot c k sl r v = .ok (s.setWorker c k ((s.worker c k).setSlot sl (((s.worker c k).slot sl).setS r (v.setWidth 32)))) := by
  have still : ¬ (slotOwn r ∧ !(s.slotStill c k sl)) := by simp [h]
  have worker : ¬ sl = 4 := by omega
  refine (if_neg still).trans ((if_pos hr).trans ?_)
  rw [if_neg worker]

theorem putSlot_running (hr : r < 32) (h : s.slotStill c k sl = false) : s.putSlot c k sl r v = .error badState := by
  have runs : slotOwn r ∧ !(s.slotStill c k sl) := ⟨slotOwn_scalar hr, by rw [h]; rfl⟩
  exact if_pos runs

/-! A peek that stays held -/

theorem peekTimeout_refuses (hp : isPath p = true) (hw : (s.dbgOf p).wait = true) (hm : p ≠ .mgmt) :
    exec (.peekTimeout p) s = refuses p 0x2B20 2 badState (s.dbgCode p 0xC00E#16) := by
  refine (onUnit_next hp _).trans (congrArg Host.Outcome.next ((if_pos hw).trans ?_))
  cases p with
  | mgmt => exact absurd rfl hm
  | tenant n => rfl
  | hl h => rfl
  | jtag => rfl

/-! Halts, resumes and steps -/

/-- What an accepted write of `DBG_RUN` does, by its operation. -/
def ranUnit (s : State) (p : Path) (n c : Nat) : State :=
  let s1 := (s.setObj (pathInst p) 0x2B20 5 n).dbgCode p 0
  match fld n 26 2 with
  | 0 => (s1.setHalt (n % 8) c (fld n 13 13) true).noteHalt p (n % 8, c, fld n 13 13) true
  | 1 => (s1.setHalt (n % 8) c (fld n 13 13) false).noteHalt p (n % 8, c, fld n 13 13) false
  | _ => (((s1.setHalt (n % 8) c (fld n 13 13) false).stepUnit (n % 8) c (fld n 13 13)).setHalt (n % 8) c (fld n 13 13) true).noteHalt p
      (n % 8, c, fld n 13 13) true

theorem dbgRunEff_runs (h : s.dbgUnit p v.toNat = .ok c) : dbgRunEff p v s = (none, ranUnit s p v.toNat c) := by
  unfold dbgRunEff
  extract_lets n ki ix
  rw [show s.dbgUnit p n = .ok c from h]
  rfl

theorem dbgRunEff_refused (h : s.dbgUnit p v.toNat = .error e) : dbgRunEff p v s = (some e, s.dbgCode p e.code) := by
  unfold dbgRunEff
  extract_lets n ki ix
  rw [show s.dbgUnit p n = .error e from h]
  rfl

/-- The command of the operation that is written is the one that runs it. -/
theorem dbgRun_own {op : Nat} (h : fld v.toNat 26 2 = op) : s.dbgRun p op v = s.writeAnswer p 0x2B20 5 v (dbgRunEff p v) := if_pos (.inl h)

theorem dbgRun_accepts {op : Nat} (hp : isPath p = true) (hw : writable p 0x2B20 5 v s) (ho : fld v.toNat 26 2 = op) (h : s.dbgUnit p v.toNat = .ok c) :
    onUnit (isPath p) (s.dbgRun p op v) = accepts p 0x2B20 5 (ranUnit s p v.toNat c) := by
  rw [dbgRun_own ho]
  exact unit_write_accepts hp hw (dbgRunEff_runs h)

/-- A halt of a Worker Cell's slot, set or cleared. -/
theorem setHalt_slot (s : State) (c k : Nat) (hs : sl < 4) (b : Bool) : s.setHalt 0 c (5 * k + sl) b =
    s.setSlot ⟨c, k, sl⟩ { (if b then (s.slot ⟨c, k, sl⟩).rollback else s.slot ⟨c, k, sl⟩) with halted := b } := by
  obtain ⟨h1, h2⟩ := unit_parts (k := k) hs
  have worker : ¬ sl = 4 := by omega
  unfold State.setHalt
  simp only [h1, h2, if_neg worker]
  rfl

end Sys2Proof.Proofs
end

section
/-! PROOFS. The multi-function pins (R526 to R532), and the debug accesses' statement. -/

open Sys2Proof Sys2Proof.Machine Sys2Proof.Claims Sys2Proof.Laws

namespace Sys2Proof.Proofs

variable {s : State} {p : Path} {n ns : Nat} {v : W64}

theorem mfpCfgEff_parks (h : v.toNat % 8 ≠ s.obj 0 0x2D00 (n + 1) 0 % 8) :
    mfpCfgEff p n v s = (none, ((s.setObj 0 0x2D00 (n + 1) v.toNat).setPin n
      { s.pinOf n with parked := true, next := some (v.toNat % 8), level := bit v.toNat 3, hiZ := false }).out (.pin n (bit v.toNat 3))) :=
  congrArg (Prod.mk none) (if_pos h)

theorem mfpCfgEff_output (h : v.toNat % 8 = s.obj 0 0x2D00 (n + 1) 0 % 8) (h1 : v.toNat % 8 = 1) (hp : (s.pinOf n).parked = false)
    (hb : bit v.toNat 4 ≠ bit (s.obj 0 0x2D00 (n + 1) 0) 4) : mfpCfgEff p n v s =
      (none, ((s.setObj 0 0x2D00 (n + 1) v.toNat).setPin n { s.pinOf n with level := bit v.toNat 4 }).out (.pin n (bit v.toNat 4))) := by
  have follows : v.toNat % 8 = 1 ∧ !(s.pinOf n).parked ∧ bit v.toNat 4 ≠ bit (s.obj 0 0x2D00 (n + 1) 0) 4 := ⟨h1, by rw [hp]; rfl, hb⟩
  exact congrArg (Prod.mk none) ((if_neg (not_not.mpr h)).trans (if_pos follows))

theorem mfpCfgEff_stores (h : v.toNat % 8 = s.obj 0 0x2D00 (n + 1) 0 % 8)
    (hk : v.toNat % 8 ≠ 1 ∨ (s.pinOf n).parked = true ∨ bit v.toNat 4 = bit (s.obj 0 0x2D00 (n + 1) 0) 4) :
    mfpCfgEff p n v s = (none, s.setObj 0 0x2D00 (n + 1) v.toNat) := by
  have keeps : ¬ (v.toNat % 8 = 1 ∧ !(s.pinOf n).parked ∧ bit v.toNat 4 ≠ bit (s.obj 0 0x2D00 (n + 1) 0) 4) := by
    rintro ⟨h1, hp, hb⟩
    rcases hk with h | h | h
    · exact h h1
    · rw [h] at hp
      cases hp
    · exact hb h
  exact congrArg (Prod.mk none) ((if_neg (not_not.mpr h)).trans (if_neg keeps))

/-- The level at which a pin begins its function. -/
def firstLevel (s : State) (n f : Nat) : Bool := if f = 1 then bit (s.obj 0 0x2D00 (n + 1) 0) 4 else if f = 4 then s.pulse else false

/-- The pin under function `f`. -/
def handedOver (s : State) (n f : Nat) : State := s.setPin n { s.pinOf n with func := f, next := none, parked := false, level := firstLevel s n f }

theorem mfpHandover_hands {f : Nat} (hn : isPin n = true) (hp : (s.pinOf n).parked = true) (h : (s.pinOf n).next = some f) :
    exec (.mfpHandover n) s = .next (if f = 1 ∨ f = 2 ∨ f = 4 then (handedOver s n f).out (.pin n (firstLevel s n f)) else handedOver s n f) := by
  have parked : ¬ (!(s.pinOf n).parked) = true := by rw [hp]; decide
  refine (onUnit_next hn _).trans (congrArg Host.Outcome.next ?_)
  extract_lets x
  rw [show x.next = some f from h]
  exact if_neg parked

theorem mfpHandover_stays (hn : isPin n = true) (h : (s.pinOf n).next = none ∨ (s.pinOf n).parked = false) : exec (.mfpHandover n) s = .next s := by
  refine (onUnit_next hn _).trans (congrArg Host.Outcome.next ?_)
  extract_lets x
  split <;> rename_i hx
  · rfl
  · rcases h with h | h
    · exact absurd (h.symm.trans hx) (by simp)
    · exact if_pos (by rw [h]; rfl)

/-- An edge counted, with its time. -/
def edgeCounted (s : State) : State := (s.setObj 0 0x2D00 13 s.ts.toNat).setObj 0 0x2D00 14 ((s.obj 0 0x2D00 14 0 + 1) % 2 ^ 32)

theorem edgeCounted_leaves (s : State) : (edgeCounted s).obj 0 0x2D00 13 0 = s.ts.toNat ∧ (edgeCounted s).obj 0 0x2D00 14 0 = (s.obj 0 0x2D00 14 0 + 1) % 2 ^ 32 :=
  ⟨(obj_setObj_ne (by decide) _ _).trans (obj_setObj_same _ _ _ _ s.ts.isLt), obj_setObj_same _ _ _ _ (by omega)⟩

/-- Pins driven low in turn. -/
def pinsLow (s : State) (ps : List Nat) : State := ps.foldl (fun (s : State) k => (s.setPin k { s.pinOf k with level := false }).out (.pin k false)) s

theorem pinsLow_leaves (ps : List Nat) (s : State) (n : Nat) :
    (pinsLow s ps).pulse = s.pulse ∧ (pinsLow s ps).pinOf n = if n ∈ ps then { s.pinOf n with level := false } else s.pinOf n := by
  induction ps generalizing s with
  | nil => exact ⟨rfl, rfl⟩
  | cons k ps ih =>
    obtain ⟨h1, h2⟩ := ih ((s.setPin k { s.pinOf k with level := false }).out (.pin k false))
    refine ⟨h1, h2.trans ?_⟩
    rw [State.pinOf_out', State.pinOf_setPin]
    by_cases hk : n = k
    · subst hk
      simp
    · simp [hk]

/-- The pins that carry step-sync out. -/
def pulsePins (s : State) : List Nat := (List.range 8).filter (fun k => (s.pinOf k).func = 4 && !(s.pinOf k).parked)

theorem mem_pulsePins (hn : n < 8) : n ∈ pulsePins s ↔ (s.pinOf n).func = 4 ∧ (s.pinOf n).parked = false := by
  simp [pulsePins, hn]

theorem pulseEnd_ends (h : s.pulse = true) : exec .stepSyncPulseEnd s = .next (pinsLow { s with pulse := false } (pulsePins s)) := by
  have high : ¬ (!s.pulse) = true := by rw [h]; decide
  exact congrArg Host.Outcome.next (if_neg high)

/-- Settles O56: the branches of each debug access, and of each step of a pin. -/
theorem debugAccessesAndPins : Obligations.DebugAccessesAndPins := by
  unfold Obligations.DebugAccessesAndPins
  refine ⟨fun p s hp => ⟨fun hw => ?_, fun t hr hw ht => ⟨fun h3 => ?_, fun h1 => ?_⟩, fun hr hw ht => ?_,
      fun v hv => ⟨fun r ht => ?_, fun t ht => ⟨fun h3 => ?_, fun h4 => ?_, fun s1 h2 hl hq => ?_⟩⟩,
      fun c k sl r hk hu hs hr hx hc hst => ⟨fun h => ?_, fun v h => ?_⟩, fun c k sl r hk hu hs hr hx hc hst v h => ?_,
      fun hw => ?_, peekTimeout_refuses hp, fun v hv => ⟨fun c hc => ⟨fun ho => ?_, fun ho => ?_, fun ho => ?_⟩, fun r hc ho => ?_⟩, fun c k sl hu => ⟨?_, ?_⟩⟩,
    fun n s hn => ⟨fun p v hp hw => ⟨fun h => ?_, fun h h1 hk hb => ?_, fun h hk => ?_⟩, mfpHandover_stays hn, fun hk => ⟨fun h => ?_, fun h => ?_, fun h => ?_⟩,
      fun ns => ⟨fun hf hk h => ?_, fun h => ?_⟩, fun h => ?_, fun h => ?_, fun b => ⟨fun hg hf hk => ?_, fun hg => ?_⟩⟩⟩
  -- peeks
  · exact (onUnit_next hp _).trans (congrArg Host.Outcome.next (if_pos hw))
  · exact (dbgMemRead_reads hw).trans (unit_read_val hp hr (dbgMemRd_gives (peek_counter ht h3)))
  · exact (dbgMemRead_reads hw).trans (unit_read_val hp hr (dbgMemRd_gives (peek_cell ht h1)))
  · exact (dbgMemRead_reads hw).trans (unit_read_refuses hp hr (dbgMemRd_refuses (peek_refused ht)) (by decide))
  -- debug writes
  · exact unit_write_refuses hp hv (dbgMemEff_refused ht)
  · exact unit_write_refuses hp hv (dbgMemEff_counter ht h3)
  · exact unit_write_refuses hp hv (dbgMemEff_endpoint ht h4)
  · exact unit_write_accepts hp hv (dbgMemEff_writes ht h2 hl hq)
  -- registers
  · have named : NamesScalar s p c k sl r := ⟨hk, hu, hs, hr, hx, hc⟩
    refine unit_read_val hp h ?_
    unfold dbgRegRd
    rw [peekReg_slot named, peekSlot_scalar hs hx hst]
    rfl
  · have named : NamesScalar s p c k sl r := ⟨hk, hu, hs, hr, hx, hc⟩
    exact unit_write_accepts hp h (by rw [dbgRegEff_slot named, putSlot_scalar hs hx hst])
  · have named : NamesScalar s p c k sl r := ⟨hk, hu, hs, hr, hx, hc⟩
    refine unit_write_refuses hp h ?_
    rw [dbgRegEff_slot named, putSlot_running hx hst]
    rfl
  · exact (onUnit_next hp _).trans (congrArg Host.Outcome.next (if_neg (Bool.eq_false_iff.mp hw)))
  -- halts, resumes, steps
  · refine (dbgRun_accepts hp hv ho hc).trans (congrArg (accepts p 0x2B20 5) ?_)
    rw [ranUnit, ho]
    rfl
  · refine (dbgRun_accepts hp hv ho hc).trans (congrArg (accepts p 0x2B20 5) ?_)
    rw [ranUnit, ho]
    rfl
  · refine (dbgRun_accepts hp hv ho hc).trans (congrArg (accepts p 0x2B20 5) ?_)
    rw [ranUnit, ho]
    rfl
  · refine (congrArg (onUnit (isPath p)) (dbgRun_own ho)).trans ?_
    exact unit_write_refuses hp hv (dbgRunEff_refused hc)
  · have hs : sl < 4 := of_decide_eq_true (Bool.and_eq_true_iff.mp hu).2
    rw [setHalt_slot s c k hs, State.slot_setSlot_same]
  · have hs : sl < 4 := of_decide_eq_true (Bool.and_eq_true_iff.mp hu).2
    exact setHalt_slot s c k hs false
  -- a pin's configuration
  · exact unit_write_accepts (by rw [hp, hn]; rfl) hw (mfpCfgEff_parks h)
  · exact unit_write_accepts (by rw [hp, hn]; rfl) hw (mfpCfgEff_output h h1 hk hb)
  · exact unit_write_accepts (by rw [hp, hn]; rfl) hw (mfpCfgEff_stores h hk)
  · exact mfpHandover_hands hn hk h
  · exact mfpHandover_hands hn hk h
  · exact mfpHandover_hands hn hk h
  -- step-sync and the console
  · have taken : (s.pinOf n).func = 3 ∧ !(s.pinOf n).parked ∧ 100 ≤ ns := ⟨hf, by rw [hk]; rfl, h⟩
    exact ⟨_, (onUnit_next hn _).trans (congrArg Host.Outcome.next (if_pos taken)), edgeCounted_leaves s⟩
  · have passed : ¬ ((s.pinOf n).func = 3 ∧ !(s.pinOf n).parked ∧ 100 ≤ ns) := by
      rintro ⟨h1, h2, h3⟩
      rcases h with h | h | h
      · exact h h1
      · rw [h] at h2
        cases h2
      · omega
    exact (onUnit_next hn _).trans (congrArg Host.Outcome.next (if_neg passed))
  · exact congrArg Host.Outcome.next (if_pos (by rw [h]; rfl))
  · obtain ⟨h1, h2⟩ := pinsLow_leaves (pulsePins s) { s with pulse := false } n
    refine ⟨_, pulseEnd_ends h, h1, h2.trans ?_⟩
    simp only [mem_pulsePins (of_decide_eq_true hn)]
    rfl
  · exact congrArg Host.Outcome.next (if_pos (by rw [hg, hf, hk]; rfl))
  · exact congrArg Host.Outcome.next (if_neg (by rw [hg]; simp))

end Sys2Proof.Proofs
end

section
/-! PROOFS. The governor, Floor and the sensors: the statement (R426 to R437). -/

open Sys2Proof Sys2Proof.Machine Sys2Proof.Claims Sys2Proof.Laws

namespace Sys2Proof.Proofs

variable {s : State} {inp base links mem comp k ns c : Nat}

/-! A sample's effect -/

theorem sampled_leaves (s : State) (inp base : Nat) :
    (sampled s inp base).power.tick = s.power.tick + 1 ∧ (sampled s inp base).power.inp = inp ∧ (sampled s inp base).power.inpN = s.power.inpN + 1
      ∧ (sampled s inp base).combs = s.combs := ⟨rfl, rfl, rfl, rfl⟩

theorem governor_quiet (h2 : s.pwrState ≠ 2) (h3 : s.pwrState ≠ 3) : s.governor inp base links mem comp = sampled s inp base := by
  have quiet : ¬ ((sampled s inp base).pwrState == 2 || (sampled s inp base).pwrState == 3) = true := by
    rw [sampled_pwrState]
    simp [h2, h3]
  rw [governor_eq, if_neg quiet]

/-- In Run, where the cap carries all of it, nothing is throttled. -/
theorem governor_full (h2 : s.pwrState = 2) (hc : s.pwrCap ≤ 30000) (hp : prioOk (s.obj 0 0x2100 7 0x24) = true) (hsum : base + links + mem + comp ≤ s.pwrCap)
    (hcool : s.pwrCap ≤ s.power.pcool) (hibc : s.pwrCap ≤ 3750 * s.ibcOn) : s.governor inp base links mem comp =
      ((sampled s inp base).throttleTo inp (96, false, 16)).thrCount (base + links + mem + comp) := by
  have runs : ((sampled s inp base).pwrState == 2 || (sampled s inp base).pwrState == 3) = true := by
    rw [sampled_pwrState, h2]
    rfl
  have limit : (sampled s inp base).pwrCap ≤ (sampled s inp base).limitW := by
    rw [← sampled_pwrCap s inp base] at hc hcool hibc
    exact limitW_ge hc hcool hibc
  have full : (sampled s inp base).levels base links mem comp = (96, false, 16) := by
    refine levels_full ?_ (le_trans ?_ limit)
    · rwa [sampled_prio]
    · rwa [sampled_pwrCap]
  rw [governor_eq, if_pos runs, full]

/-! Alerts -/

theorem setConv_alertPin (s : State) (k : Nat) (v : Conv) : (s.setConv k v).power = s.power := rfl

/-- A stage whose alert ends leaves no alert, where it was the only one. -/
theorem alerts_ended (hp : s.power.alertPin = false) (h : ∀ j < 8, j ≠ k → (s.conv j).alert = false) :
    (s.setConv k { s.conv k with alert := false }).alerts = false := by
  refine alerts_none hp fun j hj => ?_
  rw [State.conv_setConv]
  split
  · rfl
  · rename_i hk
    exact h j hj hk

theorem slopeStep_up (s : State) (c : Nat) : s.slopeStep (c, true) =
    if (s.comb c).duty < s.dutyMax c then (true, s.setComb c { s.comb c with duty := (s.comb c).duty + 1 }) else (false, s) := rfl

theorem slopeStep_down (s : State) (c : Nat) : s.slopeStep (c, false) =
    if 0 < (s.comb c).duty then (true, s.setComb c { s.comb c with duty := (s.comb c).duty - 1 }) else (false, s) := rfl

theorem floorClear_frame (s : State) (b f : Nat) : (s.floorClear b).frame f = s.frame f := rfl
theorem tripClear_frame (s : State) (code : W16) (f : Nat) : (s.tripClear code).frame f = s.frame f := rfl

/-! The end of Floor -/

theorem floorExit_runs (h : s.pwrState = 3 ∧ s.power.causes = 0) :
    s.floorExit.pwrState = 2 ∧ ∃ e ∈ s.floorExit.events, e.code = s.power.floorCode ∧ e.ctx = none := by
  rw [floorExit_leaves h]
  refine ⟨?_, _, List.mem_append_right _ (List.mem_singleton_self _), rfl, rfl⟩
  rw [plant_pwrState (plant_event ..), plant_pwrState (plant_floorUngate _)]
  exact pwrState_setObj (by decide)

/-- Settles O48: the branches of the governor, of Floor's causes and of each sensor's step. -/
theorem governorAndSensors : Obligations.GovernorAndSensors := by
  unfold Obligations.GovernorAndSensors
  intro s
  refine ⟨fun inp base links mem comp h2 h3 => ?_, fun inp base links mem comp h2 hc hp hsum hcool hibc => ?_, fun ns hns h2 hb => ?_, fun ns hns hal => ?_,
    fun k hk h2 hb => ?_, fun k hk hpin hal => ?_, fun h3 h0 => ⟨_, floorExit_next s, floorExit_runs ⟨h3, h0⟩⟩, fun h => ?_, fun p v hp hw => ?_,
    fun c hc hf => ⟨fun hd => ?_, fun hd => ?_, fun hd => ?_⟩, fun reqs hr hf => ?_, fun tj hl => ⟨fun hx h0 h4 => ?_, fun hx hh h2 h3 => ?_⟩,
    fun f hf => ⟨fun h => ?_, fun h1 h2 => ?_, fun h => ?_, fun need h => ?_, fun need h hm => ?_, fun need h hm hw => ?_⟩,
    fun tin tout flow dp => ⟨fun h h2 hb => ?_, fun h1 h2 h3 => ?_⟩, fun n a hn ha => ?_⟩
  -- the governor
  · obtain ⟨h4, h5, h6, h7⟩ := sampled_leaves s inp base
    exact ⟨_, congrArg Host.Outcome.next (governor_quiet h2 h3), h4, h5, h6, sampled_pwrState s inp base, sampled_above, h7⟩
  · obtain ⟨h4, h5, h6, h7⟩ := throttleTo_power (s := sampled s inp base) (inp := inp) (l := (96, false, 16)) rfl
    refine ⟨_, congrArg Host.Outcome.next (governor_full h2 hc hp hsum hcool hibc), ?_⟩
    beta_reduce
    rw [thrCount_pwrState, throttleTo_pwrState rfl, sampled_pwrState, thrCount_power]
    exact ⟨h2, h4, h5, h6, h7⟩
  -- alerts
  · have pin : (pinPulse s ns).alerts = true := by simp [State.alerts, pinPulse, hns]
    have runs : (pinPulse s ns).pwrState = 2 := (pinPulse_pwrState s ns).trans h2
    obtain ⟨h3, hp⟩ := floorCause_enters (c := 0x9008#16) runs (b := 0) hb
    refine ⟨_, pwrAlertPin_next s ns, ?_⟩
    beta_reduce
    rw [alertSettle_on pin]
    refine ⟨h3, floorCause_bit runs hb, ?_, ?_⟩
    · rw [hp]
      exact decide_eq_true hns
    · rw [hp]
  · have quiet : (pinPulse s ns).alerts = false := alerts_none (decide_eq_false (Nat.not_le.mpr hns)) hal
    refine ⟨_, pwrAlertPin_next s ns, ?_⟩
    beta_reduce
    rw [alertSettle_off quiet]
    exact ⟨floorClear_bit .., decide_eq_false (Nat.not_le.mpr hns), (floorClear_pwrState ..).trans (pinPulse_pwrState s ns)⟩
  · have on : (s.setConv k { s.conv k with alert := true }).alerts = true := alerts_ibc hk _ rfl
    have runs : (s.setConv k { s.conv k with alert := true }).pwrState = 2 := (setConv_pwrState ..).trans h2
    refine ⟨_, ibcAlert_next hk true, ?_⟩
    beta_reduce
    rw [alertSettle_on on, conv_of_convs (floorCause_convs ..), State.conv_setConv_same]
    exact ⟨(floorCause_enters runs hb).1, floorCause_bit runs hb, rfl⟩
  · refine ⟨_, ibcAlert_next hk false, ?_⟩
    beta_reduce
    rw [alertSettle_off (alerts_ended hpin hal)]
    exact ⟨congrArg Conv.alert (State.conv_setConv_same s k _), floorClear_bit .., (floorClear_pwrState ..).trans (setConv_pwrState ..)⟩
  · exact (floorExit_next s).trans (congrArg Host.Outcome.next (floorExit_stays (by rwa [not_and_or])))
  · exact ⟨_, unit_write_accepts hp hw rfl, obj_setObj_same _ _ _ _ v.isLt, List.mem_cons_self ..⟩
  -- current steps
  · rw [slopeGrantTick_one hc hf, slopeStep_up, if_pos hd]
    rfl
  · rw [slopeGrantTick_one hc hf, slopeStep_up, if_neg (Nat.not_lt.mpr hd)]
    rfl
  · rw [slopeGrantTick_one hc hf, slopeStep_down, if_pos hd]
    rfl
  · exact (slopeGrantTick_next hr).trans (congrArg Host.Outcome.next (if_pos hf))
  -- temperatures
  · have on : (thermalRead s tj).pwrState ≠ 0 := by rwa [thermalRead_pwrState]
    refine ⟨_, (thermalTick_next hl).trans (congrArg Host.Outcome.next (thermal_trips hx)), tripNow_pwrState on, tripNow_causes on⟩
  · refine ⟨_, (thermalTick_next hl).trans (congrArg Host.Outcome.next (thermal_cool hl hx hh h2 h3)), floorClear_bit .., ?_, fun f hf => ?_⟩
    · rw [floorClear_pwrState, tripClear_pwrState, thermalRead_pwrState]
    · rw [floorClear_frame, tripClear_frame, thermalRead_tj hf]
  -- duty and voltage of a Frame
  · rw [throttleStep_next hf, throttle_up h]
  · rw [throttleStep_next hf, throttle_same h1 h2]
  · exact ⟨_, throttleStep_next hf, throttle_down h⟩
  · rw [avsTick_next hf, avs_nominal h]
  · refine ⟨_, (avsTick_next hf need).trans (congrArg Host.Outcome.next (avs_ms h hm)), State.frame_setFrame_same s f _, tget_tset_same 0 s.power.wearMs f (tget 0 s.power.wearMs f + 1)⟩
  · exact ⟨_, avsTick_next hf need, avs_second h hm hw⟩
  -- coolant
  · have runs : (coolantRead s tin tout flow dp).pwrState = 2 := (coolantRead_pwrState ..).trans h2
    obtain ⟨h3, hp⟩ := floorCause_enters (c := 0x9007#16) runs (b := 3) hb
    refine ⟨_, (coolantTick_next ..).trans (congrArg Host.Outcome.next (if_pos h)), h3, floorCause_bit runs hb, ?_⟩
    rw [hp]
    rfl
  · have good : ¬ (pCool tin flow < 4000 ∨ flow < 150 ∨ 600 < tout) := by omega
    exact ⟨_, (coolantTick_next ..).trans (congrArg Host.Outcome.next (if_neg good)), floorClear_bit .., rfl, (floorClear_pwrState ..).trans (coolantRead_pwrState ..)⟩
  -- energy
  · have hn16 : n < 16 := of_decide_eq_true hn
    refine ⟨_, energyTick_one ha, ?_⟩
    beta_reduce
    rw [Nat.mod_eq_of_lt hn16, energyRest_obj hn16, energyRest_frac hn16, addEnergy_obj, addEnergy_frac, if_pos rfl]
    exact ⟨rfl, rfl⟩

end Sys2Proof.Proofs
end
